-- ==== Sys2Proof/Word.lean ====
section
/-! DEFINITION. The word types of the model: bytes, and the 32-, 48- and 64-bit words of spec/00_scope.md R2 and R14. -/

namespace Sys2Proof

/-- One byte. -/
abbrev Byte := BitVec 8

/-- A 64-bit register or command word. -/
abbrev Word := BitVec 64

/-- A wafer address (R7), a tally value (R513) or an accumulator entry (R257). -/
abbrev W48 := BitVec 48

end Sys2Proof
end

