-- ==== Sys2Proof/Syntax.lean ====
section
/-! DEFINITION. The commands of the module: one constructor of `Instr` per row of spec/opcode_table.json, with the
operands the row's rule names, and the plain data those operands carry (requesters, mesh messages, queue items,
bitstream images, readings of sensors). A quantity the module only senses (a voltage, a temperature, the instant of an
edge) is an operand of the command that samples it (log 2). -/

namespace Sys2Proof

/-- Who accesses a register or sends a command (R10, R16, R183): PF0, VF `n`, teller `t` of field `fn`, the island of
core slot `s` of `fn`, the bursar, and the SMBus target. -/
inductive Who where
  | pf0
  | vf (n : Nat)
  | teller (fn t : Nat)
  | island (fn s : Nat)
  | bursar
  | smbus
deriving DecidableEq, Repr

/-- A mesh message (R377). `a b c d` are the payload words of its kind: GRANT base, size, scrip, mode; TSIGNAL (R401)
tally, value; TWAIT (R515) tally, flags, target, expiry; TWAKE tally, result, T_w; pace mark (R105) group, frame, index,
stamp. `data` are the bytes of a DEPOSIT's data flits, `poison` that
one of its words carries store poison (R355). -/
structure Msg where
  kind : Nat
  yx : Bool := false
  gen : Bool := false
  part : Nat := 0xFE
  len : Nat := 0
  srcFn : Nat := 0
  srcUnit : Nat := 0
  tag : Nat := 0
  dst : Nat := 0
  window : Nat := 0
  status : Nat := 0
  wgen : Nat := 0
  units : Nat := 0
  a : Nat := 0
  b : Nat := 0
  c : Nat := 0
  d : Nat := 0
  data : List Byte := []
  poison : Bool := false
deriving DecidableEq, Repr

/-- A queue item (R493): the queue it came from (`p * 256 + q`, or `4096 + m` for management queue m), the HEAD count of
its first slot, the queue's epoch when it was started (R503), and its bytes, 64 per slot. -/
structure Item where
  queue : Nat
  pos : Nat
  epoch : Nat
  bytes : List Byte
deriving DecidableEq, Repr

/-- A bitstream image as its source holds it (R128-R142): its size and its bytes; unlisted ones are 0. -/
structure Image where
  size : Nat
  bytes : List (Nat × Byte)
deriving DecidableEq, Repr

/-- A firmware image (R447): header, body and signature block. -/
structure FwImage where
  bytes : List Byte
deriving DecidableEq, Repr

/-- The configuration space of one function as the host has set it (R418, R420, R434, R437). -/
structure FuncCfg where
  busMaster : Bool
  msixEnable : Bool
  funcMask : Bool
  d3hot : Bool
  relaxed : Bool
  tag10 : Bool
  mps : Nat
  mrrs : Nat
deriving DecidableEq, Repr

/-- One reading of a field's power sense (R114, R115, R622): rail in mV, current in 1/8 A, junction in 1/16 degree,
mean power of the step in 1/16 W. -/
structure RailReading where
  volt : Nat
  curr : Nat
  tj : Int
  power : Nat
deriving DecidableEq, Repr

/-- The four words of a core command (R190). -/
structure CmdWords where
  w0 : Word
  w1 : Word
  w2 : Word
  w3 : Word
deriving DecidableEq, Repr

/-- The self-timed stages of a core whose handshakes BEAT performs (R34, R181): the address generators delivering to row
feeder `r`, row feeder `r` broadcasting, the tree of column `c` joining a token, the escape merge and accumulator of
column `c`, the mint's parameter load, the mint, the drain, the matrix-vector path, and the island taking a word of the
pre-feeder and of the post-mint tap (R578, R583, R587). -/
inductive Stage where
  | gen (r : Nat)
  | row (r : Nat)
  | tree (c : Nat)
  | accum (c : Nat)
  | param
  | mint
  | drain
  | mv
  | pfOut
  | pmOut
deriving DecidableEq, Repr


/-- A command of the module. Each constructor is the row of spec/opcode_table.json that its comment names; what the row
does is in the meaning that Machine/Dispatch.lean calls for it. -/
inductive Instr where
  /-- REGISTER_WRITE (R10): A host, teller or island write to a register field that has no behaviour of its own takes effect according to its access code. -/
  | registerWrite (who : Who) (off size value : Nat)
  /-- LOW_WORD_READ (R16): A 32-bit read of the low word of a 64-bit register latches the high word for its requester. -/
  | lowWordRead (who : Who) (off size : Nat)
  /-- LOW_WORD_WRITE (R16): A 32-bit write of the low word of a 64-bit register stages it for its requester. -/
  | lowWordWrite (who : Who) (off value : Nat)
  /-- HIGH_WORD_WRITE (R16): A 32-bit write of the high word writes the whole 64-bit register, using the staged or the present low word. -/
  | highWordWrite (who : Who) (off value : Nat)
  /-- POWER_UP (R93): The entry rises through 42 V; the carrier brings up the rails and the anchor, and wafer time starts. -/
  | powerUp (straps : Nat) (refClock : Bool)
  /-- SEQUENCING_STEP (R94): When the gap has elapsed, the next sequencing step switches on up to 6 fields. -/
  | sequencingStep
  /-- TIMEBASE_JOIN (R66): A newly powered field's timebase node acquires frequency and phase, loads wafer time and trains its links. -/
  | timebaseJoin (fn : Nat)
  /-- TIMEBASE_JOIN_FAILURE (R67): A node that has not reached step 5 of the join within 1 ms is reported, and its field is powered off and retired. -/
  | timebaseJoinFailure (fn : Nat)
  /-- SWITCH_OFF_STEP (R484): At most 6 fields switch off per step, with steps at least 1 ms apart. -/
  | switchOffStep
  /-- ENTRY_SAMPLE (R86): Every 10 µs the carrier measures the 48 V entry and evaluates the excursion thresholds. -/
  | entrySample (vin iin : Nat)
  /-- EMERGENCY_POWER_DOWN (R86): An entry outside 40–60 V for 1 ms, or a mean above 13.5 kW for 100 µs, starts an emergency power-down of every partition. -/
  | emergencyPowerDown
  /-- CARRIER_TRIP (R86): An entry outside 36–63 V for 20 µs makes the carrier remove every rail at once. -/
  | carrierTrip
  /-- TRIP_RECOVERY (R86): After the entry has been back in range for 100 ms following a trip, the module powers up as after a module reset. -/
  | tripRecovery
  /-- REF_CLOCK_LOST (R61): When TB_REFCLK stops or drifts too far, the reference node enters HOLDOVER and TIMEBASE_REF_LOST is raised. -/
  | refClockLost
  /-- REF_CLOCK_RESTORED (R61): After 1 ms of a valid TB_REFCLK, the reference node leaves HOLDOVER and slews back. -/
  | refClockRestored
  /-- LINK_SYNC_EXCHANGE (R63): In independent mode each node exchanges timestamps with its parent every 1 µs and slews to remove the offset. -/
  | linkSyncExchange (fn : Nat) (offset : Int)
  /-- LOCK_LOSS (R68): A node whose phase error exceeds 100 ps enters HOLDOVER, retrains its links source-synchronous and becomes FREE. -/
  | lockLoss (fn : Nat)
  /-- RECOUPLE (R70): The recouple-field management command slews a FREE node back to coupled lock. -/
  | recouple (it : Item) (locked : Bool)
  /-- CAPTURE_EDGE (R81): An edge on a capture input records the wafer time and sets OVERRUN when the previous value was unread. -/
  | captureEdge (fn input : Nat) (falling : Bool)
  /-- CAPTURE_READ (R81): A read of TBS_CAPTn marks the captured value as read. -/
  | captureRead (who : Who) (fn input : Nat)
  /-- BEAT (R34): A self-timed stage holding a complete input with its output acknowledged performs one handshake beat. -/
  | beat (fn s : Nat) (stage : Stage)
  /-- BEATMON_WINDOW_END (R53): At the end of a measurement window the beat monitor writes RATE, RAIL_CHANGED, SEQ and END together. -/
  | beatmonWindowEnd (fn beats : Nat)
  /-- BEATMON_CTL_WRITE (R54): A write of FLD_BEATMON_CTL changes the window or stops or starts the ring. -/
  | beatmonCtlWrite (who : Who) (fn value : Nat)
  /-- PACE_STEP (R111): At each multiple of 20 µs the pace unit computes the next rail code from slack, policy and caps. -/
  | paceStep (fn : Nat) (r : RailReading)
  /-- PACE_MARK_ARRIVAL (R106): A pace mark reaches a field's pace unit and counts in the current step, or is discarded as an orphan. -/
  | paceMarkArrival (fn : Nat) (m : Msg)
  /-- PACE_POLICY_WRITE (R108): A write of FLD_PACE_POLICY or FLD_PACE_SLACK is checked and staged for the next boundary. -/
  | pacePolicyWrite (who : Who) (fn : Nat) (slack : Bool) (value : Nat)
  /-- PART_POLICY_WRITE (R110): A write of PWR_PART_POLICY makes the bursar copy the policy into every field of the partition for a common boundary. -/
  | partPolicyWrite (who : Who) (p value : Nat)
  /-- THERMAL_TRIP (R116): A field at 105 °C, or held at thermal cap 0 for 1 ms, has its compute domain gated and its partition taken down. -/
  | thermalTrip (fn : Nat) (tj : Int)
  /-- PACE_FAULT (R118): When STEP_SEQ has not advanced for 3 steps, the housekeeper sets the rail to CEILING and raises PACE_FAULT. -/
  | paceFault (fn : Nat)
  /-- CHAFF_GAP (R119): A feeder with no real token to broadcast starts a gap and inserts chaff beats. -/
  | chaffGap (fn s feeder : Nat)
  /-- RAMP_DOWN_START (R122): When a gap outlasts CHAFF_WINDOW, the feeder enters the ramp-down table. -/
  | rampDownStart (fn s feeder : Nat)
  /-- RAMP_ENTRY_ADVANCE (R122): When a ramp entry's dwell expires, the feeder moves to the next entry. -/
  | rampEntryAdvance (fn s feeder : Nat)
  /-- RAMP_UP_START (R123): A real token that reaches a ramping-down feeder makes the feeder follow the ramp-up table. -/
  | rampUpStart (fn s feeder : Nat)
  /-- PLIMIT_WRITE (R126): A write of FLD_PLIMIT is checked and takes effect at the next step. -/
  | plimitWrite (who : Who) (fn value : Nat)
  /-- CHAFF_CTL_WRITE (R126): A write of FLD_CHAFF_CTLn is checked and takes effect at the next gap. -/
  | chaffCtlWrite (who : Who) (fn n value : Nat)
  /-- RETAIN_DRAIN_TIMEOUT (R100): When the drain timeout of a RETAIN expires, the partition's fields go to RETAIN and work in flight is abandoned. -/
  | retainDrainTimeout (p : Nat)
  /-- PART_START (R99): The start command takes an OFF partition's fields to FULL and loads them. -/
  | partStart (it : Item)
  /-- PART_STOP (R99): The stop command takes the partition down to OFF. -/
  | partStop (it : Item)
  /-- PART_RETAIN (R99): The retain command drains the partition's cores and takes its fields to RETAIN. -/
  | partRetain (it : Item)
  /-- PART_WAKE (R99): The wake command takes a RETAINED partition's fields back to FULL. -/
  | partWake (it : Item)
  /-- PART_RESET (R99): The reset command takes the partition down as a stop does. -/
  | partReset (it : Item)
  /-- LOAD_SLOT (R149): The load-slot command verifies a FULL image from a flash slot, commits it and starts every partition. -/
  | loadSlot (it : Item)
  /-- LOAD_BITSTREAM (R144): The load-bitstream command loads a FULL or PARTIAL image from host memory. -/
  | loadBitstream (it : Item) (img : Image)
  /-- LOAD_PARTIAL (R155): The load-partial control item reloads the partition's named fields from a PARTIAL image in two passes. -/
  | loadPartial (it : Item) (img : Image)
  /-- FIELD_FRAMES_WRITE (R149): A field that has reached FULL in a load has its FRAMES section read, verified and written, with its compute domain held in reset. -/
  | fieldFramesWrite (fn failure : Nat)
  /-- TRANSIT_FIELD_WRITE (R151): A transit-only field at BASE has its region-3 frames and route entries written, and it commits. -/
  | transitFieldWrite (fn failure : Nat)
  /-- SCRUB_FRAME (R159): At each scrub interval the housekeeper reads back one configuration frame and corrects it or reports it. -/
  | scrubFrame (fn corrected : Nat) (bad : Bool)
  /-- CFG_REPAIR_COMPLETE (R160): The re-read frame is rewritten and the owner is released, or the partition is reset when the re-read fails. -/
  | cfgRepairComplete (fn : Nat) (ok : Bool)
  /-- NOP (R191): The NOP core command retires as it issues. -/
  | nop (fn s : Nat) (w : CmdWords)
  /-- LOAD_W (R212): The LOAD_W core command places latch markers and loads new stationary weights, subscales and escapes into the rows of its mask. -/
  | loadW (fn s : Nat) (w : CmdWords)
  /-- RUN (R235): The RUN core command broadcasts activation tokens whose addresses the generators compute, accumulating into a bank. -/
  | run (fn s : Nat) (w : CmdWords)
  /-- MINT (R264): The MINT core command converts bank entries through bias, rescale, rounding, curve and saturation. -/
  | mint (fn s : Nat) (w : CmdWords)
  /-- MV (R317): The MV core command streams a matrix image past a stationary vector and mints the row sums. -/
  | mv (fn s : Nat) (w : CmdWords)
  /-- PUSH (R383): The PUSH core command sends a range as credited deposits into a window. -/
  | push (fn s : Nat) (w : CmdWords)
  /-- PACE_MARK (R105): The PACE_MARK core command injects a mark stamped with wafer time once every earlier command has retired. -/
  | paceMark (fn s : Nat) (w : CmdWords)
  /-- RAMP_UP (R123): The RAMP_UP core command starts ramp-up of the feeders. -/
  | rampUp (fn s : Nat) (w : CmdWords)
  /-- SIGNAL (R195): The SIGNAL core command signals a tally once every earlier command has retired. -/
  | signal (fn s : Nat) (w : CmdWords)
  /-- WAIT (R198): The WAIT core command holds back later commands until its tally reaches its target or its timeout expires. -/
  | wait (fn s : Nat) (w : CmdWords)
  /-- COMMAND_ISSUE (R184): The intake's head command issues into its class queue when the checks and ordering rules allow it. -/
  | commandIssue (fn s : Nat)
  /-- LATCH_WINDOW (R212): Once every row has broadcast its tokens ahead of the marker, the rows latch new weights one per beat. -/
  | latchWindow (fn s : Nat)
  /-- ESCAPE_TABLE_LOAD (R253): When the idle escape table is free, the escape unit reads the LOAD_W's side list into it. -/
  | escapeTableLoad (fn s : Nat)
  /-- COMMAND_RETIREMENT (R182): A command whose tail passes its retirement point retires, is counted and may post a record. -/
  | commandRetirement (fn s cls : Nat)
  /-- WAIT_TIMEOUT (R198): A WAIT whose timeout expires with its tally short of the target retires with WAIT_TIMEOUT. -/
  | waitTimeout (fn s : Nat)
  /-- FLUSH (R200): A write of GZC_CTL.FLUSH empties the intake and queues and discards the tokens in flight. -/
  | flush (who : Who) (fn s : Nat)
  /-- RESUME (R186): A write of GZC_CTL.RESUME discards the halting command and restarts issue. -/
  | resume (who : Who) (fn s : Nat)
  /-- RETIRE_READ (R203): A 64-bit read of GZC_RETIRE by the slot's teller removes the oldest retirement record. -/
  | retireRead (who : Who) (fn s : Nat)
  /-- GROUP_GATE (R222): A slice group quiesced for GATE_DELAY is rail-gated. -/
  | groupGate (fn s group : Nat)
  /-- GLEAN_CLEAR (R280): A write of GZC_GLEAN_CTL.CLEAR zeroes the bins, counters and SEQ after any write-back in progress. -/
  | gleanClear (who : Who) (fn s : Nat)
  /-- GLEAN_BIN_READ (R281): A read of GZC_GLEAN_BIN returns the selected bin and advances INDEX. -/
  | gleanBinRead (who : Who) (fn s : Nat)
  /-- CS_DIAG (R289): The DIAG write replays the frozen window as two tokens and writes the localisation verdict. -/
  | csDiag (who : Who) (fn s : Nat)
  /-- CS_CLEAR (R288): The CLEAR write removes the mismatch record, the verdict and DIAG_DONE. -/
  | csClear (who : Who) (fn s : Nat)
  /-- COLUMN_RETIREMENT (R292): The housekeeper acts on a verdict under FLD_CS_POLICY, retiring a column or recording the fault. -/
  | columnRetirement (fn s : Nat)
  /-- TELLER_WATCHDOG_CHECK (R465): Every 10 µs the housekeeper checks each core teller's heartbeat. -/
  | tellerWatchdogCheck (fn : Nat) (beats stuck : List Nat)
  /-- HOUSEKEEPER_HANG (R299): A housekeeper that sends no heartbeat for 500 µs is reset and restarted by the bursar. -/
  | housekeeperHang (fn : Nat)
  /-- HOUSEKEEPER_HEARTBEAT (R465): Every 100 µs the housekeeper sends a heartbeat to the bursar. -/
  | housekeeperHeartbeat (fn : Nat)
  /-- BURSAR_STROBE (R466): Every 1 ms the bursar strobes the carrier watchdog when its tasks are within their bounds. -/
  | bursarStrobe (inBounds : Bool)
  /-- ANCHOR_FAILOVER (R307): On expiry of the carrier watchdog, F55 takes over the anchor, the endpoint and the bursar. -/
  | anchorFailover (back : Bool)
  /-- WATCHDOG_MODULE_RESET (R602): Expiry of the carrier watchdog with no standby anchor causes a module reset with CAUSE 4. -/
  | watchdogModuleReset
  /-- LEASE_REVOKE (R304): When INFLIGHT reaches zero or the drain ends, the lease becomes FREE, its resource is reclaimed and LEASE_REVOKED is recorded. -/
  | leaseRevoke (i : Nat)
  /-- LEASE_HI_READ (R301): A 64-bit read of AXB_LEASE_HI returns lease bytes and increments AXB_LEASE_INDEX. -/
  | leaseHiRead (who : Who)
  /-- MIRROR_RESYNC (R463): When F55's housekeeper runs again, the bursar writes the whole mirror and sets MIRROR. -/
  | mirrorResync
  /-- CACHE_SHARE_CHANGE (R349): A write of STO_NSP_CFG.STEPS writes back and invalidates the cache, zeroes the changed region and resizes the cache. -/
  | cacheShareChange (who : Who) (fn s value : Nat)
  /-- PATROL_READ (R356): The patrol scrubber reads the next line at its rate and corrects or records errors. -/
  | patrolRead (fn : Nat)
  /-- CLEAR_CONFLICTS (R358): A write of STO_NSP_CTL.CLEAR_CONF zeroes the slot's conflict and gap counters. -/
  | clearConflicts (who : Who) (fn s : Nat)
  /-- MESSAGE_ROUTE (R366): A router receives a message head and forwards it by override or ORDER, or ejects it locally. -/
  | messageRoute (i : Nat)
  /-- LINK_REPLAY (R363): A replay request after a CRC error makes the sender resend the channel's flits from the failed one. -/
  | linkReplay (fn port : Nat)
  /-- LINK_FAILURE (R364): After repeated replay and retrain failures, both ends disable the port and the bursar reroutes. -/
  | linkFailure (fn port : Nat)
  /-- ROUTE_COMMIT (R373): The bursar computes, checks and writes a new route generation into the inactive banks. -/
  | routeCommit
  /-- ROUTE_SWITCH (R373): At the switch time T_s every router increments the generation, and new heads use the new bank. -/
  | routeSwitch
  /-- ROUTE_DRAIN_TIMEOUT (R374): Old-bit flits still held 10 ms after T_s are discarded. -/
  | routeDrainTimeout
  /-- ROUTE_DRAIN_DONE (R373): When old-bit messages have drained, old transit reservations are released and the old bank becomes writable. -/
  | routeDrainDone
  /-- DEPOSIT (R384): A DEPOSIT message reaching the owner's deposit port is tested, written and acknowledged. -/
  | deposit (m : Msg)
  /-- ACK (R384): An ACK returns units to the sender's grant and completes its message. -/
  | ack (m : Msg)
  /-- NAK (R385): A NAK returns units and ends the sender's PUSH or transfer with a refusal. -/
  | nak (m : Msg)
  /-- GRANT (R381): A GRANT message makes the holder set up a VALID grant entry. -/
  | grant (m : Msg)
  /-- CLOSE (R387): A CLOSE message sets the holder's grant to NONE. -/
  | close (m : Msg)
  /-- SCRIP (R384): A SCRIP message returns units to the holder's grant. -/
  | scrip (m : Msg)
  /-- PUSH_MESSAGE (R383): When enough scrip is available, the drain builds and injects the next deposit message of a PUSH. -/
  | pushMessage (fn s : Nat)
  /-- ACK_TIMEOUT (R386): A message with no answer within ACK_TIMEOUT makes the grant STALE and ends the PUSH. -/
  | ackTimeout (tag : Nat)
  /-- LINK_RESET (R412): A write of KVL_CTL.RESET takes the Kevenlink link down with cause 1. -/
  | linkReset (who : Who) (port : Nat)
  /-- SIGNAL_DETECTED (R396): Signal on all 4 receive lanes moves the port from DETECT to LOCK. -/
  | signalDetected (port : Nat)
  /-- LEVEL_LOCK (R396): Clock and PAM4 level lock on all lanes moves the port to ALIGN. -/
  | levelLock (port : Nat)
  /-- CODEWORD_LOCK (R395): Codeword lock, lane order, polarity and deskew found move the port to IDENT. -/
  | codewordLock (port laneMap polarity : Nat)
  /-- TRAIN_TIMEOUT (R397): An expired training bound returns the port to DETECT, with a back-off after three failures. -/
  | trainTimeout (port : Nat)
  /-- RESET_STATE_END (R396): After 10 µs in RESET, the port returns to ALIGN or DETECT. -/
  | resetStateEnd (port : Nat) (locked : Bool)
  /-- LOSS_OF_SIGNAL (R412): Loss of signal on a lane for 1 µs takes the link down. -/
  | lossOfSignal (port : Nat)
  /-- CODEWORD_LOCK_LOSS (R395): Missing alignment codewords or uncorrectable codewords lose lock and take the link down. -/
  | codewordLockLoss (port bad : Nat)
  /-- IDLE (R399): An IDLE control unit is received and carries nothing. -/
  | idle (port : Nat) (crcOk : Bool)
  /-- LACK (R402): A LACK unit releases acknowledged frames from the replay buffer. -/
  | lack (port seq : Nat)
  /-- LNAK (R402): An LNAK unit makes the sender replay every frame from NEXT. -/
  | lnak (port next : Nat)
  /-- CREDIT (R404): A CREDIT unit updates the freed credit counts of the peer. -/
  | credit (port ctrlFreed dataFreed : Nat)
  /-- IDENT (R396): An IDENT unit records the peer's identity and credits, and can move the port to ACTIVE. -/
  | ident (port flags peerIdent peerRev peerPort ctrlCredits dataCredits : Nat)
  /-- RESET_UNIT (R412): A RESET unit received while ACTIVE takes the link down with cause 2. -/
  | resetUnit (port cause : Nat)
  /-- REPLAY (R403): A REPLAY unit resynchronises the receiver to frame boundaries. -/
  | replay (port seq : Nat)
  /-- KVL_FRAME (R403): A received Kevenlink frame is checked, accepted in order and passed into the mesh, or discarded. -/
  | kvlFrame (port seq units : Nat) (crcOk : Bool) (m : Msg) (fixed bad : Nat)
  /-- LACK_TIMER (R399): An ACTIVE end sends a LACK at least every 1 µs. -/
  | lackTimer (port : Nat)
  /-- REPLAY_TIMEOUT (R402): When no LACK has advanced for 2 µs, the sender replays from the oldest unacknowledged frame. -/
  | replayTimeout (port : Nat)
  /-- LNAK_RETRY (R403): When no REPLAY has arrived 2 µs after an LNAK, the receiver sends the LNAK again. -/
  | lnakRetry (port : Nat)
  /-- BAR2_WRITE (R429): A posted write to VF BAR2 becomes a deposit when a host grant has scrip, and is refused otherwise. -/
  | bar2Write (n off : Nat) (data : List Byte)
  /-- BAR2_READ (R430): A read of VF BAR2 returns 0xFF bytes and is counted. -/
  | bar2Read (n off len : Nat)
  /-- DOORBELL (R506): A doorbell write is checked for queue, state, epoch and TAIL, and sets TAIL. -/
  | doorbell (who : Who) (off size value : Nat)
  /-- DOORBELL_FORWARD (R431): A held VF doorbell is forwarded once every earlier BAR2 write of that VF has resolved. -/
  | doorbellForward (n : Nat)
  /-- VF_FLR (R441): A function-level reset of a VF clears its state, flushes its rings and quarantines its leases. -/
  | vfFlr (n : Nat)
  /-- PF0_FLR (R442): A function-level reset of PF0 clears PF0's state and resets every VF. -/
  | pf0Flr
  /-- PERST (R442): Assertion of PERST_N resets the endpoint as a PF0 function-level reset does. -/
  | perst
  /-- HOST_LINK_DOWN (R442): A host link-down resets the endpoint as a PF0 function-level reset does. -/
  | hostLinkDown
  /-- HOST_LINK_UP (R439): The endpoint trains the link and answers configuration requests with Request Retry Status until ready. -/
  | hostLinkUp (speed width : Nat) (funcs : List (Nat × FuncCfg)) (vfEnable : Bool) (numVfs bar2Log : Nat)
  /-- REGISTER_READ_TIMEOUT (R433): A read that a field has not answered within 100 µs completes with 0xFF under reason 10. -/
  | registerReadTimeout (who : Who) (off : Nat)
  /-- MSIX_PENDING_SEND (R437): A pending MSI-X vector is sent once its mask and enable conditions clear. -/
  | msixPendingSend (func vector : Nat) (cfg : FuncCfg)
  /-- POISONED_TLP (R436): A received TLP with EP set or an ECRC failure is discarded, counted and fails its item. -/
  | poisonedTlp (ecrc : Bool) (tag : Nat)
  /-- ITEM_START (R452): A server starts the oldest eligible item of its queues once its fence and wait allow. -/
  | itemStart (queue : Nat)
  /-- ITEM_COMPLETE (R502): An item's completion record is written, its tally is signalled and its context's vector is sent. -/
  | itemComplete (num : Nat)
  /-- HALT_RESPONSE (R454): On a core halt the core teller reads GZC_LAST_ERR and flushes the slot or reports to the housekeeper. -/
  | haltResponse (fn s : Nat)
  /-- ITEM_WAIT_TIMEOUT (R501): An item whose tally wait expires completes with WAIT_TIMEOUT. -/
  | itemWaitTimeout (queue : Nat)
  /-- ITEM_NOP (R493): A NOP item completes with no other action. -/
  | itemNop (it : Item)
  /-- CORE (R495): The CORE item submits its core commands to the bound slot and completes when the last retires. -/
  | core (it : Item)
  /-- COPY_OUT (R496): The COPY_OUT item pushes a store range through a copy window into host memory. -/
  | copyOut (it : Item)
  /-- FETCH (R497): The FETCH item reads host memory and deposits it using a host grant. -/
  | fetch (it : Item)
  /-- WIN_OPEN (R381): The WIN_OPEN item opens a window of the bound slot to a holder and sends it a GRANT. -/
  | winOpen (it : Item)
  /-- WIN_CLOSE (R387): The WIN_CLOSE item closes a window and releases its leases once drained. -/
  | winClose (it : Item)
  /-- SCRIP_RETURN (R498): The SCRIP_RETURN item sends units back to the holder of a window in MODE OWNER. -/
  | scripReturn (it : Item)
  /-- LEASE_GRANULE (R344): The LEASE_GRANULE item moves a granule to another core slot of the partition after cache write-back. -/
  | leaseGranule (it : Item)
  /-- OBJECT_SET (R505): The OBJECT_SET item sets or invalidates a memory object entry. -/
  | objectSet (it : Item)
  /-- CLEAR_RETIRED (R459): The CLEAR_RETIRED command empties the retirement list in flash, effective at the next boot. -/
  | clearRetired (it : Item)
  /-- STORE_IMAGE (R460): The STORE_IMAGE command verifies an image and writes it to a flash slot. -/
  | storeImage (it : Item) (img : Image) (flashOk : Bool)
  /-- SET_BOOT (R448): The SET_BOOT command rewrites the boot record. -/
  | setBoot (it : Item) (flashOk : Bool)
  /-- STORE_FIRMWARE (R459): The STORE_FIRMWARE command verifies a firmware image and writes it to the copy not booted. -/
  | storeFirmware (it : Item) (img : FwImage) (flashOk : Bool)
  /-- REVOKE_KEY (R460): The REVOKE_KEY command blows a key slot's revoke fuse. -/
  | revokeKey (it : Item) (fuseOk : Bool)
  /-- RAISE_SVN (R460): The RAISE_SVN command raises a key slot's minimum SVN fuses. -/
  | raiseSvn (it : Item) (fuseOk : Bool)
  /-- MODULE_RESET (R601): The MODULE_RESET command makes the carrier perform a module reset. -/
  | moduleReset (it : Item)
  /-- QUEUE_FLUSH (R508): A write of QUE_Q_CFG.FLUSH discards unstarted items and increments the queue's epoch. -/
  | queueFlush (who : Who) (queue : Nat)
  /-- QUEUE_ENABLE (R491): A write that enables or disables a queue or context is refused when it breaks the context rule. -/
  | queueEnable (who : Who) (off value : Nat)
  /-- CONTEXT_RESUME (R504): A write of QUE_CTX_CFG.RESUME lets a STOPPED context's queues start items again. -/
  | contextResume (who : Who) (p c : Nat)
  /-- CQ_HEAD_WRITE (R503): A host write of CQ_HEAD frees completion-ring space, so that waiting records are written. -/
  | cqHeadWrite (who : Who) (ctx value : Nat)
  /-- EVENT_HEAD_WRITE (R511): A host write of EVT_HEAD frees event-ring space, and an EVENTS_LOST record is written first. -/
  | eventHeadWrite (who : Who) (func value : Nat)
  /-- EVENT_ROUTE_COMMIT (R512): A write of QUE_EVT_CTL.COMMIT checks and installs the staged event routing table. -/
  | eventRouteCommit (who : Who) (func : Nat)
  /-- TSIGNAL (R513): A tally signal message is compared with the tally value by wrap-aware arithmetic and answered with TACK. -/
  | tsignal (m : Msg)
  /-- TACK (R411): A TACK message is matched by tag to the local sender of a signal. -/
  | tack (m : Msg)
  /-- TWAIT (R515): A TWAIT message registers or cancels a wait at the tally unit. -/
  | twait (m : Msg)
  /-- TWAKE (R515): A TWAKE reaching a waiter counts the wait satisfied when T_W is no later than its expiry. -/
  | twake (m : Msg)
  /-- TALLY_VALUE_WRITE (R514): A host write of TLY_VALUE signals that value to the tally. -/
  | tallyValueWrite (who : Who) (i value : Nat)
  /-- TALLY_STAT_WRITE (R519): A write of TLY_STAT sets forwarding, and is refused for a port the partition does not own. -/
  | tallyStatWrite (who : Who) (i value : Nat)
  /-- SNP_FRAME (R550): A sensor port's edge 0 starts a frame: the frame is checked, stamped and samples move. -/
  | snpFrame (port edges : Nat) (dataIn : List Nat) (ns : Nat)
  /-- SNP_RECORD_CLOSE (R557): An input record closes after its last sampled bit and is injected as deposits. -/
  | snpRecordClose (port r : Nat)
  /-- SNP_START (R562): The START bit of SNP_CTL is checked and moves the port to PREROLL. -/
  | snpStart (who : Who) (port : Nat)
  /-- SNP_STOP (R564): The STOP bit of SNP_CTL mutes the outputs at the zero crossing and stops the port. -/
  | snpStop (who : Who) (port : Nat)
  /-- SNP_FLUSH (R566): The FLUSH bit of SNP_CTL flushes the input routes and discards the queued output records. -/
  | snpFlush (who : Who) (port : Nat)
  /-- SNP_CLOCK_LOSS (R565): A missing BCLK or FSYNC, a RATE error or repeated frame errors move the port to LOST. -/
  | snpClockLoss (port cause : Nat)
  /-- SNP_ZC_TIMEOUT (R561): A pending output setting with no crossing within ZC_TIMEOUT applies from the next frame. -/
  | snpZcTimeout (port slot : Nat)
  /-- SNP_OGAIN_WRITE (R561): A write of SNP_OGAINs stages a gain or mute setting for the slot's zero crossing. -/
  | snpOgainWrite (who : Who) (port slot value : Nat)
  /-- SNP_CFG_WRITE (R562): A write of SNP_CFG takes effect in STOPPED, and is ignored with ERR 0x10 otherwise. -/
  | snpCfgWrite (who : Who) (port value : Nat)
  /-- SNP_OROUTE_WRITE (R561): A write of SNP_OROUTEr in RUNNING changes only MASK, as zero-crossing changes. -/
  | snpOrouteWrite (who : Who) (port r value : Nat)
  /-- ISL_USER_ACCESS (R580): An access to an island user register becomes a REG_REQ to the island. -/
  | islUserAccess (who : Who) (fn s i : Nat) (isWrite : Bool) (value : Nat)
  /-- ISL_REG_TIMEOUT (R581): A user-register request not answered within 1,024 island cycles completes with reason 10. -/
  | islRegTimeout (fn s : Nat) (isWrite : Bool)
  /-- ISLAND_ATTN (R582): An ATTN pulse is counted and raises the ISLAND_ATTN notice. -/
  | islandAttn (fn s : Nat)
  /-- PF_IN_WORD (R585): A row-token word from the island at the pre-feeder tap is taken by count into its feeder. -/
  | pfInWord (fn s : Nat) (word : List Nat)
  /-- SS_REQ (R589): A store-side tap request reads, writes or signals for the island's core and is answered. -/
  | ssReq (fn s : Nat) (word : List Nat)
  /-- UTX_RX_WORD (R593): A received user-transceiver word enters the lane's FIFO, or is discarded as overflow. -/
  | utxRxWord (lane word : Nat)
  /-- ISLAND_RESET (R594): The RESET bit of ISL_CTLs holds the island in reset and empties its adapters. -/
  | islandReset (who : Who) (fn s : Nat) (on : Bool)
  /-- TAP_FLUSH (R596): The FLUSH bit of ISL_CTLs flushes the pre-feeder and post-mint queues and pulses TAP_FLUSH. -/
  | tapFlush (who : Who) (fn s : Nat)
  /-- RST_N (R601): RST_N held low for 1 µs starts a module reset carried out by the carrier. -/
  | rstN
  /-- TAP_RESET (R599): TRST_N low, or five TCK edges with TMS high, resets the JTAG TAP. -/
  | tapReset
  /-- EXTEST (R611): The EXTEST instruction drives pins in test mode and acts as BYPASS otherwise. -/
  | extest (dr : Nat)
  /-- IDCODE (R611): The IDCODE instruction selects the IDCODE register. -/
  | idcode
  /-- SAMPLE_PRELOAD (R611): The SAMPLE/PRELOAD instruction samples the pins while they keep their function. -/
  | samplePreload (dr pins : Nat)
  /-- HIGHZ (R611): The HIGHZ instruction acts in test mode and as BYPASS otherwise. -/
  | highz
  /-- CLAMP (R611): The CLAMP instruction acts in test mode and as BYPASS otherwise. -/
  | clamp
  /-- EXTEST_PULSE (R611): The IEEE 1149.6 EXTEST_PULSE instruction acts in test mode and as BYPASS otherwise. -/
  | extestPulse (dr : Nat)
  /-- EXTEST_TRAIN (R611): The IEEE 1149.6 EXTEST_TRAIN instruction acts in test mode and as BYPASS otherwise. -/
  | extestTrain (dr : Nat)
  /-- BYPASS (R611): The BYPASS instruction selects the bypass register. -/
  | bypass
  /-- SMB_IDENT (R608): The SMBus IDENT command returns AXB_IDENT and AXB_REVISION. -/
  | smbIdent
  /-- SMB_ENTRY (R608): The SMBus ENTRY command returns PWR_ENTRY_SENSE. -/
  | smbEntry
  /-- SMB_STATUS (R608): The SMBus STATUS command returns the module status bytes. -/
  | smbStatus
  /-- SMB_TEMP (R608): The SMBus TEMP command returns the hottest junction of the FULL fields. -/
  | smbTemp
  /-- REG_OFFSET (R608): The SMBus REG_OFFSET command sets the offset for register reads. -/
  | regOffset (off : Nat)
  /-- REG_READ (R608): The SMBus REG_READ command returns a 32-bit register without side effect and advances the offset. -/
  | regRead
  /-- ALERT_ACK (R608): The SMBus ALERT_ACK command releases SMB_ALERT_N. -/
  | alertAck
  /-- ALERT_RESPONSE (R609): An Alert Response Address read returns this module's address and releases SMB_ALERT_N. -/
  | alertResponse
  /-- PMBUS_POLL (R610): Every 10 ms the bursar polls each enabled regulator's status over PMBus. -/
  | pmbusPoll (fn : Nat) (answered fault : Bool)
  /-- GPIO_WRITE (R615): A write of AXB_GPIO changes the user GPIO pins within 10 µs. -/
  | gpioWrite (who : Who) (value : Nat)
  /-- RST_N_RELEASE (R601): RST_N going high lets a waiting module reset latch the straps and resume power-up at R93 step 4. -/
  | rstNRelease
  /-- COMPLETION_TLP (R436): A completion for one of the endpoint's DMA read requests arrives from the host and delivers ring or FETCH data, or fails the item on UR or CA. -/
  | completionTlp (tag status : Nat) (poisoned : Bool) (data : List Byte)
  /-- SNP_IROUTE_WRITE (R561): A write of SNP_IROUTEr is staged and takes effect at the route's next record boundary; a route enabled while RUNNING starts at record 0 with RESTART. -/
  | snpIrouteWrite (who : Who) (port r value : Nat)
  /-- ISL_REG_RSP (R580): The island returns a REG_RSP word that completes the oldest outstanding user-register read, or is discarded after that read's timeout. -/
  | islRegRsp (fn s : Nat) (word : List Nat)
  /-- UTX_TX_WORD (R593): The island offers a 128-bit word on UTX_TXk, and the lane adapter takes it into its Gray FIFO for transmission. -/
  | utxTxWord (lane word : Nat)
  /-- IDENT_TIMER (R396): In IDENT state the port sends an IDENT unit every 1 µs. -/
  | identTimer (port : Nat)
  /-- TRAIN_BACKOFF_END (R397): The 10 ms wait in DETECT after three training failures ends, and the port may leave DETECT again. -/
  | trainBackoffEnd (port : Nat)
  /-- WINDOW_LEASE_RELEASE (R387): At the drain bound after a window close, the bursar releases the window's two leases as FREE with GEN unchanged and writes no record. -/
  | windowLeaseRelease (ownerKey w : Nat)
  /-- KVL_ENABLE_WRITE (R396): A write of KVL_CTL.ENABLE to 1, where R390 allows the link, moves the port from DISABLED to DETECT. -/
  | kvlEnableWrite (who : Who) (port : Nat)
deriving DecidableEq, Repr

end Sys2Proof
end

