-- ==== Sys2Proof/Config.lean ====
section
/-! DEFINITION. What the design fixes, as named constants with the rule of spec/ that fixes each, and the free values:
constants without a body for every value that the spec leaves open, so that no proof can see one (log 1). -/

namespace Sys2Proof.Config

/-- A fresh value that the spec leaves open; the machine applies it to a counter of its state and advances the counter
(log 1). Nothing constrains it. -/
opaque freeValue : Nat → BitVec 64

/-- AXB_IDENT (R539). -/
def ident : Nat := 0x5A708401

/-- Partitions of the module (R471). -/
def partitions : Nat := 16

/-- Entries of the lease table (R301). -/
def leaseEntries : Nat := 4096

/-- Rail code of 0.85 V, the highest (R89). -/
def maxCode : Nat := 50

/-- Period of the pace loop in ns (R104). -/
def paceStepNs : Nat := 20000

/-- Most switch-ons, and most switch-offs, of one step (R94, R484). -/
def stepFields : Nat := 6

/-- Whether FN names a present site (R5): x and y both in the same corner pair are absent. -/
def sitePresent (fn : Nat) : Bool :=
  let x := fn % 10
  let y := fn / 10
  decide (fn < 100) && !((x < 2 || 8 ≤ x) && (y < 2 || 8 ≤ y))

/-- The curve that the fuses hold for a field unless they hold another: the points of ch. 21's example, which R43 admits
(log 4). A point is a rail code with its guaranteed rate in Mbeat/s. -/
def shippedCurve : List (Nat × Nat) :=
  [(0, 550), (4, 597), (7, 631), (10, 666), (14, 719), (17, 759), (20, 800), (24, 852), (27, 892), (30, 932), (34, 986),
    (37, 1025), (40, 1066), (44, 1112), (47, 1146), (50, 1181)]

/-- The 84 present fields, ascending (R5). -/
def sites : List Nat := (List.range 100).filter sitePresent

/-- The field of Kevenlink port `p` (R20). -/
def kvlField (p : Nat) : Nat := [4, 5, 94, 95, 40, 50, 49, 59].getD p 0xFF

/-- The Kevenlink port of field `fn`, or 8 where it has none (R20). -/
def kvlPort (fn : Nat) : Nat := (List.range 8).find? (fun p => kvlField p = fn) |>.getD 8

/-- The field of sensor port `p` (R20). -/
def snpField (p : Nat) : Nat := [22, 22, 27, 27, 72, 72, 77, 77].getD p 0xFF

/-- Whether a field holds sensor ports (R20). -/
def hasSnp (fn : Nat) : Bool := [22, 27, 72, 77].contains fn

/-- The field of user-transceiver group `g` (R20). -/
def utxField (g : Nat) : Nat := [3, 6, 93, 96, 30, 60, 39, 69].getD g 0xFF

/-- The user-transceiver group of a field, or 8 where it has none (R20). -/
def utxGroup (fn : Nat) : Nat := (List.range 8).find? (fun g => utxField g = fn) |>.getD 8

/-- The site that mesh port `p` (0 north, 1 east, 2 south, 3 west) of `fn` faces, if present (R18). -/
def neighbour (fn p : Nat) : Option Nat :=
  let x := fn % 10
  let y := fn / 10
  let n := match p with
    | 0 => if 0 < y then some (fn - 10) else none
    | 1 => if x < 9 then some (fn + 1) else none
    | 2 => if y < 9 then some (fn + 10) else none
    | _ => if 0 < x then some (fn - 1) else none
  n.bind (fun m => if sitePresent m then some m else none)

end Sys2Proof.Config
end

