-- ==== Sys2Proof/Machine/Table.lean ====
section
/-! DEFINITION. Tables of plain data: a list of (key, value) pairs with strictly rising keys in which no entry equals
what an unlisted key reads as, so that equal tables are equal lists. Registers, memory and every indexed piece of state
are held so. Also the bit fields, sign and byte-order helpers that the register and record layouts use (R2). -/

namespace Sys2Proof.Machine

/-- Read key `k`; `d` is what an unlisted key reads as. -/
def tget {α : Type} (d : α) : List (Nat × α) → Nat → α
  | [], _ => d
  | (k', v) :: t, k => if k = k' then v else tget d t k

/-- Write `v` at key `k`, keeping the canonical form: an entry equal to `d` is not listed. -/
def tput {α : Type} [DecidableEq α] (d : α) : List (Nat × α) → Nat → α → List (Nat × α)
  | [], k, v => if v = d then [] else [(k, v)]
  | (k', w) :: t, k, v =>
    if k < k' then (if v = d then (k', w) :: t else (k, v) :: (k', w) :: t)
    else if k = k' then (if v = d then t else (k, v) :: t)
    else (k', w) :: tput d t k v

/-- Keys strictly rising from `lo` on, and no entry equal to its unlisted value `d k`. -/
def tableFrom {α : Type} [DecidableEq α] (d : Nat → α) : Nat → List (Nat × α) → Bool
  | _, [] => true
  | lo, (k, v) :: t => decide (lo ≤ k) && decide (v ≠ d k) && tableFrom d (k + 1) t

/-- The canonical form of a table whose unlisted key `k` reads `d k`. -/
def tableWf {α : Type} [DecidableEq α] (d : Nat → α) (t : List (Nat × α)) : Bool := tableFrom d 0 t

/-- Drop every entry with a key in `[lo, hi)`: those keys read as unlisted again. -/
def tclear {α : Type} (lo hi : Nat) (t : List (Nat × α)) : List (Nat × α) :=
  t.filter (fun e => decide (e.1 < lo ∨ hi ≤ e.1))

/-- Bits `[hi:lo]` of a word, as a number (R2). -/
def bitsOf (v : Word) (hi lo : Nat) : Nat := (v >>> lo).toNat % 2 ^ (hi + 1 - lo)

/-- The mask of bits `[hi:lo]`. -/
def maskOf (hi lo : Nat) : Word := (BitVec.ofNat 64 (2 ^ (hi + 1 - lo) - 1)) <<< lo

/-- `v` with bits `[hi:lo]` replaced by `n`. -/
def withBits (v : Word) (hi lo n : Nat) : Word :=
  (v &&& ~~~ (maskOf hi lo)) ||| ((BitVec.ofNat 64 n <<< lo) &&& maskOf hi lo)

/-- Bits of a plain number. -/
def nbits (v hi lo : Nat) : Nat := (v >>> lo) % 2 ^ (hi + 1 - lo)

/-- Bit `i` of a plain number. -/
def nbit (v i : Nat) : Bool := v.testBit i

/-- One byte of a little-endian number (R2). -/
def byteOf (v i : Nat) : Byte := BitVec.ofNat 8 (v >>> (8 * i))

/-- The `n` bytes of `v`, lowest first (R2). -/
def leBytes : Nat → Nat → List Byte
  | 0, _ => []
  | n + 1, v => BitVec.ofNat 8 v :: leBytes n (v / 256)

/-- The number that bytes spell, lowest first (R2). -/
def leNat : List Byte → Nat
  | [] => 0
  | b :: t => b.toNat + 256 * leNat t

/-- Bytes `[off, off + n)` of a list; bytes beyond its end read 0. -/
def bytesAt (bs : List Byte) (off n : Nat) : List Byte :=
  let cut := (bs.drop off).take n
  cut ++ List.replicate (n - cut.length) 0

/-- The little-endian number of `n` bytes at offset `off`. -/
def leAt (bs : List Byte) (off n : Nat) : Nat := leNat (bytesAt bs off n)

/-- Two's-complement reading of the low `w` bits of `v`. -/
def sext (w v : Nat) : Int :=
  let m := v % 2 ^ w
  if 2 * m < 2 ^ w then (m : Int) else (m : Int) - (2 ^ w : Nat)

/-- The `w`-bit two's-complement code of an integer. -/
def twos (w : Nat) (z : Int) : Nat := (z % ((2 ^ w : Nat) : Int)).toNat

/-- `n` saturated to `w` bits. -/
def satN (w n : Nat) : Nat := if n < 2 ^ w then n else 2 ^ w - 1

/-- Number of set bits among bits `0 .. w-1`. -/
def popN : Nat → Nat → Nat
  | 0, _ => 0
  | w + 1, v => (if v.testBit w then 1 else 0) + popN w v

end Sys2Proof.Machine
end

