-- ==== Sys2Proof/Machine/Registers.lean ====
section
/-! DEFINITION. The register map of the module: for every register of spec/ its offset, its width, the bits of each
access code (R10) and its value after a reset of its block (R13). One flat space of offsets is used: PF0 BAR0 (R6,
R424, R425) below 0x0400_0000, and above it, at 0x0400_0000 + n * 0x0010_0000, the registers that only VF n's BAR0
shows (R426). A register whose reset value is loaded from the bitstream reads 0 (or the default its rule names)
until a load writes it (log 5). -/

namespace Sys2Proof.Machine.Reg

/-- Base of the field window of field `fn` (R6). -/
def win (fn : Nat) : Nat := 0x1000000 + fn * 0x40000

/-- Base of the space of VF `n`'s own registers (R426); the placing above 0x0400_0000 is the model's. -/
def vfw (n : Nat) : Nat := 0x4000000 + n * 0x100000

def AXB_IDENT : Nat := 0
def AXB_REVISION : Nat := 0x4
def AXB_FIELD_OK_LO : Nat := 0x40
def AXB_FIELD_OK_HI : Nat := 0x48
def AXB_FIELD_RETIRED_LO : Nat := 0x50
def AXB_FIELD_RETIRED_HI : Nat := 0x58
def AXB_GRADE : Nat := 0x60
def AXB_CFG_STATUS : Nat := 0x100
def AXB_CFG_ERR : Nat := 0x104
def AXB_CFG_BUILD : Nat := 0x108
def AXB_CFG_BOOT : Nat := 0x110
def AXB_KEY_STATE : Nat := 0x114
def AXB_KEY_SVN : Nat := 0x118
def AXB_CFG_CORE_DETAIL : Nat := 0x11C
def AXB_ROUTE_DETAIL : Nat := 0x120
def AXB_PART_DETAIL : Nat := 0x124
def AXB_LEDGER_STATUS : Nat := 0x128
def AXB_CFG_ISL_DETAIL : Nat := 0x12C
def AXB_CFG_PART_BUILD (i : Nat) : Nat := 0x180 + 8 * i
def AXB_RECOV_CTL : Nat := 0x800
def AXB_FAULT_SEQ : Nat := 0x808
def AXB_LEASE_INDEX : Nat := 0x810
def AXB_LEASE_LO : Nat := 0x818
def AXB_LEASE_HI : Nat := 0x820
def AXB_BURSAR_STATUS : Nat := 0x900
def AXB_BOOT_STATUS : Nat := 0x908
def AXB_WDOG_STATUS : Nat := 0x910
def AXB_PART_DOWN_TIME (i : Nat) : Nat := 0xA00 + 16 * i
def AXB_PART_DOWN_CAUSE (i : Nat) : Nat := 0xA08 + 16 * i
def AXB_RESET_STATUS : Nat := 0xB00
def AXB_STRAPS : Nat := 0xB04
def AXB_STAT_CTL : Nat := 0xB08
def AXB_GPIO : Nat := 0xB10
def AXB_FAULT_LOG (i : Nat) : Nat := 0x6000 + 8 * i
def PWR_ENTRY_SENSE : Nat := 0x2000
def PWR_ENTRY_STATUS : Nat := 0x2000 + 0x8
def PWR_SEQ_STATUS : Nat := 0x2000 + 0x10
def PWR_PART_STATE (i : Nat) : Nat := 0x2000 + 0x40 + 4 * i
def PWR_PART_POLICY (i : Nat) : Nat := 0x2000 + 0x100 + 16 * i
def PWR_PART_SLACK (i : Nat) : Nat := 0x2000 + 0x108 + 16 * i
def HST_LINK : Nat := 0x3000
def HST_READY : Nat := 0x3000 + 0x8
def HST_ACC_ERR : Nat := 0x3000 + 0x10
def HST_ACC_COUNT : Nat := 0x3000 + 0x18
def HST_ACC_TIME : Nat := 0x3000 + 0x20
def HST_DMA_RD : Nat := 0x3000 + 0x28
def HST_DMA_WR : Nat := 0x3000 + 0x30
def HST_POISON : Nat := 0x3000 + 0x38
def PF0_MSIX_ADDR (i : Nat) : Nat := 0x4000 + 16 * i
def PF0_MSIX_DATA (i : Nat) : Nat := 0x4008 + 16 * i
def PF0_MSIX_PBA : Nat := 0x5000
def HST_VF_STATE (n : Nat) : Nat := vfw n + 0x2000
def HST_VF_ERR (n : Nat) : Nat := vfw n + 0x2000 + 0x10
def HST_VF_ERR_COUNT (n : Nat) : Nat := vfw n + 0x2000 + 0x18
def HST_VF_BAR2 (n : Nat) : Nat := vfw n + 0x2000 + 0x20
def HST_VF_APER (n i : Nat) : Nat := vfw n + 0x2000 + 0x40 + 4 * i
def HST_VF_GRANT (n i : Nat) : Nat := vfw n + 0x2000 + 0x800 + 8 * i
def VF_MSIX_ADDR (n i : Nat) : Nat := vfw n + 0x3000 + 16 * i
def VF_MSIX_DATA (n i : Nat) : Nat := vfw n + 0x3000 + 0x8 + 16 * i
def VF_MSIX_PBA (n : Nat) : Nat := vfw n + 0x3000 + 0x800
def LEDGER_VIEW (n : Nat) : Nat := vfw n + 0xC000
def LEDGER_VIEW_SIZE (n : Nat) : Nat := vfw n + 0xC000 + 0x8
def TLY_VALUE (i : Nat) : Nat := 0x10000 + 16 * i
def TLY_STAT (i : Nat) : Nat := 0x10000 + 0x8 + 16 * i
def QUE_Q_BASE (p i : Nat) : Nat := 0x100000 + 0x10000 * (p + 1) + 32 * i
def QUE_Q_CFG (p i : Nat) : Nat := 0x100000 + 0x10000 * (p + 1) + 0x8 + 32 * i
def QUE_Q_STATUS (p i : Nat) : Nat := 0x100000 + 0x10000 * (p + 1) + 0xC + 32 * i
def QUE_Q_HEAD (p i : Nat) : Nat := 0x100000 + 0x10000 * (p + 1) + 0x10 + 32 * i
def QUE_Q_TAIL (p i : Nat) : Nat := 0x100000 + 0x10000 * (p + 1) + 0x18 + 32 * i
def QUE_Q_BIND (p i : Nat) : Nat := 0x100000 + 0x10000 * (p + 1) + 0x1C + 32 * i
def QUE_CTX_CQ_BASE (p i : Nat) : Nat := 0x100000 + 0x10000 * (p + 1) + 0x2000 + 64 * i
def QUE_CTX_CFG (p i : Nat) : Nat := 0x100000 + 0x10000 * (p + 1) + 0x2008 + 64 * i
def QUE_CTX_STATE (p i : Nat) : Nat := 0x100000 + 0x10000 * (p + 1) + 0x200C + 64 * i
def QUE_CTX_CQ_TAIL (p i : Nat) : Nat := 0x100000 + 0x10000 * (p + 1) + 0x2010 + 64 * i
def QUE_CTX_CQ_HEAD (p i : Nat) : Nat := 0x100000 + 0x10000 * (p + 1) + 0x2014 + 64 * i
def QUE_CTX_ERR (p i : Nat) : Nat := 0x100000 + 0x10000 * (p + 1) + 0x2018 + 64 * i
def QUE_CTX_DONE (p i : Nat) : Nat := 0x100000 + 0x10000 * (p + 1) + 0x2020 + 64 * i
def QUE_EVT_BASE (p : Nat) : Nat := 0x100000 + 0x10000 * (p + 1) + 0x3000
def QUE_EVT_CTL (p : Nat) : Nat := 0x100000 + 0x10000 * (p + 1) + 0x3008
def QUE_EVT_TAIL (p : Nat) : Nat := 0x100000 + 0x10000 * (p + 1) + 0x3010
def QUE_EVT_HEAD (p : Nat) : Nat := 0x100000 + 0x10000 * (p + 1) + 0x3014
def QUE_EVT_LOST (p : Nat) : Nat := 0x100000 + 0x10000 * (p + 1) + 0x3018
def QUE_PART_LOST (p : Nat) : Nat := 0x100000 + 0x10000 * (p + 1) + 0x3020
def QUE_EVT_ROUTE (p i : Nat) : Nat := 0x100000 + 0x10000 * (p + 1) + 0x3100 + 8 * i
def QUE_OBJ (p i : Nat) : Nat := 0x100000 + 0x10000 * (p + 1) + 0x3800 + 8 * i
def QUE_M_BASE (i : Nat) : Nat := 0x100000 + 64 * i
def QUE_M_CFG (i : Nat) : Nat := 0x100000 + 0x8 + 64 * i
def QUE_M_STATUS (i : Nat) : Nat := 0x100000 + 0xC + 64 * i
def QUE_M_HEAD (i : Nat) : Nat := 0x100000 + 0x10 + 64 * i
def QUE_M_TAIL (i : Nat) : Nat := 0x100000 + 0x18 + 64 * i
def QUE_M_CQ_BASE (i : Nat) : Nat := 0x100000 + 0x20 + 64 * i
def QUE_M_CQ_CFG (i : Nat) : Nat := 0x100000 + 0x28 + 64 * i
def QUE_M_CQ_TAIL (i : Nat) : Nat := 0x100000 + 0x2C + 64 * i
def QUE_M_CQ_HEAD (i : Nat) : Nat := 0x100000 + 0x30 + 64 * i
def PF0_QUE_EVT_BASE : Nat := 0x100000 + 0x1000
def PF0_QUE_EVT_CTL : Nat := 0x100000 + 0x1008
def PF0_QUE_EVT_TAIL : Nat := 0x100000 + 0x1010
def PF0_QUE_EVT_HEAD : Nat := 0x100000 + 0x1014
def PF0_QUE_EVT_LOST : Nat := 0x100000 + 0x1018
def PF0_QUE_PART_LOST : Nat := 0x100000 + 0x1020
def PF0_QUE_EVT_ROUTE (i : Nat) : Nat := 0x100000 + 0x1100 + 8 * i
def FLD_BEATMON_CTL (fn : Nat) : Nat := win fn + 0x180
def FLD_BEATMON_COUNT (fn : Nat) : Nat := win fn + 0x188
def FLD_BEATMON_RATE (fn : Nat) : Nat := win fn + 0x190
def FLD_BEATMON_STAMP (fn : Nat) : Nat := win fn + 0x198
def FLD_PWR_STATE (fn : Nat) : Nat := win fn + 0x200
def FLD_RAIL_SENSE (fn : Nat) : Nat := win fn + 0x208
def FLD_PACE_POLICY (fn : Nat) : Nat := win fn + 0x210
def FLD_PACE_SLACK (fn : Nat) : Nat := win fn + 0x218
def FLD_PACE_STATUS (fn : Nat) : Nat := win fn + 0x220
def FLD_PACE_LAST (fn : Nat) : Nat := win fn + 0x228
def FLD_PACE_EVENT (fn : Nat) : Nat := win fn + 0x230
def FLD_PACE_LIMIT_TIME (fn : Nat) : Nat := win fn + 0x238
def FLD_PACE_OVR_TIME (fn : Nat) : Nat := win fn + 0x240
def FLD_PACE_COUNTS (fn : Nat) : Nat := win fn + 0x248
def FLD_PLIMIT (fn : Nat) : Nat := win fn + 0x250
def FLD_CHAFF_CTL (fn i : Nat) : Nat := win fn + 0x260 + 8 * i
def FLD_CHAFF_COUNT (fn i : Nat) : Nat := win fn + 0x280 + 8 * i
def FLD_RAMP_DOWN (fn i : Nat) : Nat := win fn + 0x300 + 4 * i
def FLD_RAMP_UP (fn i : Nat) : Nat := win fn + 0x380 + 4 * i
def FLD_RAMP_CTL (fn : Nat) : Nat := win fn + 0x340
def FLD_CFG_STATUS (fn : Nat) : Nat := win fn + 0x400
def FLD_SCRUB_CTL (fn : Nat) : Nat := win fn + 0x408
def FLD_SCRUB_STATUS (fn : Nat) : Nat := win fn + 0x410
def FLD_SCRUB_TIME (fn : Nat) : Nat := win fn + 0x418
def FLD_SLICE_MAP (fn i : Nat) : Nat := win fn + 0x500 + 8 * i
def FLD_CS_POLICY (fn : Nat) : Nat := win fn + 0x600
def FLD_TELLER_STATUS (fn i : Nat) : Nat := win fn + 0x700 + 8 * i
def FLD_HK_STATUS (fn : Nat) : Nat := win fn + 0x720
def FLD_WDOG_CTL (fn : Nat) : Nat := win fn + 0x728
def TBS_NOW (fn : Nat) : Nat := win fn + 0x1000
def TBS_STATUS (fn : Nat) : Nat := win fn + 0x1000 + 0x8
def TBS_OFFSET (fn : Nat) : Nat := win fn + 0x1000 + 0x10
def TBS_EVENT (fn : Nat) : Nat := win fn + 0x1000 + 0x18
def TBS_LOSS_TIME (fn : Nat) : Nat := win fn + 0x1000 + 0x20
def TBS_MODULE (fn : Nat) : Nat := win fn + 0x1000 + 0x28
def TBS_CAPT_CTL (fn : Nat) : Nat := win fn + 0x1000 + 0x30
def TBS_CAPT (fn i : Nat) : Nat := win fn + 0x1000 + 0x40 + 8 * i
def GZC_SHAPE (fn s : Nat) : Nat := win fn + 0x20000 + 0x1000 * s
def GZC_SHAPE2 (fn s : Nat) : Nat := win fn + 0x20000 + 0x1000 * s + 0x8
def GZC_STATUS (fn s : Nat) : Nat := win fn + 0x20000 + 0x1000 * s + 0x10
def GZC_CTL (fn s : Nat) : Nat := win fn + 0x20000 + 0x1000 * s + 0x18
def GZC_LAST_ERR (fn s : Nat) : Nat := win fn + 0x20000 + 0x1000 * s + 0x20
def GZC_ERR_TIME (fn s : Nat) : Nat := win fn + 0x20000 + 0x1000 * s + 0x28
def GZC_ISSUED (fn s : Nat) : Nat := win fn + 0x20000 + 0x1000 * s + 0x30
def GZC_RETIRED (fn s : Nat) : Nat := win fn + 0x20000 + 0x1000 * s + 0x38
def GZC_ARRAY_BEATS (fn s : Nat) : Nat := win fn + 0x20000 + 0x1000 * s + 0x40
def GZC_MINT_VECTORS (fn s : Nat) : Nat := win fn + 0x20000 + 0x1000 * s + 0x48
def GZC_FLUSHES (fn s : Nat) : Nat := win fn + 0x20000 + 0x1000 * s + 0x50
def GZC_CMD_W (fn s i : Nat) : Nat := win fn + 0x20000 + 0x1000 * s + 0x80 + 8 * i
def GZC_RETIRE (fn s : Nat) : Nat := win fn + 0x20000 + 0x1000 * s + 0xA0
def GZC_ARRAY_CTL (fn s : Nat) : Nat := win fn + 0x20000 + 0x1000 * s + 0x100
def GZC_ROW_DRY (fn s : Nat) : Nat := win fn + 0x20000 + 0x1000 * s + 0x108
def GZC_COL_HELD (fn s : Nat) : Nat := win fn + 0x20000 + 0x1000 * s + 0x110
def GZC_COL_SEEN (fn s : Nat) : Nat := win fn + 0x20000 + 0x1000 * s + 0x118
def GZC_STALL_LATCH (fn s : Nat) : Nat := win fn + 0x20000 + 0x1000 * s + 0x120
def GZC_STALL_BANK (fn s : Nat) : Nat := win fn + 0x20000 + 0x1000 * s + 0x128
def GZC_STALL_GATE (fn s : Nat) : Nat := win fn + 0x20000 + 0x1000 * s + 0x130
def GZC_STALL_DRY (fn s : Nat) : Nat := win fn + 0x20000 + 0x1000 * s + 0x138
def GZC_STALL_COL (fn s : Nat) : Nat := win fn + 0x20000 + 0x1000 * s + 0x140
def GZC_GATED (fn s : Nat) : Nat := win fn + 0x20000 + 0x1000 * s + 0x148
def GZC_AG_LINES (fn s : Nat) : Nat := win fn + 0x20000 + 0x1000 * s + 0x180
def GZC_AG_ZERO (fn s : Nat) : Nat := win fn + 0x20000 + 0x1000 * s + 0x188
def GZC_AG_BLOCKS (fn s : Nat) : Nat := win fn + 0x20000 + 0x1000 * s + 0x190
def GZC_AG_DESC (fn s : Nat) : Nat := win fn + 0x20000 + 0x1000 * s + 0x198
def GZC_WSTATE (fn s : Nat) : Nat := win fn + 0x20000 + 0x1000 * s + 0x1C0
def GZC_BANK_EXP (fn s : Nat) : Nat := win fn + 0x20000 + 0x1000 * s + 0x1C8
def GZC_ESC_LOADED (fn s : Nat) : Nat := win fn + 0x20000 + 0x1000 * s + 0x1D0
def GZC_ESC_APPLIED (fn s : Nat) : Nat := win fn + 0x20000 + 0x1000 * s + 0x1D8
def GZC_ESC_EXTRA (fn s : Nat) : Nat := win fn + 0x20000 + 0x1000 * s + 0x1E0
def GZC_THRESH (fn s : Nat) : Nat := win fn + 0x20000 + 0x1000 * s + 0x200
def GZC_GLEAN_CTL (fn s : Nat) : Nat := win fn + 0x20000 + 0x1000 * s + 0x208
def GZC_GLEAN_SEQ (fn s : Nat) : Nat := win fn + 0x20000 + 0x1000 * s + 0x210
def GZC_GLEAN_INDEX (fn s : Nat) : Nat := win fn + 0x20000 + 0x1000 * s + 0x218
def GZC_GLEAN_BIN (fn s : Nat) : Nat := win fn + 0x20000 + 0x1000 * s + 0x220
def GZC_GLEAN_VALUES (fn s : Nat) : Nat := win fn + 0x20000 + 0x1000 * s + 0x228
def GZC_GLEAN_CLIP_HI (fn s : Nat) : Nat := win fn + 0x20000 + 0x1000 * s + 0x230
def GZC_GLEAN_CLIP_LO (fn s : Nat) : Nat := win fn + 0x20000 + 0x1000 * s + 0x238
def GZC_GLEAN_CDOM (fn s : Nat) : Nat := win fn + 0x20000 + 0x1000 * s + 0x240
def GZC_MINT_PARAM (fn s : Nat) : Nat := win fn + 0x20000 + 0x1000 * s + 0x248
def GZC_CS_CTL (fn s : Nat) : Nat := win fn + 0x20000 + 0x1000 * s + 0x280
def GZC_CS_STATUS (fn s : Nat) : Nat := win fn + 0x20000 + 0x1000 * s + 0x288
def GZC_CS_FIRST (fn s : Nat) : Nat := win fn + 0x20000 + 0x1000 * s + 0x290
def GZC_CS_RESID (fn s : Nat) : Nat := win fn + 0x20000 + 0x1000 * s + 0x298
def GZC_CS_DIAG (fn s : Nat) : Nat := win fn + 0x20000 + 0x1000 * s + 0x2A0
def GZC_CS_WINDOWS (fn s : Nat) : Nat := win fn + 0x20000 + 0x1000 * s + 0x2A8
def GZC_CS_FAILS (fn s : Nat) : Nat := win fn + 0x20000 + 0x1000 * s + 0x2B0
def GZC_CS_ENTRY_FAILS (fn s : Nat) : Nat := win fn + 0x20000 + 0x1000 * s + 0x2B8
def GZC_MV_BEATS (fn s : Nat) : Nat := win fn + 0x20000 + 0x1000 * s + 0x300
def GZC_MV_LINES (fn s : Nat) : Nat := win fn + 0x20000 + 0x1000 * s + 0x308
def GZC_MV_STALL (fn s : Nat) : Nat := win fn + 0x20000 + 0x1000 * s + 0x310
def GZC_MV_CS_FIRST (fn s : Nat) : Nat := win fn + 0x20000 + 0x1000 * s + 0x318
def GZC_MV_CS_RESID (fn s : Nat) : Nat := win fn + 0x20000 + 0x1000 * s + 0x320
def GZC_MV_CS_BLOCKS (fn s : Nat) : Nat := win fn + 0x20000 + 0x1000 * s + 0x328
def GZC_MV_CS_FAILS (fn s : Nat) : Nat := win fn + 0x20000 + 0x1000 * s + 0x330
def GZC_MV_STATUS (fn s : Nat) : Nat := win fn + 0x20000 + 0x1000 * s + 0x338
def STO_NSP_CFG (fn s : Nat) : Nat := win fn + 0x30000 + 0x400 * s
def STO_NSP_CTL (fn s : Nat) : Nat := win fn + 0x30000 + 0x400 * s + 0x8
def STO_CACHE_HITS (fn s : Nat) : Nat := win fn + 0x30000 + 0x400 * s + 0x10
def STO_CACHE_MISSES (fn s : Nat) : Nat := win fn + 0x30000 + 0x400 * s + 0x18
def STO_CACHE_WB (fn s : Nat) : Nat := win fn + 0x30000 + 0x400 * s + 0x20
def STO_CACHE_DIRTY (fn s : Nat) : Nat := win fn + 0x30000 + 0x400 * s + 0x28
def STO_NSP_ECC (fn s : Nat) : Nat := win fn + 0x30000 + 0x400 * s + 0x30
def STO_NSP_ERR_ADDR (fn s : Nat) : Nat := win fn + 0x30000 + 0x400 * s + 0x38
def STO_NSP_GAPS (fn s : Nat) : Nat := win fn + 0x30000 + 0x400 * s + 0x40
def STO_NSP_CONF_W (fn s i : Nat) : Nat := win fn + 0x30000 + 0x400 * s + 0x100 + 8 * i
def STO_NSP_CONF_N (fn s i : Nat) : Nat := win fn + 0x30000 + 0x400 * s + 0x180 + 8 * i
def STO_BULK_ECC (fn : Nat) : Nat := win fn + 0x31000
def STO_BULK_ERR_ADDR (fn : Nat) : Nat := win fn + 0x31000 + 0x8
def STO_BULK_GRANULE (fn i : Nat) : Nat := win fn + 0x31000 + 0x40 + 4 * i
def STO_BULK_CONF_W (fn i : Nat) : Nat := win fn + 0x31000 + 0x100 + 8 * i
def STO_BULK_CONF_N (fn i : Nat) : Nat := win fn + 0x31000 + 0x280 + 8 * i
def STO_PATROL_CTL (fn : Nat) : Nat := win fn + 0x31000 + 0x400
def STO_PATROL_STATUS (fn : Nat) : Nat := win fn + 0x31000 + 0x408
def KVL_CTL (fn : Nat) : Nat := win fn + 0x34000
def KVL_STATUS (fn : Nat) : Nat := win fn + 0x34000 + 0x8
def KVL_PEER_IDENT (fn : Nat) : Nat := win fn + 0x34000 + 0x10
def KVL_CREDIT (fn : Nat) : Nat := win fn + 0x34000 + 0x18
def KVL_FEC (fn : Nat) : Nat := win fn + 0x34000 + 0x20
def KVL_RETRY (fn : Nat) : Nat := win fn + 0x34000 + 0x28
def KVL_ERRORS (fn : Nat) : Nat := win fn + 0x34000 + 0x30
def KVL_FRAMES (fn : Nat) : Nat := win fn + 0x34000 + 0x38
def KVL_DOWN_TIME (fn : Nat) : Nat := win fn + 0x34000 + 0x40
def KVL_EVENT (fn : Nat) : Nat := win fn + 0x34000 + 0x48
def KVL_TXEQ (fn : Nat) : Nat := win fn + 0x34000 + 0x50
def KVL_RGRANT (fn i : Nat) : Nat := win fn + 0x34000 + 0x800 + 8 * i
def SNP_CFG (fn h : Nat) : Nat := win fn + 0x36000 + 0x400 * h
def SNP_CTL (fn h : Nat) : Nat := win fn + 0x36000 + 0x400 * h + 0x8
def SNP_STATUS (fn h : Nat) : Nat := win fn + 0x36000 + 0x400 * h + 0x10
def SNP_LAST_FSYNC (fn h : Nat) : Nat := win fn + 0x36000 + 0x400 * h + 0x18
def SNP_IROUTE (fn h i : Nat) : Nat := win fn + 0x36000 + 0x400 * h + 0x20 + 8 * i
def SNP_OROUTE (fn h i : Nat) : Nat := win fn + 0x36000 + 0x400 * h + 0x30 + 8 * i
def SNP_OHOLDER (fn h i : Nat) : Nat := win fn + 0x36000 + 0x400 * h + 0x40 + 4 * i
def SNP_EVENT (fn h : Nat) : Nat := win fn + 0x36000 + 0x400 * h + 0x48
def SNP_FRAMES (fn h : Nat) : Nat := win fn + 0x36000 + 0x400 * h + 0x50
def SNP_FRAME_ERR (fn h : Nat) : Nat := win fn + 0x36000 + 0x400 * h + 0x58
def SNP_LOSSES (fn h : Nat) : Nat := win fn + 0x36000 + 0x400 * h + 0x60
def SNP_OVERRUN (fn h : Nat) : Nat := win fn + 0x36000 + 0x400 * h + 0x68
def SNP_UNDERRUN (fn h : Nat) : Nat := win fn + 0x36000 + 0x400 * h + 0x70
def SNP_LATE (fn h : Nat) : Nat := win fn + 0x36000 + 0x400 * h + 0x78
def SNP_RESYNC (fn h : Nat) : Nat := win fn + 0x36000 + 0x400 * h + 0x80
def SNP_ZC_TIMEOUTS (fn h : Nat) : Nat := win fn + 0x36000 + 0x400 * h + 0x88
def SNP_OGAIN (fn h i : Nat) : Nat := win fn + 0x36000 + 0x400 * h + 0x100 + 4 * i
def SNP_IGRANT (fn h i : Nat) : Nat := win fn + 0x36000 + 0x400 * h + 0x200 + 8 * i
def MSH_CTL (fn : Nat) : Nat := win fn + 0x38000
def MSH_ROUTE_STATUS (fn : Nat) : Nat := win fn + 0x38000 + 0x8
def MSH_ROUTE_TIME (fn : Nat) : Nat := win fn + 0x38000 + 0x10
def MSH_DROPPED (fn : Nat) : Nat := win fn + 0x38000 + 0x18
def MSH_PORT (fn i : Nat) : Nat := win fn + 0x38000 + 0x20 + 8 * i
def MSH_FLITS (fn i : Nat) : Nat := win fn + 0x38000 + 0x40 + 8 * i
def MSH_WIN_STATUS (fn i : Nat) : Nat := win fn + 0x38000 + 0x80 + 8 * i
def MSH_GRANT_STATUS (fn i : Nat) : Nat := win fn + 0x38000 + 0xA0 + 8 * i
def MSH_OVR (fn i : Nat) : Nat := win fn + 0x38000 + 0x100 + 8 * i
def MSH_TRANSIT (fn i : Nat) : Nat := win fn + 0x38000 + 0x300 + 8 * i
def MSH_WIN (fn i : Nat) : Nat := win fn + 0x38000 + 0x1000 + 8 * i
def MSH_GRANT (fn i : Nat) : Nat := win fn + 0x38000 + 0x5000 + 8 * i
def ISL_FIELD (fn : Nat) : Nat := win fn + 0x28000
def ISL_CTL (fn s : Nat) : Nat := win fn + 0x28100 + 0x100 * s
def ISL_STATUS (fn s : Nat) : Nat := win fn + 0x28100 + 0x100 * s + 0x8
def ISL_COUNTS (fn s : Nat) : Nat := win fn + 0x28100 + 0x100 * s + 0x10
def ISL_ERR (fn s : Nat) : Nat := win fn + 0x28100 + 0x100 * s + 0x18
def ISL_PROTO (fn s : Nat) : Nat := win fn + 0x28100 + 0x100 * s + 0x20
def ISL_ZERO_FILL (fn s : Nat) : Nat := win fn + 0x28100 + 0x100 * s + 0x28
def ISL_UTX_OVF (fn s : Nat) : Nat := win fn + 0x28100 + 0x100 * s + 0x30
def ISL_USER (fn s i : Nat) : Nat := win fn + 0x29000 + 0x400 * s + 4 * i

/-- One row of the register map: `count` registers from block offset `off`, `stride` apart, `width` bits wide; `rw`,
`w1c`, `wo`, `rwl` are the masks of the access codes of R10 (bits in none are RO or reserved); `reset` is the value
after a reset of the block. -/
structure Row where
  off : Nat
  count : Nat
  stride : Nat
  width : Nat
  rw : Nat
  w1c : Nat
  wo : Nat
  rwl : Nat
  reset : Nat
deriving DecidableEq, Repr

/-- Whether offset `o` of the block is the first byte of one of the row's registers. -/
def Row.holds (r : Row) (o : Nat) : Bool :=
  if r.count ≤ 1 then o = r.off
  else r.off ≤ o && (o - r.off) % r.stride = 0 && (o - r.off) / r.stride < r.count

def rows_axb : List Row := [
  ⟨0, 1, 0, 32, 0, 0, 0, 0, 0x5A708401⟩, -- AXB_IDENT: VENDOR, PART, PACKAGE (21 R539)
  ⟨0x4, 1, 0, 32, 0, 0, 0, 0, 0x11000000⟩, -- AXB_REVISION: STEP, OV_MAJOR, OV_MINOR, FW_SERIES (21 R539)
  ⟨0x40, 1, 0, 64, 0, 0, 0, 0, 0xFFFFFFFFFFF3F0FC⟩, -- AXB_FIELD_OK_LO: OK (01 R25)
  ⟨0x48, 1, 0, 64, 0, 0, 0, 0, 0x3F0FCFFFF⟩, -- AXB_FIELD_OK_HI: OK (01 R25)
  ⟨0x50, 1, 0, 64, 0, 0, 0, 0, 0⟩, -- AXB_FIELD_RETIRED_LO: RETIRED (01 R25)
  ⟨0x58, 1, 0, 64, 0, 0, 0, 0, 0⟩, -- AXB_FIELD_RETIRED_HI: RETIRED (01 R25)
  ⟨0x60, 1, 0, 32, 0, 0, 0, 0, 0x372C540A⟩, -- AXB_GRADE: STANDBY_FN, ANCHOR_FN, FUNC_COUNT, GRADE (01 R25)
  ⟨0x100, 1, 0, 32, 0, 0, 0, 0, 0⟩, -- AXB_CFG_STATUS: SOURCE, LOADS, PARTIAL_PART, PARTIAL_BUSY, BOUND, STATE (05 Registers)
  ⟨0x104, 1, 0, 32, 0, 0, 0, 0, 0⟩, -- AXB_CFG_ERR: ERR, FN, SECTION (05 Registers)
  ⟨0x108, 1, 0, 64, 0, 0, 0, 0, 0⟩, -- AXB_CFG_BUILD: BUILD_ID (05 Registers)
  ⟨0x110, 1, 0, 32, 0, 0, 0, 0, 0⟩, -- AXB_CFG_BOOT: FALLBACK, PRIMARY (05 Registers)
  ⟨0x114, 1, 0, 32, 0, 0, 0, 0, 0x10⟩, -- AXB_KEY_STATE: REVOKED, PRESENT, AES_KEY (05 Registers)
  ⟨0x118, 1, 0, 32, 0, 0, 0, 0, 0⟩, -- AXB_KEY_SVN: minimum SVN of key slots 0-3 (05 Registers)
  ⟨0x11C, 1, 0, 32, 0, 0, 0, 0, 0⟩, -- AXB_CFG_CORE_DETAIL: CHECK, SLOT, VALUE (06 R175)
  ⟨0x120, 1, 0, 32, 0, 0, 0, 0, 0⟩, -- AXB_ROUTE_DETAIL: CHECK, FN, VALUE (15 R372)
  ⟨0x124, 1, 0, 32, 0, 0, 0, 0, 0⟩, -- AXB_PART_DETAIL: CHECK, UNIT, VALUE (19 R478)
  ⟨0x128, 1, 0, 32, 0, 0, 0, 0, 0⟩, -- AXB_LEDGER_STATUS: TAGS_LOST, TAGS_DROPPED (21 R544)
  ⟨0x12C, 1, 0, 32, 0, 0, 0, 0, 0⟩, -- AXB_CFG_ISL_DETAIL: CHECK, FN, VALUE (23 R577)
  ⟨0x180, 16, 8, 64, 0, 0, 0, 0, 0⟩, -- AXB_CFG_PART_BUILDp: BUILD_ID (05 Registers)
  ⟨0x800, 1, 0, 32, 0xFFFFFF, 0x80000000, 0, 0, 0xC8⟩, -- AXB_RECOV_CTL: OVERLAP, DRAIN_US (12 Registers)
  ⟨0x808, 1, 0, 32, 0, 0, 0, 0, 0⟩, -- AXB_FAULT_SEQ: SEQ (12 R310)
  ⟨0x810, 1, 0, 32, 0xFFF, 0, 0, 0, 0⟩, -- AXB_LEASE_INDEX: INDEX (12 Registers)
  ⟨0x818, 1, 0, 64, 0, 0, 0, 0, 0⟩, -- AXB_LEASE_LO: lease bytes 0-7 (12 Registers)
  ⟨0x820, 1, 0, 64, 0, 0, 0, 0, 0⟩, -- AXB_LEASE_HI: lease bytes 8-15 (12 Registers)
  ⟨0x900, 1, 0, 32, 0, 0, 0, 0, 0⟩, -- AXB_BURSAR_STATUS: FAILOVERS, CMDS_RUNNING, REBUILT, MIRROR (18 Registers)
  ⟨0x908, 1, 0, 32, 0, 0, 0, 0, 0⟩, -- AXB_BOOT_STATUS: FW_SERIES_B, FW_SERIES_A, RECOVERY, RECORD_BAD, FELL_BACK, COPY (18 Registers)
  ⟨0x910, 1, 0, 64, 0, 0, 0, 0, 0⟩, -- AXB_WDOG_STATUS: core-teller hangs, housekeeper hangs, missed strobes (18 Registers)
  ⟨0xA00, 16, 16, 64, 0, 0, 0, 0, 0⟩, -- AXB_PART_DOWNp_TIME: TIME (word 0) (19 R489)
  ⟨0xA08, 16, 16, 64, 0, 0, 0, 0, 0⟩, -- AXB_PART_DOWNp_CAUSE: COUNT, CAUSE (word 1) (19 R489)
  ⟨0xB00, 1, 0, 32, 0, 0, 0, 0, 0x1⟩, -- AXB_RESET_STATUS: MERGED, COUNT, CAUSE (24 Registers)
  ⟨0xB04, 1, 0, 32, 0, 0, 0, 0, 0⟩, -- AXB_STRAPS: FORCE_RECOVERY, TEST_MODE, SMB_ADDR (24 R605)
  ⟨0xB08, 1, 0, 32, 0x2, 0x1, 0, 0, 0x2⟩, -- AXB_STAT_CTL: THERM, READY, ALERT_EN, FAULT_LATCH (24 R604)
  ⟨0xB10, 1, 0, 32, 0xFFFF, 0, 0, 0, 0⟩, -- AXB_GPIO: IN, OE, OUT (24 R615)
  ⟨0x6000, 1024, 8, 64, 0, 0, 0, 0, 0⟩, -- AXB_FAULT_LOGi: 256 records of four words (12 R308-R310)
  ⟨0x4000, 64, 16, 64, 0xFFFFFFFFFFFFFFFF, 0, 0, 0, 0⟩, -- PF0_MSIX_ADDRv: message address (17 R424, R437)
  ⟨0x4008, 64, 16, 64, 0xFFFFFFFFFFFFFFFF, 0, 0, 0, 0x100000000⟩, -- PF0_MSIX_DATAv: message data, vector control (17 R424, R437)
  ⟨0x5000, 1, 0, 64, 0, 0, 0, 0, 0⟩] -- PF0_MSIX_PBA: pending bits (17 R424, R437)

def rows_pwr : List Row := [
  ⟨0, 1, 0, 64, 0, 0, 0, 0, 0⟩, -- PWR_ENTRY_SENSE: PIN, IIN, VIN (04 R85)
  ⟨0x8, 1, 0, 32, 0, 0x17, 0, 0, 0⟩, -- PWR_ENTRY_STATUS: TRIPPED, MODULE_CAP, FAULT, HIGH_WARN, LOW_WARN (04 R86-R88)
  ⟨0x10, 1, 0, 32, 0, 0, 0, 0, 0⟩, -- PWR_SEQ_STATUS: ERR, ERR_FN, STATE, STEP (04 R97)
  ⟨0x40, 16, 4, 32, 0, 0, 0, 0, 0⟩, -- PWR_PART_STATEp: STATUS, FULL_COUNT, FIELDS (B), STATE (04 R99)
  ⟨0x100, 16, 16, 32, 0xF3FFFFFF, 0, 0, 0, 0⟩, -- PWR_PART_POLICYp: UP_FAST, GOAL, FIXED_CODE, CEILING, FLOOR (04 R110)
  ⟨0x108, 16, 16, 64, 0xFFFFFFFFFFFFFFFF, 0, 0, 0, 0⟩] -- PWR_PART_SLACKp: SLACK_HI, SLACK_LO (04 R110)

def rows_hst : List Row := [
  ⟨0, 1, 0, 32, 0, 0, 0, 0, 0x2C000000⟩, -- HST_LINK: ENDPOINT_FN, LINK_UPS, SPEED, WIDTH (17 R439)
  ⟨0x8, 1, 0, 32, 0, 0, 0, 0, 0⟩, -- HST_READY: VF_READY, PF_READY (17 R439)
  ⟨0x10, 1, 0, 64, 0, 0, 0, 0, 0⟩, -- HST_ACC_ERR: FUNC, REASON, WRITE, BAR, DETAIL, OFFSET (17 R432)
  ⟨0x18, 1, 0, 64, 0, 0, 0, 0, 0⟩, -- HST_ACC_COUNT: count (17 R432)
  ⟨0x20, 1, 0, 64, 0, 0, 0, 0, 0⟩, -- HST_ACC_TIME: time (17 R443)
  ⟨0x28, 1, 0, 64, 0, 0, 0, 0, 0⟩, -- HST_DMA_RD: bytes (17 Registers)
  ⟨0x30, 1, 0, 64, 0, 0, 0, 0, 0⟩, -- HST_DMA_WR: bytes (17 Registers)
  ⟨0x38, 1, 0, 64, 0, 0, 0, 0, 0⟩] -- HST_POISON: poisoned TLPs, ECRC failures (17 R436)

def rows_hstVf : List Row := [
  ⟨0, 1, 0, 32, 0, 0, 0, 0, 0⟩, -- HST_VF_STATE: PARTITION, DEFINED, STATE (17 R421)
  ⟨0x10, 1, 0, 64, 0, 0, 0, 0, 0⟩, -- HST_VF_ERR: layout of HST_ACC_ERR (17 R432)
  ⟨0x18, 1, 0, 64, 0, 0, 0, 0, 0⟩, -- HST_VF_ERR_COUNT: count (17 R432)
  ⟨0x20, 1, 0, 64, 0, 0, 0, 0, 0⟩, -- HST_VF_BAR2: READS, WRITES_REFUSED (17 R429-R430)
  ⟨0x44, 15, 4, 32, 0x800003FF, 0, 0, 0, 0⟩, -- HST_VF_APERi: VALID, QUARTER, FN (i = 1-15) (17 R427, R443)
  ⟨0x800, 256, 8, 64, 0, 0, 0, 0, 0⟩] -- HST_VF_GRANTg: 64 grant entries (17 R428, 15 R379)

def rows_vfMsix : List Row := [
  ⟨0, 16, 16, 64, 0xFFFFFFFFFFFFFFFF, 0, 0, 0, 0⟩, -- VF_MSIX_ADDRv: message address (17 R426, R437)
  ⟨0x8, 16, 16, 64, 0xFFFFFFFFFFFFFFFF, 0, 0, 0, 0x100000000⟩, -- VF_MSIX_DATAv: message data, vector control (17 R426, R437)
  ⟨0x800, 1, 0, 64, 0, 0, 0, 0, 0⟩] -- VF_MSIX_PBA: pending bits (17 R426, R437)

def rows_ledv : List Row := [
  ⟨0, 1, 0, 32, 0x3F, 0, 0, 0, 0⟩, -- LEDGER_VIEW: PAGE (21 R538)
  ⟨0x8, 1, 0, 32, 0, 0, 0, 0, 0⟩] -- LEDGER_VIEW_SIZE: SIZE (21 R538)

def rows_tly : List Row := [
  ⟨0, 1024, 16, 64, 0xFFFFFFFFFFFF, 0, 0, 0, 0⟩, -- TLY_VALUEi: VALUE (20 R513)
  ⟨0x8, 1024, 16, 64, 0xF3FF000000000000, 0, 0, 0, 0⟩] -- TLY_STATi: FWD_EN, FWD_PORT, FWD_TALLY, FWD_REFUSED, FWD_LOST, LEAPS, STALE (20 R516-R519)

def rows_que : List Row := [
  ⟨0, 256, 32, 64, 0xFFFFFFFFFFFFFFFF, 0, 0, 0, 0⟩, -- QUE_Q_BASEq: ring base (20 R492)
  ⟨0x8, 256, 32, 32, 0x803F001F, 0, 0x40000000, 0, 0⟩, -- QUE_Q_CFGq: ENABLE, FLUSH, CONTEXT, LOG2 (20 R491, R508)
  ⟨0xC, 256, 32, 32, 0, 0, 0, 0, 0⟩, -- QUE_Q_STATUSq: STALE_DB, FLUSHES, FLUSHING (20 R506, R508)
  ⟨0x10, 256, 32, 64, 0, 0, 0, 0, 0⟩, -- QUE_Q_HEADq: EPOCH, HEAD (20 R492)
  ⟨0x18, 256, 32, 32, 0, 0, 0, 0, 0⟩, -- QUE_Q_TAILq: TAIL (20 R506)
  ⟨0x1C, 256, 32, 32, 0, 0, 0, 0, 0⟩, -- QUE_Q_BINDq: FN, slot (20 R494)
  ⟨0x2000, 64, 64, 64, 0xFFFFFFFFFFFFFFFF, 0, 0, 0, 0⟩, -- QUE_CTX_CQ_BASEc: base (20 R503)
  ⟨0x2008, 64, 64, 32, 0x801F0F01, 0, 0x40000000, 0, 0⟩, -- QUE_CTX_CFGc: ENABLE, RESUME, LOG2, VECTOR, STOP (20 R503, R504)
  ⟨0x200C, 64, 64, 32, 0, 0x80000000, 0, 0, 0⟩, -- QUE_CTX_STATEc: REFUSED, state (20 R491, R504)
  ⟨0x2010, 64, 64, 32, 0, 0, 0, 0, 0⟩, -- QUE_CTX_CQ_TAILc: records written (20 R503)
  ⟨0x2014, 64, 64, 32, 0xFFFFFFFF, 0, 0, 0, 0⟩, -- QUE_CTX_CQ_HEADc: records consumed (20 R503)
  ⟨0x2018, 64, 64, 64, 0, 0, 0, 0, 0⟩, -- QUE_CTX_ERRc: TAG, QUEUE, STATUS, CQ_WAITS (20 R503, R504)
  ⟨0x2020, 64, 64, 64, 0, 0, 0, 0, 0⟩, -- QUE_CTX_DONEc: items completed (20 Registers)
  ⟨0x3000, 1, 0, 64, 0xFFFFFFFFFFFFFFFF, 0, 0, 0, 0⟩, -- QUE_EVT_BASE: base (20 R511)
  ⟨0x3008, 1, 0, 32, 0x8000001F, 0x30000000, 0x40000000, 0, 0⟩, -- QUE_EVT_CTL: ENABLE, COMMIT, REFUSED, OVERLAP, LOG2 (20 R511, R512)
  ⟨0x3010, 1, 0, 32, 0, 0, 0, 0, 0⟩, -- QUE_EVT_TAIL: records written (20 R511)
  ⟨0x3014, 1, 0, 32, 0xFFFFFFFF, 0, 0, 0, 0⟩, -- QUE_EVT_HEAD: records consumed (20 R511)
  ⟨0x3018, 1, 0, 64, 0, 0, 0, 0, 0⟩, -- QUE_EVT_LOST: records lost (20 R511)
  ⟨0x3020, 1, 0, 64, 0, 0, 0, 0, 0⟩, -- QUE_PART_LOST: records discarded after FLR (20 R519)
  ⟨0x3100, 16, 8, 64, 0xFFFFFFFFFFFFFFFF, 0, 0, 0, 0⟩, -- QUE_EVT_ROUTEi: staged routing entries (20 R512)
  ⟨0x3800, 256, 8, 64, 0, 0, 0, 0, 0⟩] -- QUE_OBJi: 64 object entries of four words: BASE; SIZE, FN, SLOT, STATE (20 R505)

def rows_queM : List Row := [
  ⟨0, 16, 64, 64, 0xFFFFFFFFFFFFFFFF, 0, 0, 0, 0⟩, -- QUE_M_BASEm: ring base (20 Registers)
  ⟨0x8, 16, 64, 32, 0x803F001F, 0, 0x40000000, 0, 0⟩, -- QUE_M_CFGm: ENABLE, FLUSH, LOG2 (20 Registers)
  ⟨0xC, 16, 64, 32, 0, 0, 0, 0, 0⟩, -- QUE_M_STATUSm: STALE_DB, FLUSHES, FLUSHING (20 Registers)
  ⟨0x10, 16, 64, 64, 0, 0, 0, 0, 0⟩, -- QUE_M_HEADm: EPOCH, HEAD (20 Registers)
  ⟨0x18, 16, 64, 32, 0, 0, 0, 0, 0⟩, -- QUE_M_TAILm: TAIL (20 Registers)
  ⟨0x20, 16, 64, 64, 0xFFFFFFFFFFFFFFFF, 0, 0, 0, 0⟩, -- QUE_M_CQ_BASEm: base (20 Registers)
  ⟨0x28, 16, 64, 32, 0x803F001F, 0, 0, 0, 0⟩, -- QUE_M_CQ_CFGm: ENABLE, VECTOR, LOG2 (20 Registers)
  ⟨0x2C, 16, 64, 32, 0, 0, 0, 0, 0⟩, -- QUE_M_CQ_TAILm: records written (20 Registers)
  ⟨0x30, 16, 64, 32, 0xFFFFFFFF, 0, 0, 0, 0⟩, -- QUE_M_CQ_HEADm: records consumed (20 Registers)
  ⟨0x1000, 1, 0, 64, 0xFFFFFFFFFFFFFFFF, 0, 0, 0, 0⟩, -- PF0_QUE_EVT_BASE: base (20 Registers)
  ⟨0x1008, 1, 0, 32, 0x8000001F, 0x30000000, 0x40000000, 0, 0⟩, -- PF0_QUE_EVT_CTL: ENABLE, COMMIT, REFUSED, OVERLAP, LOG2 (20 Registers)
  ⟨0x1010, 1, 0, 32, 0, 0, 0, 0, 0⟩, -- PF0_QUE_EVT_TAIL: records written (20 Registers)
  ⟨0x1014, 1, 0, 32, 0xFFFFFFFF, 0, 0, 0, 0⟩, -- PF0_QUE_EVT_HEAD: records consumed (20 Registers)
  ⟨0x1018, 1, 0, 64, 0, 0, 0, 0, 0⟩, -- PF0_QUE_EVT_LOST: records lost (20 Registers)
  ⟨0x1020, 1, 0, 64, 0, 0, 0, 0, 0⟩, -- PF0_QUE_PART_LOST: records discarded (20 Registers)
  ⟨0x1100, 64, 8, 64, 0xFFFFFFFFFFFFFFFF, 0, 0, 0, 0⟩] -- PF0_QUE_EVT_ROUTEi: staged routing entries (20 Registers)

def rows_fld : List Row := [
  ⟨0x180, 1, 0, 32, 0x7, 0, 0, 0, 0x3⟩, -- FLD_BEATMON_CTL: WINDOW, ENABLE (02 R53, R54)
  ⟨0x188, 1, 0, 64, 0, 0, 0, 0, 0⟩, -- FLD_BEATMON_COUNT: COUNT (02 R52)
  ⟨0x190, 1, 0, 32, 0, 0, 0, 0, 0⟩, -- FLD_BEATMON_RATE: VALID, RAIL_CHANGED, SEQ, RATE (02 R53)
  ⟨0x198, 1, 0, 64, 0, 0, 0, 0, 0⟩, -- FLD_BEATMON_STAMP: END (02 R53)
  ⟨0x200, 1, 0, 32, 0, 0, 0, 0, 0xFF000001⟩, -- FLD_PWR_STATE: PACE_GROUP, RAIL_CODE, INIT_CODE, STATE (04 R91)
  ⟨0x208, 1, 0, 64, 0, 0, 0, 0, 0⟩, -- FLD_RAIL_SENSE: POWER, TJ, CURRENT, VOLTAGE (04 R622)
  ⟨0x210, 1, 0, 32, 0xF3FFFFFF, 0, 0, 0, 0⟩, -- FLD_PACE_POLICY: UP_FAST, GOAL, FIXED_CODE, CEILING, FLOOR (04 R107-R109)
  ⟨0x218, 1, 0, 64, 0xFFFFFFFFFFFFFFFF, 0, 0, 0, 0⟩, -- FLD_PACE_SLACK: SLACK_HI, SLACK_LO (04 R107-R109)
  ⟨0x220, 1, 0, 32, 0, 0, 0, 0, 0x320000⟩, -- FLD_PACE_STATUS: WANT, CAP, CLAMP_UP, CLAMP_DOWN, OVERRIDDEN, CAUSE, STEP_SEQ (04 R111-R118)
  ⟨0x228, 1, 0, 64, 0, 0, 0, 0, 0⟩, -- FLD_PACE_LAST: MARKS, ORPHANS, NONE, SLACK (04 R106, R113)
  ⟨0x230, 1, 0, 32, 0, 0xFB, 0, 0, 0⟩, -- FLD_PACE_EVENT: TRIP, LOOP_FAULT, POLICY_ERR, CAP_ACTIVE, OVERRIDDEN, LIMITED_DOWN, LIMITED_UP (04 R108, R112, R116-R118)
  ⟨0x238, 1, 0, 64, 0, 0, 0, 0, 0⟩, -- FLD_PACE_LIMIT_TIME: time (04 R112)
  ⟨0x240, 1, 0, 64, 0, 0, 0, 0, 0⟩, -- FLD_PACE_OVR_TIME: time (04 R117)
  ⟨0x248, 1, 0, 64, 0, 0, 0, 0, 0⟩, -- FLD_PACE_COUNTS: STEPS_CAPPED, STEPS_OVR, STEPS_DOWN, STEPS_UP (04 R112, R117)
  ⟨0x250, 1, 0, 32, 0xFF, 0, 0, 0, 0x3232328C⟩, -- FLD_PLIMIT: POWER_CAP, THERMAL_CAP, MODULE_CAP, LIMIT (04 R114-R115, R126)
  ⟨0x260, 4, 8, 32, 0x1FFFFF, 0, 0, 0, 0x96⟩, -- FLD_CHAFF_CTLn: DENSITY, CHAFF_WINDOW (04 R119, R126)
  ⟨0x280, 4, 8, 64, 0, 0, 0, 0, 0⟩, -- FLD_CHAFF_COUNTn: chaff beats (04 R125)
  ⟨0x300, 1, 0, 32, 0, 0, 0, 0xFFFF, 0x6032⟩, -- FLD_RAMP_DOWN0: ENTRY, the default table (04 R124, R125)
  ⟨0x304, 1, 0, 32, 0, 0, 0, 0xFFFF, 0x4032⟩, -- FLD_RAMP_DOWN1: ENTRY, the default table (04 R124, R125)
  ⟨0x308, 1, 0, 32, 0, 0, 0, 0xFFFF, 0x2032⟩, -- FLD_RAMP_DOWN2: ENTRY, the default table (04 R124, R125)
  ⟨0x30C, 1, 0, 32, 0, 0, 0, 0xFFFF, 0x0032⟩, -- FLD_RAMP_DOWN3: ENTRY, the default table (04 R124, R125)
  ⟨0x310, 12, 4, 32, 0, 0, 0, 0xFFFF, 0⟩, -- FLD_RAMP_DOWNk, k from 4: ENTRY (04 R124)
  ⟨0x380, 1, 0, 32, 0, 0, 0, 0xFFFF, 0x2032⟩, -- FLD_RAMP_UP0: ENTRY, the default table (04 R124, R125)
  ⟨0x384, 1, 0, 32, 0, 0, 0, 0xFFFF, 0x4032⟩, -- FLD_RAMP_UP1: ENTRY, the default table (04 R124, R125)
  ⟨0x388, 1, 0, 32, 0, 0, 0, 0xFFFF, 0x6032⟩, -- FLD_RAMP_UP2: ENTRY, the default table (04 R124, R125)
  ⟨0x38C, 1, 0, 32, 0, 0, 0, 0xFFFF, 0x8032⟩, -- FLD_RAMP_UP3: ENTRY, the default table (04 R124, R125)
  ⟨0x390, 12, 4, 32, 0, 0, 0, 0xFFFF, 0⟩, -- FLD_RAMP_UPk, k from 4: ENTRY (04 R124)
  ⟨0x340, 1, 0, 32, 0, 0, 0, 0x1F1F, 0x0404⟩, -- FLD_RAMP_CTL: COMMITTED, UP_COUNT, DOWN_COUNT; the default tables (04 R124, R125)
  ⟨0x400, 1, 0, 32, 0, 0, 0, 0, 0⟩, -- FLD_CFG_STATUS: COMMITTED, IGNORED, SPARES_USED, LOADS (05 Registers)
  ⟨0x408, 1, 0, 32, 0x800003FF, 0, 0, 0, 0x8000000A⟩, -- FLD_SCRUB_CTL: ENABLE, INTERVAL (05 R159)
  ⟨0x410, 1, 0, 64, 0, 0, 0, 0, 0⟩, -- FLD_SCRUB_STATUS: LAST_ADDR, UNCORR, CORRECTED, PASSES (05 R159-R160)
  ⟨0x418, 1, 0, 64, 0, 0, 0, 0, 0⟩, -- FLD_SCRUB_TIME: time (05 Registers)
  ⟨0x500, 16, 8, 64, 0, 0, 0, 0, 0xFF00FF00FF00FF00⟩, -- FLD_SLICE_MAPk: live group-map entries of 4 groups (06 R179)
  ⟨0x600, 1, 0, 32, 0xFF0F0F, 0, 0, 0, 0x3C0302⟩, -- FLD_CS_POLICY: SPAN, UNLOC_LIMIT, RETIRE_SOFT (12 Registers)
  ⟨0x700, 4, 8, 64, 0, 0, 0, 0, 0⟩, -- FLD_TELLER_STATUSt: HANGS, ITEMS, STATE, BEAT (18 R465-R470)
  ⟨0x720, 1, 0, 64, 0, 0, 0, 0, 0⟩, -- FLD_HK_STATUS: RESTARTS, DUTY_LATE, BEAT (18 R456-R470)
  ⟨0x728, 1, 0, 32, 0xF, 0, 0, 0, 0x4⟩] -- FLD_WDOG_CTL: ITEMS (18 R452)

def rows_tbs : List Row := [
  ⟨0, 1, 0, 64, 0, 0, 0, 0, 0⟩, -- TBS_NOW: NOW (03 R66)
  ⟨0x8, 1, 0, 32, 0, 0, 0, 0, 0⟩, -- TBS_STATUS: DEPTH, DEEP, LINK_MODE, PARENT, REF, STATE (03 R84)
  ⟨0x10, 1, 0, 32, 0, 0, 0, 0, 0⟩, -- TBS_OFFSET: OFFSET (03 R84)
  ⟨0x18, 1, 0, 32, 0, 0x7F, 0, 0, 0⟩, -- TBS_EVENT: SKEW_BOUND, REF_LOST, REF_CHANGED, SLEW_LIMIT, HOLDOVER, RECOUPLED, LOCK_LOST (03 Registers)
  ⟨0x20, 1, 0, 64, 0, 0, 0, 0, 0⟩, -- TBS_LOSS_TIME: T (03 R68)
  ⟨0x28, 1, 0, 32, 0, 0, 0, 0, 0⟩, -- TBS_MODULE: MAX_DEPTH, LOCKED_COUNT, STATE, MODE (03 R84)
  ⟨0x30, 1, 0, 32, 0xFFFF, 0xFF000000, 0, 0, 0⟩, -- TBS_CAPT_CTL: OVERRUN, EDGE, ENABLE (03 R81, R83)
  ⟨0x40, 8, 8, 64, 0, 0, 0, 0, 0⟩] -- TBS_CAPTn: T (03 R81)

def rows_gzc : List Row := [
  ⟨0, 1, 0, 64, 0, 0, 0, 0, 0⟩, -- GZC_SHAPE: RESCALE_DEPTH, ACC_DEPTH, PRESENT, TAPS, MV_SLICES, COLS, ROWS (06 R177)
  ⟨0x8, 1, 0, 64, 0, 0, 0, 0, 0⟩, -- GZC_SHAPE2: USER_KIB, PIPE_BEATS, LOAD_BEATS, MINT_LANES, FEED_DEPTH (06 R177)
  ⟨0x10, 1, 0, 32, 0, 0xC0, 0, 0, 0x1⟩, -- GZC_STATUS: BANK1, BANK0, RETIRE_COUNT, INTAKE_COUNT, DROPPED, OVERFLOW, WAITING, WEIGHTS, FLUSHING, HALTED, IDLE (07 Registers)
  ⟨0x18, 1, 0, 32, 0, 0, 0x3, 0, 0⟩, -- GZC_CTL: RESUME, FLUSH (07 R183)
  ⟨0x20, 1, 0, 64, 0, 0, 0, 0, 0⟩, -- GZC_LAST_ERR: TAG, OPCODE, STATUS, DETAIL (07 R202)
  ⟨0x28, 1, 0, 64, 0, 0, 0, 0, 0⟩, -- GZC_ERR_TIME: time (07 Registers)
  ⟨0x30, 1, 0, 64, 0, 0, 0, 0, 0⟩, -- GZC_ISSUED: count (07 Registers)
  ⟨0x38, 1, 0, 64, 0, 0, 0, 0, 0⟩, -- GZC_RETIRED: count (07 Registers)
  ⟨0x40, 1, 0, 64, 0, 0, 0, 0, 0⟩, -- GZC_ARRAY_BEATS: count (07 Registers)
  ⟨0x48, 1, 0, 64, 0, 0, 0, 0, 0⟩, -- GZC_MINT_VECTORS: count (07 Registers)
  ⟨0x50, 1, 0, 32, 0, 0, 0, 0, 0⟩, -- GZC_FLUSHES: DISCARDED, COUNT (07 R200)
  ⟨0x80, 4, 8, 64, 0, 0, 0xFFFFFFFFFFFFFFFF, 0, 0⟩, -- GZC_CMD_Wk: command words W0-W3 (07 R183)
  ⟨0xA0, 1, 0, 64, 0, 0, 0, 0, 0xFF0000⟩, -- GZC_RETIRE: TIME, STATUS, OPCODE, TAG of the oldest record (a view of the retirement FIFO) (07 R203)
  ⟨0x100, 1, 0, 32, 0xFF01, 0, 0, 0, 0x101⟩, -- GZC_ARRAY_CTL: GATE_DELAY, GATE_EN (08 R229)
  ⟨0x108, 1, 0, 64, 0, 0xFFFFFFFF00000000, 0, 0, 0⟩, -- GZC_ROW_DRY: SEEN, NOW (08 R218)
  ⟨0x110, 1, 0, 64, 0, 0, 0, 0, 0⟩, -- GZC_COL_HELD: NOW (08 R218)
  ⟨0x118, 1, 0, 64, 0, 0x1FFFFFFFF, 0, 0, 0⟩, -- GZC_COL_SEEN: SEEN (08 R218)
  ⟨0x120, 1, 0, 64, 0, 0, 0, 0, 0⟩, -- GZC_STALL_LATCH: latch-window beats (08 R212, R230)
  ⟨0x128, 1, 0, 64, 0, 0, 0, 0, 0⟩, -- GZC_STALL_BANK: ns (08 R218)
  ⟨0x130, 1, 0, 64, 0, 0, 0, 0, 0⟩, -- GZC_STALL_GATE: ns (08 R218)
  ⟨0x138, 1, 0, 64, 0, 0, 0, 0, 0⟩, -- GZC_STALL_DRY: ns (08 R218)
  ⟨0x140, 1, 0, 64, 0, 0, 0, 0, 0⟩, -- GZC_STALL_COL: ns (08 R218)
  ⟨0x148, 1, 0, 32, 0, 0, 0, 0, 0⟩, -- GZC_GATED: UNGATES, GROUPS (08 R222)
  ⟨0x180, 1, 0, 64, 0, 0, 0, 0, 0⟩, -- GZC_AG_LINES: count (09 R243)
  ⟨0x188, 1, 0, 64, 0, 0, 0, 0, 0⟩, -- GZC_AG_ZERO: count (09 R243)
  ⟨0x190, 1, 0, 64, 0, 0, 0, 0, 0⟩, -- GZC_AG_BLOCKS: count (09 R243)
  ⟨0x198, 1, 0, 64, 0, 0, 0, 0, 0⟩, -- GZC_AG_DESC: count (09 R243)
  ⟨0x1C0, 1, 0, 32, 0, 0, 0, 0, 0⟩, -- GZC_WSTATE: ESC_COUNT, GROUP, ESC, FORMAT, TSHIFT (10 R261)
  ⟨0x1C8, 1, 0, 32, 0, 0xF0000, 0, 0, 0⟩, -- GZC_BANK_EXP: MIX1, MIX0, OVF1, OVF0, TSHIFT1, TSHIFT0 (10 R261)
  ⟨0x1D0, 1, 0, 64, 0, 0, 0, 0, 0⟩, -- GZC_ESC_LOADED: count (10 Registers)
  ⟨0x1D8, 1, 0, 64, 0, 0, 0, 0, 0⟩, -- GZC_ESC_APPLIED: count (10 Registers)
  ⟨0x1E0, 1, 0, 64, 0, 0, 0, 0, 0⟩, -- GZC_ESC_EXTRA: count (10 Registers)
  ⟨0x200, 1, 0, 32, 0, 0, 0, 0, 0⟩, -- GZC_THRESH: VALID, FMT, SAT, SUGGEST, MAXLEN, EXP (11 R273-R275)
  ⟨0x208, 1, 0, 32, 0x1, 0, 0x100, 0, 0⟩, -- GZC_GLEAN_CTL: CLEARING, CLEAR, MODE (11 R280)
  ⟨0x210, 1, 0, 32, 0, 0, 0, 0, 0⟩, -- GZC_GLEAN_SEQ: write-backs (11 R280)
  ⟨0x218, 1, 0, 32, 0x3FF, 0, 0, 0, 0⟩, -- GZC_GLEAN_INDEX: INDEX (11 R281)
  ⟨0x220, 1, 0, 64, 0, 0, 0, 0, 0⟩, -- GZC_GLEAN_BIN: selected bin (11 R281)
  ⟨0x228, 1, 0, 64, 0, 0, 0, 0, 0⟩, -- GZC_GLEAN_VALUES: count (11 R279)
  ⟨0x230, 1, 0, 64, 0, 0, 0, 0, 0⟩, -- GZC_GLEAN_CLIP_HI: count (11 R279)
  ⟨0x238, 1, 0, 64, 0, 0, 0, 0, 0⟩, -- GZC_GLEAN_CLIP_LO: count (11 R279)
  ⟨0x240, 1, 0, 64, 0, 0, 0, 0, 0⟩, -- GZC_GLEAN_CDOM: count (11 R279)
  ⟨0x248, 1, 0, 64, 0, 0, 0, 0, 0⟩, -- GZC_MINT_PARAM: beats (11 R271)
  ⟨0x280, 1, 0, 32, 0x1FF, 0, 0x600, 0, 0x40⟩, -- GZC_CS_CTL: CLEAR, DIAG, WINDOW (12 Registers)
  ⟨0x288, 1, 0, 32, 0, 0, 0, 0, 0xFF00⟩, -- GZC_CS_STATUS: RECORD, DIAG_BUSY, DIAG_DONE, VERDICT, LOC_COL, LATER (12 R288-R290)
  ⟨0x290, 1, 0, 64, 0, 0, 0, 0, 0⟩, -- GZC_CS_FIRST: TAG, window, token (12 R288)
  ⟨0x298, 1, 0, 64, 0, 0, 0, 0, 0⟩, -- GZC_CS_RESID: residual (12 R288)
  ⟨0x2A0, 1, 0, 64, 0, 0, 0, 0, 0⟩, -- GZC_CS_DIAG: SELF, column bits (12 R289)
  ⟨0x2A8, 1, 0, 64, 0, 0, 0, 0, 0⟩, -- GZC_CS_WINDOWS: count (12 Registers)
  ⟨0x2B0, 1, 0, 64, 0, 0, 0, 0, 0⟩, -- GZC_CS_FAILS: count (12 Registers)
  ⟨0x2B8, 1, 0, 64, 0, 0, 0, 0, 0⟩, -- GZC_CS_ENTRY_FAILS: count (12 Registers)
  ⟨0x300, 1, 0, 64, 0, 0, 0, 0, 0⟩, -- GZC_MV_BEATS: count (13 Registers)
  ⟨0x308, 1, 0, 64, 0, 0, 0, 0, 0⟩, -- GZC_MV_LINES: count (13 Registers)
  ⟨0x310, 1, 0, 64, 0, 0, 0, 0, 0⟩, -- GZC_MV_STALL: ns (13 Registers)
  ⟨0x318, 1, 0, 64, 0, 0, 0, 0, 0⟩, -- GZC_MV_CS_FIRST: TAG, block, POS_MASK (13 R325)
  ⟨0x320, 1, 0, 64, 0, 0, 0, 0, 0⟩, -- GZC_MV_CS_RESID: residual (13 R325)
  ⟨0x328, 1, 0, 64, 0, 0, 0, 0, 0⟩, -- GZC_MV_CS_BLOCKS: count (13 Registers)
  ⟨0x330, 1, 0, 64, 0, 0, 0, 0, 0⟩, -- GZC_MV_CS_FAILS: count (13 Registers)
  ⟨0x338, 1, 0, 32, 0, 0x40000000, 0, 0, 0⟩] -- GZC_MV_STATUS: RECORD, OVF, TSHIFT, LATER (13 R325, R317)

def rows_stoS : List Row := [
  ⟨0, 1, 0, 32, 0x7, 0x40000000, 0, 0, 0⟩, -- STO_NSP_CFG: BUSY, REFUSED, DIRECT_KIB, STEPS (14 R349, R357)
  ⟨0x8, 1, 0, 32, 0, 0, 0x1, 0, 0⟩, -- STO_NSP_CTL: CLEAR_CONF (14 R358)
  ⟨0x10, 1, 0, 64, 0, 0, 0, 0, 0⟩, -- STO_CACHE_HITS: count (14 Registers)
  ⟨0x18, 1, 0, 64, 0, 0, 0, 0, 0⟩, -- STO_CACHE_MISSES: count (14 Registers)
  ⟨0x20, 1, 0, 64, 0, 0, 0, 0, 0⟩, -- STO_CACHE_WB: count (14 Registers)
  ⟨0x28, 1, 0, 32, 0, 0, 0, 0, 0⟩, -- STO_CACHE_DIRTY: count (14 Registers)
  ⟨0x30, 1, 0, 64, 0, 0, 0, 0, 0⟩, -- STO_NSP_ECC: UNCORR, CORRECTED (14 Registers)
  ⟨0x38, 1, 0, 64, 0, 0, 0, 0, 0⟩, -- STO_NSP_ERR_ADDR: UNCORR, address (14 Registers)
  ⟨0x40, 1, 0, 64, 0, 0, 0, 0, 0⟩, -- STO_NSP_GAPS: count (14 R338)
  ⟨0x100, 16, 8, 64, 0, 0, 0, 0, 0⟩, -- STO_NSP_CONF_Wb: wide conflicts (14 R339)
  ⟨0x180, 16, 8, 64, 0, 0, 0, 0, 0⟩] -- STO_NSP_CONF_Nb: narrow conflicts (14 R339)

def rows_stoB : List Row := [
  ⟨0, 1, 0, 64, 0, 0, 0, 0, 0⟩, -- STO_BULK_ECC: UNCORR, CORRECTED (14 Registers)
  ⟨0x8, 1, 0, 64, 0, 0, 0, 0, 0⟩, -- STO_BULK_ERR_ADDR: UNCORR, address (14 Registers)
  ⟨0x40, 12, 4, 32, 0, 0, 0, 0, 0xFFFF0000⟩, -- STO_BULK_GRANULEg: PARTITION, SLOT, LEASE (14 R358)
  ⟨0x100, 48, 8, 64, 0, 0, 0, 0, 0⟩, -- STO_BULK_CONF_Wb: wide conflicts (14 R339)
  ⟨0x280, 48, 8, 64, 0, 0, 0, 0, 0⟩, -- STO_BULK_CONF_Nb: narrow conflicts (14 R339)
  ⟨0x400, 1, 0, 32, 0x8000003F, 0, 0, 0, 0x80000002⟩, -- STO_PATROL_CTL: ENABLE, RATE (14 R356)
  ⟨0x408, 1, 0, 64, 0, 0, 0, 0, 0⟩] -- STO_PATROL_STATUS: PASSES, POS (14 R356)

def rows_kvl : List Row := [
  ⟨0, 1, 0, 32, 0xFF01, 0, 0x2, 0, 0x800⟩, -- KVL_CTL: REPLAY_LIMIT, RESET, ENABLE (16 R416)
  ⟨0x8, 1, 0, 64, 0, 0, 0, 0, 0⟩, -- KVL_STATUS: OWNER, TRAIN_FAILS, RESETS, DOWN_CAUSE, POLARITY, LANE_MAP, STATE (16 R417)
  ⟨0x10, 1, 0, 64, 0, 0, 0, 0, 0⟩, -- KVL_PEER_IDENT: REVISION, IDENT (16 R397)
  ⟨0x18, 1, 0, 64, 0, 0, 0, 0, 0⟩, -- KVL_CREDIT: DATA, CTRL (16 R404)
  ⟨0x20, 1, 0, 64, 0, 0, 0, 0, 0⟩, -- KVL_FEC: uncorrectable, corrected (16 Registers)
  ⟨0x28, 1, 0, 64, 0, 0, 0, 0, 0⟩, -- KVL_RETRY: discarded, resent (16 Registers)
  ⟨0x30, 1, 0, 64, 0, 0, 0, 0, 0⟩, -- KVL_ERRORS: REFUSED, PROTO, units discarded (16 R398, R401, R410)
  ⟨0x38, 1, 0, 64, 0, 0, 0, 0, 0⟩, -- KVL_FRAMES: accepted, sent (16 Registers)
  ⟨0x40, 1, 0, 64, 0, 0, 0, 0, 0⟩, -- KVL_DOWN_TIME: time (16 R417)
  ⟨0x48, 1, 0, 32, 0, 0xF, 0, 0, 0⟩, -- KVL_EVENT: REFUSED, TRAIN_FAIL, DOWN, UP (16 Registers)
  ⟨0x50, 1, 0, 32, 0xFFFF, 0, 0, 0, 0⟩, -- KVL_TXEQ: PRESET per lane (16 Registers)
  ⟨0x800, 256, 8, 64, 0, 0, 0, 0, 0⟩] -- KVL_RGRANTr: 64 remote-grant slots of four words (16 R408, R417)

def rows_snp : List Row := [
  ⟨0, 1, 0, 64, 0xFFFF01FFFFF7FFFF, 0, 0, 0, 0x3E800202004F640⟩, -- SNP_CFG: ZC_TIMEOUT, PREROLL, FRAME_BCLK, TRISTATE, SLOTS_M1, DW, SW, BCLK_EDGE, FSYNC_EDGE, DELAY, OFFSET (22 R562)
  ⟨0x8, 1, 0, 32, 0, 0, 0x7, 0, 0⟩, -- SNP_CTL: START, STOP, FLUSH (22 Registers)
  ⟨0x10, 1, 0, 64, 0, 0, 0, 0, 0⟩, -- SNP_STATUS: FRAME_MEAS, PREROLL_LEFT, ERR, LOSS_CAUSE, STATE (22 R569)
  ⟨0x18, 1, 0, 64, 0, 0, 0, 0, 0⟩, -- SNP_LAST_FSYNC: time (22 R549)
  ⟨0x20, 2, 8, 64, 0xFFFFFFFFFFFFF, 0, 0, 0, 0⟩, -- SNP_IROUTEr: MASK, PACK, G-1, ENABLE, TALLY_EN, TALLY (22 Registers)
  ⟨0x30, 2, 8, 64, 0x3FFFFFFFFFFFFFF, 0, 0, 0, 0⟩, -- SNP_OROUTEr: MASK, PACK, G-1, ENABLE, UNDERRUN, N, LAG (22 Registers)
  ⟨0x40, 2, 4, 32, 0xFFFF, 0, 0, 0, 0⟩, -- SNP_OHOLDERr: FN, core slot (22 Registers)
  ⟨0x48, 1, 0, 32, 0, 0x1FF, 0, 0, 0⟩, -- SNP_EVENT: CLOCK_LOST .. RESYNC (22 Registers)
  ⟨0x50, 1, 0, 64, 0, 0, 0, 0, 0⟩, -- SNP_FRAMES: count (22 Registers)
  ⟨0x58, 1, 0, 64, 0, 0, 0, 0, 0⟩, -- SNP_FRAME_ERR: count (22 Registers)
  ⟨0x60, 1, 0, 64, 0, 0, 0, 0, 0⟩, -- SNP_LOSSES: count (22 Registers)
  ⟨0x68, 1, 0, 64, 0, 0, 0, 0, 0⟩, -- SNP_OVERRUN: per route (22 Registers)
  ⟨0x70, 1, 0, 64, 0, 0, 0, 0, 0⟩, -- SNP_UNDERRUN: per route (22 Registers)
  ⟨0x78, 1, 0, 64, 0, 0, 0, 0, 0⟩, -- SNP_LATE: per route (22 Registers)
  ⟨0x80, 1, 0, 64, 0, 0, 0, 0, 0⟩, -- SNP_RESYNC: per route (22 Registers)
  ⟨0x88, 1, 0, 64, 0, 0, 0, 0, 0⟩, -- SNP_ZC_TIMEOUTS: count (22 Registers)
  ⟨0x100, 32, 4, 32, 0x1FFFF, 0, 0, 0, 0x4000⟩, -- SNP_OGAINs: PENDING, MUTE, GAIN (22 R561)
  ⟨0x200, 8, 8, 64, 0, 0, 0, 0, 0⟩] -- SNP_IGRANTr: two grants of four words (22 Registers)

def rows_msh : List Row := [
  ⟨0, 1, 0, 32, 0xFFFF, 0, 0, 0, 0x64⟩, -- MSH_CTL: ACK_TIMEOUT (15 R386)
  ⟨0x8, 1, 0, 64, 0, 0x400000, 0, 0, 0⟩, -- MSH_ROUTE_STATUS: GEN, DRAIN, STATE, BANK, OVERLAP (15 R371, R373)
  ⟨0x10, 1, 0, 64, 0, 0, 0, 0, 0⟩, -- MSH_ROUTE_TIME: T_s (15 R373)
  ⟨0x18, 1, 0, 64, 0, 0, 0, 0, 0⟩, -- MSH_DROPPED: flits (15 Registers)
  ⟨0x20, 4, 8, 64, 0, 0, 0, 0, 0⟩, -- MSH_PORTp: STATE, RETRAINS, RETRIES (15 R363-R364)
  ⟨0x40, 5, 8, 64, 0, 0, 0, 0, 0⟩, -- MSH_FLITSp: flits (15 Registers)
  ⟨0x80, 4, 8, 64, 0, 0x8000000000000000, 0, 0, 0⟩, -- MSH_WIN_STATUSs: OVERLAP, OPEN count, deposits refused (15 R382, R385)
  ⟨0xA0, 4, 8, 64, 0, 0x8000000000000000, 0, 0, 0⟩, -- MSH_GRANT_STATUSs: OVERLAP, VALID count, timeouts (15 R382, R386)
  ⟨0x100, 64, 8, 64, 0, 0, 0, 0, 0⟩, -- MSH_OVRi: override entries (15 R369)
  ⟨0x300, 24, 8, 64, 0, 0, 0, 0, 0⟩, -- MSH_TRANSITi: transit entries (15 R370)
  ⟨0x1000, 2048, 8, 64, 0, 0, 0, 0, 0⟩, -- MSH_WINs_w: 4 slots x 64 windows x 8 words (15 R378)
  ⟨0x5000, 1024, 8, 64, 0, 0, 0, 0, 0⟩] -- MSH_GRANTs_g: 4 slots x 64 grants x 4 words (15 R379)

def rows_isl : List Row := [
  ⟨0, 1, 0, 32, 0, 0, 0, 0, 0⟩] -- ISL_FIELD: UTX_SLOT, PRESENT, FREQ_MHZ (23 Registers)

def rows_islS : List Row := [
  ⟨0, 1, 0, 32, 0x13D, 0, 0x200, 0, 0⟩, -- ISL_CTLs: FLUSH, STORE_EN, POST_MODE, PRE_MODE, RESET (23 Registers)
  ⟨0x8, 1, 0, 64, 0, 0x4, 0, 0, 0x1⟩, -- ISL_STATUSs: ATTN_COUNT, PF_HELD, PM_HELD, CTL_REFUSED, RESYNC, IN_RESET (23 R598)
  ⟨0x10, 1, 0, 64, 0, 0, 0, 0, 0⟩, -- ISL_COUNTSs: done, REFUSED (23 R589-R590)
  ⟨0x18, 1, 0, 64, 0, 0, 0, 0, 0⟩, -- ISL_ERRs: address (23 R590)
  ⟨0x20, 1, 0, 64, 0, 0, 0, 0, 0⟩, -- ISL_PROTOs: RESYNC, count errors (23 R585, R596)
  ⟨0x28, 1, 0, 64, 0, 0, 0, 0, 0⟩, -- ISL_ZERO_FILLs: count (23 R595)
  ⟨0x30, 1, 0, 64, 0, 0, 0, 0, 0⟩] -- ISL_UTX_OVF: count (23 R593)

def rows_islU : List Row := [
  ⟨0, 256, 4, 32, 0, 0, 0, 0, 0⟩] -- ISL_USERs_i: user registers (23 R580)

/-- The blocks of the register space (R424-R426). -/
inductive Block where
  | axb
  | pwr
  | hst
  | hstVf
  | vfMsix
  | ledv
  | tly
  | que
  | queM
  | fld
  | tbs
  | gzc
  | stoS
  | stoB
  | kvl
  | snp
  | msh
  | isl
  | islS
  | islU
deriving DecidableEq, Repr

def Block.rows : Block → List Row
  | .axb => rows_axb
  | .pwr => rows_pwr
  | .hst => rows_hst
  | .hstVf => rows_hstVf
  | .vfMsix => rows_vfMsix
  | .ledv => rows_ledv
  | .tly => rows_tly
  | .que => rows_que
  | .queM => rows_queM
  | .fld => rows_fld
  | .tbs => rows_tbs
  | .gzc => rows_gzc
  | .stoS => rows_stoS
  | .stoB => rows_stoB
  | .kvl => rows_kvl
  | .snp => rows_snp
  | .msh => rows_msh
  | .isl => rows_isl
  | .islS => rows_islS
  | .islU => rows_islU

/-- The block that holds offset `off`, and the offset within it (R424-R426); none where no block lies. -/
def locate (off : Nat) : Option (Block × Nat) :=
  if off < 0x2000 then some (.axb, off)
  else if off < 0x3000 then some (.pwr, off - 0x2000)
  else if off < 0x4000 then some (.hst, off - 0x3000)
  else if off < 0x8000 then some (.axb, off)
  else if off < 0x10000 then none
  else if off < 0x14000 then some (.tly, off - 0x10000)
  else if off < 0x100000 then none
  else if off < 0x110000 then some (.queM, off - 0x100000)
  else if off < 0x210000 then some (.que, (off - 0x100000) % 0x10000)
  else if off < 0x1000000 then none
  else if off < 0x2900000 then
    let w := (off - 0x1000000) % 0x40000
    if w < 0x1000 then some (.fld, w)
    else if w < 0x2000 then some (.tbs, w - 0x1000)
    else if w < 0x20000 then none
    else if w < 0x24000 then some (.gzc, (w - 0x20000) % 0x1000)
    else if w < 0x28000 then none
    else if w < 0x28100 then some (.isl, w - 0x28000)
    else if w < 0x28500 then some (.islS, (w - 0x28100) % 0x100)
    else if w < 0x29000 then none
    else if w < 0x2A000 then some (.islU, (w - 0x29000) % 0x400)
    else if w < 0x30000 then none
    else if w < 0x31000 then some (.stoS, (w - 0x30000) % 0x400)
    else if w < 0x32000 then some (.stoB, w - 0x31000)
    else if w < 0x34000 then none
    else if w < 0x35000 then some (.kvl, w - 0x34000)
    else if w < 0x36000 then none
    else if w < 0x36800 then some (.snp, (w - 0x36000) % 0x400)
    else if w < 0x38000 then none
    else if w < 0x3F000 then some (.msh, w - 0x38000)
    else none
  else if off < 0x4000000 then none
  else
    let w := (off - 0x4000000) % 0x100000
    if w < 0x2000 then none
    else if w < 0x3000 then some (.hstVf, w - 0x2000)
    else if w < 0x4000 then some (.vfMsix, w - 0x3000)
    else if w < 0xC000 then none
    else if w < 0xD000 then some (.ledv, w - 0xC000)
    else none

/-- The row of the register at `off`, if a register begins there. -/
def row? (off : Nat) : Option Row :=
  match locate off with
  | none => none
  | some (b, o) => b.rows.find? (fun r => r.holds o)

/-- What the register at `off` holds after a reset of its block. -/
def resetOf (off : Nat) : Word :=
  match row? off with
  | none => 0
  | some r => BitVec.ofNat 64 r.reset

end Sys2Proof.Machine.Reg
end

