-- ==== Sys2Proof/Machine/State.lean ====
section
/-! DEFINITION. The machine's state, all of it plain data: the register file (every register of spec/ at its offset),
the stores, and beside them every piece of state that the spec gives the module and that no register shows. Tables are
lists with rising keys (Machine/Table.lean). `State.reset` is the module with its entry at 0 V. -/

namespace Sys2Proof.Machine

/-- Why the machine stops with a fault. No command of this model faults; the constructor keeps the type inhabited. -/
inductive Fault where
  /-- Raised by nothing: every command has an effect the spec gives (safe). -/
  | none
deriving DecidableEq, Repr

/-- Why a command is refused without a meaning. -/
inductive Refusal where
  /-- Raised by `exec` for a command of the table that has no meaning yet (safe). -/
  | notModelled (mnemonic : String)
deriving DecidableEq, Repr

/-- The power state of a field (R91); `moving` is FLD_PWR_STATE.STATE 4, in transition. -/
inductive Power where
  | off | base | retain | full | moving
deriving DecidableEq, Repr

/-- A latched high word or a staged low word of a requester (R16). -/
structure Latch where
  who : Who
  off : Nat
  staged : Bool
  word : Nat
deriving DecidableEq, Repr

/-- State of one field that its registers do not show: power domain (R91), timebase node (chapter 03), pace unit (chapter
04), beat monitor (R53-R54), housekeeper and watchdogs (chapter 18), configuration frames, patches and scrubbing (chapter
05), store ports and patrol (chapter 14). -/
structure FieldSt where
  power : Power := .off
  baseAt : Nat := 0              -- wafer time at which the base domain came on
  /- timebase node -/
  joined : Bool := false         -- step 5 of R66 reached
  retrainUntil : Nat := 0        -- R68: end of the retraining of its links
  captEdge : Nat := 0            -- captures taken and not yet read, one bit an input (R81)
  captSets : List (Nat × Nat) := []  -- settings of TBS_CAPT_CTL [15:0] with the time from which each counts, newest first (R83)
  syncAt : Nat := 0              -- wafer time of the last exchange with its parent (R63)
  skewSince : Option Nat := none -- OFFSET beyond half the bound of R64 since
  slewSince : Option Nat := none -- slewing at its limit since
  /- pace unit -/
  paceOn : Bool := false         -- the loop has started: its partition has gone ON in the present FULL state (R99)
  polSets : List (Nat × Word) := []    -- accepted writes of FLD_PACE_POLICY not yet latched: arrival and value, newest first (R109)
  slackSets : List (Nat × Word) := []  -- the same of FLD_PACE_SLACK
  common : List (Nat × Option Word × Option Word) := []  -- R110: target boundary, policy and slack, oldest first
  markMin : Option Int := none   -- least slack counted in the step (R111)
  markCount : Nat := 0
  mark0 : List (Nat × Nat) := [] -- frame and stamp of the two most recent marks 0 (R106), newest first
  firstStep : Bool := true       -- no previous step in the present FULL state (R112)
  beyond : Nat := 0              -- previous want: 0 inside, 1 above CEILING, 2 below FLOOR (R112)
  wasLow : Bool := false         -- previous step ended below FLOOR by a cap (R117)
  hotSince : Option Nat := none  -- thermal cap 0 with T_j at 95 degrees or above since (R116)
  tripped : Bool := false        -- R116, R300
  coolSince : Option Nat := none -- T_j at or below 85 degrees since (R300)
  trips : List Nat := []         -- times of its thermal trips (R300)
  lastStep : Nat := 0            -- wafer time of its last pace step
  missed : Nat := 0              -- steps for which STEP_SEQ did not advance (R118)
  loopHeld : Bool := false       -- the loop is held by PACE_FAULT (R118)
  /- beat monitor -/
  bmStart : Nat := 0             -- start of the window in progress
  bmWindow : Nat := 1            -- WINDOW of the window in progress (R54)
  bmRail : Bool := false         -- the rail changed in the window in progress
  /- housekeeper and tellers -/
  hkUp : Bool := false
  hkBeatAt : Nat := 0            -- its last heartbeat (R465)
  hkHangs : List Nat := []       -- times of its hangs (R299)
  beatAt : List (Nat × Nat) := []    -- per core teller: time of the last advance; 3: the last check
  /- configuration -/
  listed : Bool := false         -- the active build lists it (FIELDS, R133)
  part : Nat := 0xFF             -- owning partition of the active build
  routes : Bool := false         -- its router has loaded its first route entries (R388)
  frames : List (Nat × List (Nat × Byte)) := []  -- configuration frames by frame address (R137)
  frameCrc : List (Nat × Nat) := []              -- frame checks (R159); an unwritten frame has the check of zeros
  blocks : List (Nat × Nat) := []   -- fabric blocks: 1 + core slot, or 16 + slot for an island
  spare : List Byte := []        -- the patch buffer (R19)
  spareUsed : List Nat := []     -- spare groups used by patches (R157)
  spareTotal : Nat := 0
  scrubNext : Nat := 0           -- position of the next frame in the scrub cycle (R158)
  scrubAt : Nat := 0
  repair : List Nat := []        -- frame addresses under repair, oldest first (R160)
  retiring : Nat := 0            -- retired in order (R31): 1 its routes are to be rewritten, 2 they drain
  unloc : List (Nat × Nat) := [] -- CS_UNLOCALISED times per slot (R292)
  soft : List (Nat × Nat) := []  -- COLUMN_SOFT verdicts: slot * 64 + column, time (R292)
  patrolAt : Nat := 0
deriving DecidableEq, Repr

/-- A lease (R301), with the running revocation's deadline and the SCOPE its record will carry (R304, R309). -/
structure Lease where
  kind : Nat := 0
  state : Nat := 0               -- 0 FREE, 1 HELD, 2 QUARANTINED
  owner : Nat := 0
  hkind : Nat := 0
  holder : Nat := 0
  gen : Nat := 0
  resource : Nat := 0
  inflight : Nat := 0
  due : Nat := 0
  scope : Nat := 0
deriving DecidableEq, Repr

/-- A window entry (R378); `due` is the drain bound of a close (R387). -/
structure Window where
  base : Nat := 0
  size : Nat := 0
  scrip : Nat := 0
  mode : Nat := 0
  state : Nat := 0               -- 0 CLOSED, 1 OPEN, 2 QUARANTINED
  gen : Nat := 0
  hkind : Nat := 0
  holder : Nat := 0
  lease : Nat := 0
  outstanding : Nat := 0
  refused : Nat := 0
  deposited : Nat := 0
  poolLease : Nat := 0           -- the KIND 1 lease beside LEASE
  peerDst : Nat := 0             -- R408: the holder DST at the peer
  due : Nat := 0
  closing : Bool := false        -- closed with its leases not yet released
deriving DecidableEq, Repr

/-- A grant entry (R379). -/
structure Grant where
  base : Nat := 0
  size : Nat := 0
  scrip : Nat := 0
  total : Nat := 0               -- SCRIP of the window (R383)
  state : Nat := 0               -- 0 NONE, 1 VALID, 2 STALE
  window : Nat := 0
  wgen : Nat := 0
  ownerFn : Nat := 0
  ownerSlot : Nat := 0
  mode : Nat := 0
  sent : Nat := 0
deriving DecidableEq, Repr

/-- On whose behalf a message was sent, so that its answer reaches it. -/
inductive Job where
  | push (fn s num : Nat)        -- a command of a core: PUSH, or a REMOTE MINT or MV
  | fetch (item : Nat)           -- a FETCH item, by its start number
  | bar2 (n : Nat)               -- a posted write of VF n
  | record (port r k : Nat)      -- record `k` of an input route of a sensor port
  | island (fn s tag : Nat)      -- a store-side tap request
  | signal (fn s num : Nat)      -- a SIGNAL core command
  | item (item : Nat)            -- an item's completion signal
  | forward (tally : Nat)        -- tally forwarding (R516)
  | snpSignal (port : Nat)       -- a sensor port's tally signal
  | relay (port tag : Nat)       -- a Kevenlink peer's message, with its own tag; 65536 where its answer is dropped (R413)
  | opened (ownerKey w : Nat)      -- a GRANT in its way to the holder
deriving DecidableEq, Repr

/-- A message sent and not yet answered (R386): the grant it used, as `use` stood then, and when it was sent. -/
structure Sent where
  holder : Nat                   -- key of the holder's grant table
  grant : Nat
  tag : Nat
  units : Nat
  time : Nat
  dst : Nat
  job : Job
  use : Grant := {}
deriving DecidableEq, Repr

/-- Flits of a message in one lane of a router's input port (R360): 0 north, 1 east, 2 south, 3 west, 4 local. At the local
port, which has no transit entries, `lane` is the message's partition. -/
structure Span where
  fn : Nat
  inp : Nat
  lane : Nat
  n : Nat
deriving DecidableEq, Repr

/-- A message in the mesh: its head and the flits beside it stand at router `loc`, the flits that follow in the buffers of
`trail`, nearest first (R361). -/
structure Flight where
  msg : Msg
  loc : Nat
  inp : Nat
  lane : Nat
  hops : Nat
  here : Nat
  trail : List Span := []
deriving DecidableEq, Repr

/-- A route generation being committed (R373): its phase (1 written, 2 switched), the switch time and the new entries. -/
structure RouteCommit where
  phase : Nat
  gen : Nat
  tSwitch : Nat
deriving DecidableEq, Repr

/-- The mesh: banks, disabled and retraining links, messages in flight, windows, grants. -/
structure MeshSt where
  gen : Nat := 0
  ovr : List (Nat × Word) := []       -- key (fn * 2 + bank) * 64 + i (R369)
  transit : List (Nat × Word) := []   -- key (fn * 2 + bank) * 24 + i (R370)
  dead : List Nat := []               -- links disabled under R364: fn * 4 + port
  flights : List Flight := []         -- by the arrival of their heads at the routers where they stand
  served : List (Nat × Nat) := []     -- lane served last: key (fn * 4 + port) * 4 + channel (R361)
  arrived : List Msg := []            -- ejected, not yet taken by the unit
  commit : Option RouteCommit := none
  owed : Bool := false                -- a retirement or link failure still wants a new generation (R373)
  rebuildAt : Option Nat := none      -- end of the rebuilding of the timebase tree after a failover (R62)
  windows : List (Nat × Window) := [] -- key ownerKey * 64 + w; ownerKey fn * 64 + slot code (R380)
  grants : List (Nat × Grant) := []   -- key holderKey * 64 + g
  sent : List Sent := []
  nextTag : Nat := 0
deriving DecidableEq, Repr

/-- A read the endpoint has asked of the host (R434-R436) and what it serves. -/
inductive ReadFor where
  | ring (queue count slots : Nat)
  | fetch (item dst len : Nat)
  | void                         -- abandoned: its completions are discarded (R441, R508)
deriving DecidableEq, Repr

structure DmaRead where
  tag : Nat
  func : Nat
  addr : Nat
  len : Nat
  what : ReadFor
deriving DecidableEq, Repr

/-- What the module has put on its pins and links, oldest first. -/
inductive Out where
  | dmaWrite (func addr : Nat) (bytes : List Byte) (poison relaxed : Bool)   -- with EP (R436) and Relaxed Ordering (R419)
  | dmaRead (func tag addr len : Nat)
  | msix (func vector addr data : Nat)
  | kvlUnit (port kind arg : Nat)              -- a Kevenlink control unit (R399)
  | kvlFrame (port seq : Nat) (msg : Msg)      -- a Kevenlink frame (R400)
  | snpFrame (port : Nat) (slots : List (Option Int))   -- a frame on SDOUT by slot, none for high impedance (R546)
  | island (fn s kind : Nat) (words : List Nat)   -- words towards an island (chapter 23)
  | utx (lane word : Nat)
  | smbus (bytes : List Byte)
  | jtag (ir dr : Nat)
  | pmbus (fn cmd : Nat)
  | strobe
deriving DecidableEq, Repr

/-- A queue's state beside its registers (R492-R508). -/
structure QueueSt where
  slots : List (Nat × List Byte) := []   -- slots fetched from the ring, by count
  asked : Nat := 0                       -- count up to which slots have been asked for
  failed : List Nat := []                -- counts whose read failed (R436)
  orders : List (Nat × Nat) := []        -- TAIL and arrival order of each accepted doorbell, oldest first (R452)
  waitSince : Option Nat := none         -- registration of the oldest item's wait (R501)
  wake : Option (Nat × Nat) := none      -- RESULT and T_W of the TWAKE that answered it (R515)
  expired : Option Nat := none           -- the wait has timed out: the tally's value then (R501, R503)
  held : List (Who × Nat × Nat) := []    -- doorbells that arrived during FLUSHING: sender, value, page (R508)
  flushAt : Option Nat := none           -- end of the flush in progress (R508)
deriving DecidableEq, Repr

/-- An item started and not yet completed (R452, R501). -/
structure Started where
  num : Nat                              -- start number
  item : Item
  fn : Nat                               -- serving slot
  slot : Nat
  cmds : List Nat := []                  -- core command TAGs not retired
  status : Option Nat := none            -- completion status once known
  cmdStatus : Nat := 0
  detail : Nat := 0
  copyWin : Option Nat := none           -- copy window in use (R496)
  asked : Nat := 0                       -- FETCH: bytes asked of the host
  buf : List (Nat × List Byte) := []     -- FETCH: data read and not yet deposited, by offset in the range
  answered : Nat := 0                    -- FETCH: bytes whose deposit has been answered
  fail : Option (Nat × Nat) := none      -- FETCH: status and detail it will end with
  acted : Bool := false                  -- its own command has begun its effect
  ended : Nat := 0                       -- order in which it got its status (R452)
deriving DecidableEq, Repr

/-- A completion record waiting for ring space (R503). -/
structure Waiting where
  ctx : Nat                              -- p * 64 + c, or 4096 + m
  bytes : List Byte
  num : Nat
deriving DecidableEq, Repr

/-- A wait registered at the tally unit (R515). -/
structure TallyWait where
  who : Nat                              -- 0 .. 4095 queue, 8192 + fn * 4 + s core slot
  tally : Nat
  target : Nat
deriving DecidableEq, Repr

/-- Host endpoint, queues, items, events, tallies. -/
structure HostSt where
  linkUp : Bool := false
  perst : Bool := true                   -- PERST_N asserted (low), as its pull leaves it
  funcs : List (Nat × FuncCfg) := []     -- configuration space per function
  vfEnable : Bool := false
  numVfs : Nat := 0
  bar2Log : Nat := 34                    -- log2 of the VF BAR2 size, 16 GiB at reset (R423)
  heldDb : List (Nat × Nat × Nat) := []  -- VF, queue, value held under R431
  reads : List DmaRead := []
  lastFn : Nat := 0                      -- function that the DMA engine served last (R435)
  nextTag : Nat := 0
  queues : List (Nat × QueueSt) := []
  nextOrder : Nat := 1
  started : List Started := []
  nextNum : Nat := 1
  nextEnd : Nat := 1
  waiting : List Waiting := []
  evtRoute : List (Nat × Word) := []     -- routing tables in force: func * 64 + i (R512)
  evtOwed : List (Nat × Nat) := []       -- records lost since the last EVENTS_LOST record, per function
  waits : List TallyWait := []
  advances : List (Nat × List (Nat × Nat)) := []  -- values a tally has taken and when, newest first (R515)
  shadow : List (Nat × Word) := []       -- tally values of the standby anchor's unit (R517)
  shadowWaits : List TallyWait := []
deriving DecidableEq, Repr

/-- The default fill of a function's configuration space after reset: nothing enabled (log 8). -/
def FuncCfg.init : FuncCfg :=
  { busMaster := false, msixEnable := false, funcMask := false, d3hot := false, relaxed := false,
    tag10 := false, mps := 128, mrrs := 512 }

/-- Fuses (R24, R141-R143, R447). -/
structure Fuses where
  okLo : Nat                             -- the fuse map, as AXB_FIELD_OK reads
  okHi : Nat
  grade : Nat
  step : Nat                             -- silicon step (R539)
  keyDigest : List (Nat × List Byte)     -- per programmed key slot: the SHA-384 of its public key (R141)
  fwDigest : List Byte                   -- the firmware key digest (R447)
  revoked : Nat
  svn : List (Nat × Nat)                 -- minimum SVN per key slot
  aesKey : Option (List Byte)            -- module AES key (R142, R143)
  minSeries : Nat
  curves : List (Nat × List (Nat × Nat)) -- characterised curves: a field's 16 points, rail code and rate (R43, R526)
  serial : Nat                           -- device serial number (R418)
deriving DecidableEq, Repr

/-- Carrier flash (R446-R448). -/
structure Flash where
  bootBytes : List Byte                  -- boot record
  retireLo : Nat
  retireHi : Nat
  seqTable : List Byte                   -- default sequencing table
  fwA : Option FwImage
  fwB : Option FwImage
  slots : List (Nat × Image)             -- image slots written
  source : Nat                           -- active-build record: its source (R147), 0 none
  subsystem : Nat                        -- Subsystem ID (R420)
deriving DecidableEq, Repr

/-- The carrier: pins, straps, entry measurement, watchdog, SMBus, JTAG, PMBus. -/
structure Carrier where
  fuses : Fuses
  flash : Flash
  railsOn : Bool := false                -- I/O and SerDes rails
  entryUp : Bool := false                -- the entry has risen through 42 V
  powers : List Nat := []                -- entry power samples of the last 1 ms, newest first (R85)
  lowSince : Option Nat := none          -- below 41 V since (R86)
  highSince : Option Nat := none
  outSince : Option Nat := none          -- outside 40-60 V since
  tripSince : Option Nat := none         -- outside 36-63 V since
  overSince : Option Nat := none         -- mean above 13.5 kW since
  inSince : Option Nat := none           -- back in 40-60 V since, after a trip
  tick : Nat := 0                        -- carrier time in ns, counted by samples (R85)
  trip : Bool := false                   -- off by a carrier trip
  emergency : Bool := false              -- emergency power-down running
  capActive : Bool := false              -- the bursar holds the module cap (R88)
  rstLow : Bool := false                 -- RST_N low
  resetWait : Option Nat := none         -- a module reset at step 5 of R601, with its CAUSE
  merged : Nat := 0                      -- causes merged in it
  strapPins : Nat := 0                   -- pins: [1:0] SMB_ADDR, [2] TEST_MODE, [3] FORCE_RECOVERY (1: low)
  strobeAt : Nat := 0                    -- last strobe of the carrier watchdog (R466)
  laneF55 : Bool := false                -- host-lane switch (R21)
  refClock : Bool := true                -- TB_REFCLK valid
  regOffset : Nat := 0                   -- SMBus REG_OFFSET (R608)
  alertLow : Bool := false               -- SMB_ALERT_N driven low (R609)
  alertAck : Bool := false               -- acknowledged since FAULT_LATCH was last set
  statReady : Bool := false              -- STAT_READY_N, STAT_FAULT_N, STAT_THERM_N driven low (R604)
  statFault : Bool := false
  statTherm : Bool := false
  gpioOut : Nat := 0                     -- USR_GPIO levels driven and output enables (R615)
  gpioOe : Nat := 0
  jtagIr : Nat := 1                      -- JTAG instruction register (R611)
  boundary : Nat := 0                    -- boundary-scan cells
  pinMode : Nat := 0                     -- pins: 0 their function, 1 driven by the boundary cells, 2 high impedance (R612)
  pmbusMiss : List (Nat × Nat) := []     -- polls missed in a row per regulator (R610)
  pmbusAt : List (Nat × Nat) := []       -- wafer time of each regulator's last poll
  regulator : List Nat := []             -- enabled regulators
deriving DecidableEq, Repr

/-- A switch-on or switch-off waiting for its step (R94, R484, R623). -/
structure Switch where
  fn : Nat
  target : Power
  entry : Nat                            -- whole-entry steps: the table entry, counted from 1; 0 packed (R623)
  who : Nat                              -- partition, or 0xFE for module power-up
deriving DecidableEq, Repr

/-- One entry of the sequencing table in force (R96). -/
structure SeqEntry where
  full : Bool
  fns : List Nat
  extra : Nat
  init : Nat
deriving DecidableEq, Repr

/-- A field still to be loaded by the configuration engine (R149 steps 6-7, R151, R155). -/
structure ToLoad where
  fn : Nat
  part2 : Bool
deriving DecidableEq, Repr

/-- A partition of the active build (R474) and its power command in progress (R99). -/
structure PartSt where
  defined : Bool := false
  contexts : Nat := 0
  queues : Nat := 0
  blocks : Nat := 0                      -- tally blocks
  label : List Byte := []
  loading : Bool := false                -- its RISING loads its fields (START), not WAKE
  failing : Nat := 0                     -- STATUS to end FALLING with
  cmd : Option Nat := none               -- start number of the item that commanded it
  drainAt : Option Nat := none           -- RETAIN: end of the drain (R100)
  copyWins : List (Nat × Nat × Nat × Nat × Nat) := []  -- copy window, host address, length, item number, bytes left (R496)
deriving DecidableEq, Repr

/-- An island of the active build (R571-R577). -/
structure IslCfg where
  present : Bool := false
  attach : Nat := 0
  regs : Nat := 0                -- USER_REGS
  utx : Nat := 0xFF
deriving DecidableEq, Repr

/-- What the ledger holds of a field's loaded cores (R525, R527): slot, GZC_SHAPE and GZC_SHAPE2 of each, and its spare
groups. -/
structure LedField where
  cores : List (Nat × Word × Word) := []
  spareFree : Nat := 0
  spareTotal : Nat := 0
deriving DecidableEq, Repr

/-- The bursar: boot, schedule, active build, loads, ledger. -/
structure Bursar where
  running : Bool := false
  recovery : Bool := false
  testMode : Bool := false
  poweredUp : Bool := false              -- step 8 of R93 done
  seq : List SeqEntry := []              -- the sequencing table in force
  minGap : Nat := 2000
  defInit : Nat := 0
  ons : List Switch := []                -- switch-ons waiting, in order
  offs : List Switch := []               -- switch-offs waiting, in order
  onAt : Nat := 0                        -- earliest start of the next sequencing step
  offAt : Nat := 0                       -- earliest start of the next switch-off step
  /- active build -/
  image : Option Image := none           -- source of the active full build (R146)
  fields : List (Nat × Nat × Nat) := []  -- FIELDS: fn, partition, pace group (R133)
  indep : Bool := false                  -- TIMEBASE mode (R134)
  parts : List (Nat × PartSt) := []
  carve : List (Nat × Nat) := []         -- fn * 12 + granule: initial holder slot (R475)
  kvlOwned : List (Nat × Nat × Nat) := []  -- port, ENABLE, tally blocks (R477)
  snpOwned : List Nat := []
  utxOwned : List Nat := []
  marks : List (Nat × List Nat) := []    -- PACE: mark offsets per group (R135)
  groups : List (Nat × List Nat) := []   -- PACE: fields per group
  label : List Byte := []
  tags : List (Nat × Nat × List Byte) := []  -- accepted LEDGER records: TAG_ID, PART, content (R530)
  /- loads -/
  partialImg : Option (Nat × Image) := none  -- a partial load in progress: its partition and image (R155)
  loadBy : Option Nat := none            -- start number of the item that commanded the load
  lateErr : Bool := false                -- a section of the load in progress has failed after its commit point (R152, R162)
  toLoad : List ToLoad := []             -- fields waiting for step 6 of R149
  partImgs : List (Nat × Image) := []    -- committed partial images, per partition (R486)
  settling : List Nat := []              -- partitions whose START the load still awaits (R149 step 8)
  ledgerSeq : Nat := 0
  ledgerTime : Nat := 0
  led : List (Nat × LedField) := []
  bootGone : List Nat := []              -- fields retired at boot: in no entry (R29, R534)
  islCfg : List (Nat × IslCfg) := []     -- fn * 4 + s
  islFreq : List (Nat × Nat) := []
  lastM : Nat := 15                      -- the management queue served last (R461)
deriving DecidableEq, Repr

/-- What the gleaner has counted for a command that has not yet written it back (R278). -/
structure GleanAcc where
  bins : List (Nat × Nat) := []          -- key histogram * 64 + bin
  values : Nat := 0
  hi : Nat := 0
  lo : Nat := 0
  cdom : Nat := 0
  mode : Nat := 0                -- MODE when the command reached the gleaner (R277)
deriving DecidableEq, Repr

/-- A core command, from its submission to its retirement (R183, R191). `desc` is the descriptor copy of R233, `window`
the checksum window length of R287, `total` the tokens of a RUN (fewer after an ADDRESS stop, R236), `written` the tokens
written or entries minted, `first` the first failing token (R285), `conv` that the mint has taken its last vector,
`tail` that its tail has passed the retirement point of R191, `unacked` the deposits of a REMOTE command or a PUSH not
yet acknowledged, `mints` the MINTs of its bank that must drain first (R193), `lw` the LOAD_W whose weights it uses. -/
structure Cmd where
  num : Nat
  w : CmdWords
  desc : List Byte := []
  window : Nat := 64
  status : Nat := 0
  detail : Nat := 0
  total : Nat := 0
  written : Nat := 0
  first : Option Nat := none
  failWin : Option Nat := none
  conv : Bool := false
  tail : Bool := false
  unacked : Nat := 0
  sent : Nat := 0                -- PUSH: bytes sent, and the grant it uses as its last message found it (R387)
  grant : Option Grant := none
  expiry : Option Nat := none    -- WAIT: wafer time of its timeout
  result : Option Nat := none    -- SIGNAL and WAIT: what the tally unit answered
  glean : GleanAcc := {}
  pre : Nat := 0                 -- PRE_MODE and POST_MODE at its issue (R583, R587)
  post : Nat := 0
  gate : Nat := 0                -- every group it uses is ungated from then on (R222)
  began : Bool := false          -- MINT: the mint has spent a beat on it (R211)
  head : Option (List Byte) := none  -- LOAD_W: the head of its scale tensor, once read (R247, R248)
  streamed : Bool := false       -- MV: its last segment has streamed (R318)
deriving DecidableEq, Repr

/-- The weights that one row holds latched (R204, R246): format, ESC flag and the row record. -/
structure RowW where
  fmt : Nat
  esc : Bool
  codes : List Byte
deriving DecidableEq, Repr

/-- An entry of a row feeder's queue (R207); a weight-load token carries subscales by their keys in `CoreSt.subs` (R248). -/
inductive QEnt where
  | token (num idx : Nat) (lanes : List Int)
  | load (num : Nat) (w : RowW) (subs : List (Nat × Nat))
  | marker (num : Nat)
deriving DecidableEq, Repr

/-- One array row: its weights, its feeder's queue, and what the generators have delivered to it: every FEED command
before `gnum`, and `gidx` tokens of that one. -/
structure RowSt where
  w : Option RowW := none
  q : List QEnt := []
  gnum : Nat := 0
  gidx : Nat := 0
deriving DecidableEq, Repr

/-- One side-list entry (R251). -/
structure Esc where
  k : Nat
  n : Nat
  v : Int
  rel : Bool
deriving DecidableEq, Repr

/-- An activation token between broadcast and accumulator: the rows that have broadcast it with their lanes, its partial
sums so far, and the columns whose trees have joined it and whose banks have taken it (R208, R209, R215). -/
structure Tok where
  num : Nat
  idx : Nat
  lw : Nat
  lanes : List (Nat × List Int) := []
  sums : List (Nat × Int) := []
  joined : List Nat := []
  merged : List (Nat × Int) := []
  extra : List Esc := []         -- overflow entries read for it, and how many have been (R256)
  ovf : Nat := 0
deriving DecidableEq, Repr

/-- The weights that tokens broadcast before the present latch window still need: the LOAD_W in force then, with its words,
tensor shift and subscales (R213). -/
structure Latched where
  num : Nat
  words : CmdWords := ⟨0, 0, 0, 0⟩
  shift : Int := 0
  subs : List (Nat × Nat) := []
deriving DecidableEq, Repr

/-- An escape table (R253) with the LOAD_W it belongs to, and the index of its first entry that fails R252. -/
structure EscTab where
  lw : Nat
  entries : List Esc := []
  bad : Option Nat := none
  used : Bool := false           -- a RUN has met the bad entry
  poison : Option Nat := none    -- poisoned word met in loading it (R355)
deriving DecidableEq, Repr

/-- A loaded parameter set of the mint (R271), for command `num`. -/
structure Params where
  num : Nat
  curve : List Nat := []
  resc : List Nat := []
  bad : Option (Nat × Nat) := none   -- status and DETAIL that the load ends its command with (R268, R355)
deriving DecidableEq, Repr

/-- A minted vector in the drain: command, address of its first byte, and the columns written with their bytes. -/
structure Minted where
  num : Nat
  addr : Nat
  remote : Bool
  bytes : List (Nat × Byte)      -- byte offset from `addr`
deriving DecidableEq, Repr

/-- The MV that streams (R317-R325). -/
structure MvSt where
  num : Nat
  tshift : Int := 0
  batch : Nat := 0               -- batch streaming, from N_FIRST
  seg : Nat := 0
  sums : List (Nat × Int) := []  -- row sums in formation, by row
  cs : List (Nat × Int) := []    -- checksum lanes by position, with the row sums subtracted
  lines : List (Nat × List Byte) := []  -- lines of the scale tensor read and still needed (R321)
deriving DecidableEq, Repr

/-- A bank of row sums that waits for the mint (R319). -/
structure MvBank where
  num : Nat
  tshift : Int
  rows : List (Nat × Int)
deriving DecidableEq, Repr

/-- The checksum window in formation (R287). -/
structure CsWin where
  num : Nat := 0
  index : Nat := 0
  failed : Bool := false
  xbar : List (Nat × Int) := []  -- key row * 64 + lane
  acc : List (Nat × Nat) := []   -- A_n by column, modulo 2^48
deriving DecidableEq, Repr

/-- The mismatch record's frozen values (R288). -/
structure Frozen where
  complete : Bool
  index : Nat
  num : Nat
  run : CmdWords
  load : CmdWords
  xbar : List (Nat × Int)
  acc : List (Nat × Nat)
deriving DecidableEq, Repr

/-- Chaff state of a feeder (R119-R123): 0 real tokens, 1 in a gap, 2 ramping down, 3 silent, 4 ramping up. -/
structure Ramp where
  phase : Nat := 3
  entry : Nat := 0
  since : Nat := 0
  window : Nat := 0              -- CHAFF_WINDOW and DENSITY in force for the gap (R126)
  hist : List Bool := []         -- its last 64 real beat slots, newest first: whether a real token took them (R119)
  slot : Nat := 0                -- place in the present 16 beat slots, and how many of them were active (R119, R123)
  busy : Nat := 0
deriving DecidableEq, Repr

/-- A line of a core's cache (R346): its field line and whether it is dirty. -/
structure CacheLine where
  line : Nat := 0x10000000000    -- no field line
  dirty : Bool := false
deriving DecidableEq, Repr

/-- A core slot. -/
structure CoreSt where
  intake : List Cmd := []
  feed : List Cmd := []
  mint : List Cmd := []
  mv : List Cmd := []
  push : List Cmd := []
  ctrl : List Cmd := []
  nextNum : Nat := 1
  retire : List Word := []       -- the retirement FIFO, oldest first (R187)
  haltHead : Bool := false       -- the command that caused the halt stands at the intake head (R186)
  flushAt : Option Nat := none   -- end of the flush in progress (R200)
  flushN : Nat := 0              -- commands that it has discarded
  rows : List (Nat × RowSt) := []
  subs : List (Nat × Nat) := []  -- subscale of 32 lanes: key (row * 2 + half) * 64 + column (R248)
  lw : Nat := 0                  -- number of the LOAD_W whose weights are in force
  lwCmd : CmdWords := ⟨0, 0, 0, 0⟩
  lwShift : Int := 0             -- TSHIFT in force (R250)
  old : List Latched := []       -- weights of earlier latch windows that tokens in the trees still need (R213)
  mixed : Bool := false          -- rows latched in two formats (R214)
  escs : List EscTab := []       -- at most two tables (R253)
  toks : List Tok := []
  lines : List (Nat × List Byte) := []   -- line buffer, held longest first (R238)
  segs : List (Nat × List Byte) := []    -- segments of the transposed blocks in use, by row and segment (R241)
  slotRows : List Nat := []      -- rows whose feeders have had their slot of the present beat; whether one broadcast (log 22)
  slotReal : Bool := false
  acc : List (Nat × Nat) := []   -- bank entries: (bank * 2048 + entry) * 64 + column, modulo 2^48 (R257)
  bankT : List (Nat × Int) := [] -- recorded TSHIFT per bank (R250)
  bankEmpty : List Nat := [0, 1] -- banks empty since their last record could form (R250)
  bankHold : List Nat := []      -- banks whose last RUN has retired with no MINT since (R211)
  lastRun : List (Nat × Nat) := []   -- last RUN issued into each bank
  mintPos : Nat := 0             -- beats spent on the vector in the mint
  params : List Params := []     -- at most two sets (R271)
  drain : Option Minted := none
  remote : List (Nat × Option Byte) := []  -- bytes of a REMOTE command not yet sent, by window address
  remoteOf : Nat := 0            -- its number
  thrKey : Option (Nat × Nat) := none    -- OUT_EXP and OUT_FMT of the accumulation (R273)
  thrLen : Nat := 0
  thrLive : Option (Nat × Nat × Nat × Nat) := none  -- SUGGEST, SAT, MAXLEN, EXP * 2 + FMT once recorded
  clearing : Bool := false       -- GLEAN_CTL.CLEARING (R280)
  vbuf : List (Nat × List Int) := []     -- vector buffers by MV number (R312)
  mvRun : Option MvSt := none
  mvBanks : List MvBank := []    -- at most two (R319)
  win : CsWin := {}
  frozen : Option Frozen := none
  badReads : List (Nat × Nat) := []  -- uncorrectable reads since the last flush: address bits [47:16] and whole address (R296)
  entryRes : Nat := 0            -- residual of the last entry vector that failed (R286, R309)
  ramps : List (Nat × Ramp) := []        -- rows 0-31, path slices 32-95
  gated : List Nat := []         -- rail-gated slice groups (R222)
  waking : List (Nat × Nat) := []    -- gated groups that ungate, and when they are ungated (R222)
  quiet : List (Nat × Nat × Option Nat) := [] -- group, wafer time since which it is quiesced, GATE_DELAY if it may be gated (R229)
  gates : List Nat := []         -- times of the last four gatings, newest first (R222)
  retired : List Nat := []       -- slice groups retired by patches (R157)
  unrepairable : Bool := false   -- R295
  held : Bool := false           -- held in reset for a patch or restart
  cache : List (Nat × CacheLine) := []   -- key set * 4 + way (R346)
  plru : List (Nat × Nat) := []  -- tree pseudo-LRU state per set
  shareAt : Option Nat := none   -- end of a share change (R349)
  shareTo : Nat := 0
deriving DecidableEq, Repr


/-- A frame in a port's replay buffer (R402). -/
structure KvlFrame where
  seq : Nat
  msg : Msg
  resends : Nat := 0
deriving DecidableEq, Repr

/-- An entry of the outbound tag table (R407, R409): whom the peer's answer goes to, with the sender's own tag. The entries of
GRANTs, which the peer answers only to refuse them, have indexes from 1024 on and the window in `units`. -/
structure KvlTag where
  idx : Nat
  kind : Nat
  tag : Nat
  fn : Nat
  unit : Nat
  slot : Nat                     -- remote-grant slot of a DEPOSIT, or 64
  units : Nat
deriving DecidableEq, Repr

/-- A remote-grant slot (KVL_RGRANTr). -/
structure RGrant where
  peerBase : Nat := 0
  size : Nat := 0
  peerWindow : Nat := 0
  state : Nat := 0               -- 0 free, 1 valid, 2 closing
  wgen : Nat := 0
  holderFn : Nat := 0
  holderSlot : Nat := 0
  inflight : Nat := 0
  sent : Nat := 0
deriving DecidableEq, Repr

/-- A Kevenlink port (chapter 16) beside its registers. -/
structure KvlSt where
  since : Nat := 0               -- entry to the present state (R396)
  backoff : Option Nat := none   -- end of the wait after three failures (R397)
  seen : Bool := false           -- the peer's IDENT has been received
  peerSeen : Bool := false       -- it came with SEEN 1
  sentSeen : Bool := false       -- an IDENT with SEEN 1 has been sent
  identAt : Nat := 0
  /- sender -/
  txSeq : Nat := 0
  replay : List KvlFrame := []   -- oldest first
  lackAdv : Nat := 0             -- time of the last LACK advance (R402)
  outq : List Msg := []          -- messages waiting for credits
  peerCtrl : Nat := 0            -- IDENT credits, FREED counts and credits taken (R404)
  peerData : Nat := 0
  freedCtrl : Nat := 0
  freedData : Nat := 0
  takenCtrl : Nat := 0
  takenData : Nat := 0
  /- receiver -/
  rxNext : Nat := 0
  rxAny : Bool := false          -- a frame has been accepted since ACTIVE
  sinceLack : Nat := 0
  lackAt : Nat := 0              -- last LACK sent
  lnakAt : Option Nat := none    -- the LNAK outstanding (R403)
  discard : Bool := false        -- discarding until the next REPLAY
  myCtrl : Nat := 0              -- FREED counts of this end
  myData : Nat := 0
  held : List Msg := []          -- DATA frames accepted and not yet passed on (R409)
  outTags : List KvlTag := []
  rgrants : List (Nat × RGrant) := []
deriving DecidableEq, Repr


/-- A closed input record waiting for scrip or transmission (R557). -/
structure SnpRec where
  k : Nat
  bytes : List Byte
  sent : Nat := 0                -- bytes sent
  unacked : Nat := 0
  refused : Bool := false        -- a message of it was refused (R558)
deriving DecidableEq, Repr

/-- An input route of a sensor port (R552-R558). -/
structure SnpIn where
  route : Word := 0              -- the SNP_IROUTEr value in force
  k : Nat := 0                   -- number of the next record since the last enable
  frames : List (List Int) := [] -- frames of the record in progress, oldest first
  time : Nat := 0                -- stamp and frame count of its first frame
  frame : Nat := 0
  gap : Bool := false
  resync : Bool := false
  restart : Bool := false
  skip : Nat := 0                -- RESYNC: frames of the flushed record still to discard (R566)
  closed : List SnpRec := []     -- oldest first, at most 8
  flight : List SnpRec := []     -- sent whole, not all acknowledged
  wasOver : Bool := false        -- the previous frame was overrun (R568)
deriving DecidableEq, Repr

/-- An output route of a sensor port (R559). -/
structure SnpOutR where
  win : Bool := false            -- its window has been opened
  fill : List (Nat × Nat) := []  -- bytes of the record in writing, by place in the ring
  next : Nat := 0                -- number of the next record to arrive whole
  present : List (Nat × Nat) := []  -- records present: number, frame edges' time of arrival
  base : Nat := 0                -- the record played first since START or a flush
  first : Option Nat := none     -- frame number in which `base` starts
  came : Option Nat := none      -- frames' edges 0 since `base` arrived, counted (R559)
  mask : Nat := 0                -- MASK of the record being played, as it stood at its first frame (log 30)
  wasUnder : Bool := false
deriving DecidableEq, Repr

/-- A setting of an output slot: gain, mute, and the route it plays, 2 for none (R561). -/
structure SnpSet where
  gain : Nat := 0x4000
  mute : Bool := false
  src : Nat := 2
deriving DecidableEq, Repr

/-- An output slot: setting in force, pending setting with its timeout's start, the last sample emitted, the last sample
of its route. -/
structure SnpSlot where
  cur : SnpSet := {}
  pend : Option (SnpSet × Nat) := none
  last : Int := 0
  hold : Int := 0
deriving DecidableEq, Repr

/-- A sensor port (chapter 22) beside its registers. -/
structure SnpSt where
  edgeAt : Nat := 0              -- wafer time of the present frame's edge 0
  cur : List Int := []           -- samples of the present frame by slot
  live : Bool := false           -- a frame is in progress
  bad : Nat := 0                 -- frame errors in a row
  frameNo : Nat := 0             -- frame count of the present frame (R557)
  fresh : Bool := true           -- RUNNING not yet entered since START
  mute : Bool := false           -- revoked or taken down since its last START: it signals no more (R567)
  ins : List (Nat × SnpIn) := []
  outs : List (Nat × SnpOutR) := []
  slots : List (Nat × SnpSlot) := []
  wasErr : Bool := false
deriving DecidableEq, Repr


/-- A row-token that the pre-feeder tap owes a row feeder (R583-R585). -/
structure PfDue where
  num : Nat
  idx : Nat
  row : Nat
  zmask : Nat
  fmt : Nat
  last : Bool
deriving DecidableEq, Repr

/-- A request of the store-side tap not yet answered (R589): its words, the message tag of its signal once sent, and its
answer once known: STATUS and RDATA. -/
structure SsPend where
  op : Nat
  addr : Nat
  data : Nat
  tally : Nat
  tag : Option Nat := none
  answer : Option (Nat × Nat) := none
deriving DecidableEq, Repr

/-- A user-register read that waits for the island's answer (R580, R581). -/
structure IslRead where
  who : Who
  off : Nat
  time : Nat
  late : Bool := false
deriving DecidableEq, Repr

/-- A word that waits at the post-mint tap for the island: `fin` is the command that it ends under DIVERT (R587, R588). -/
structure PmWord where
  fin : Option Nat
  cls : Nat
  words : List Nat
deriving DecidableEq, Repr

/-- An island's adapters (chapter 23). -/
structure IslSt where
  rstLow : Bool := true
  upAt : Nat := 0                -- release from its last reset (R78)
  zero : Bool := false           -- taps answer in its place until the next RUN, MINT or MV issues (R595)
  due : List PfDue := []
  inq : List (List Nat) := []    -- PF_IN words taken and not yet matched, at most 32
  ended : Option Nat := none     -- RUN whose END came early (R585)
  inItem : Bool := false         -- the island is inside a RUN's words on PF_IN (R596)
  resync : Bool := false         -- discarding PF_IN words up to END (R585, R596)
  outq : List (List Nat) := []   -- PF_OUT words that the island has not yet taken (R583, R586)
  pmq : List PmWord := []        -- PM_OUT words that the island has not yet taken, at most 16 (R587)
  ss : List SsPend := []
  reads : List IslRead := []
  writes : List IslRead := []    -- write requests that the island may not have accepted (R581)
  rxFill : List (Nat × Nat) := []   -- words in the receive FIFO of each lane, and when they were counted (R593)
  rxAt : List (Nat × Nat) := []
  attnX : Option Nat := none     -- when the last ATTN pulse that its adapter took crosses, or crossed (R77)
  attnAt : Option Nat := none    -- wafer time of its last notice (R582)
  attnWait : Bool := false
deriving DecidableEq, Repr


/-- The whole machine. -/
structure State where
  pending : List Instr
  now : Nat                              -- wafer time in ns
  clock : Bool                           -- wafer time runs (R57, R93 step 5)
  fresh : Nat                            -- free values drawn so far (log 1); the model's own
  reply : Option Word                    -- data returned to the last access
  regs : List (Nat × Word)
  latches : List Latch
  mem : List Host.Cell                   -- stores by wafer address (R7); an unlisted byte reads 0 (R343)
  poison : List (Nat × Bool)             -- 64-bit store words that carry poison, by address / 8 (R355)
  flipped : List (Nat × Bool)            -- 64-bit store words with a correctable error
  fields : List (Nat × FieldSt)
  cores : List (Nat × CoreSt)            -- key fn * 4 + s
  kvl : List (Nat × KvlSt)               -- by port
  snp : List (Nat × SnpSt)               -- by port
  isl : List (Nat × IslSt)               -- key fn * 4 + s
  leases : List (Nat × Lease)
  mesh : MeshSt
  host : HostSt
  car : Carrier
  brs : Bursar
  out : List Out
deriving DecidableEq, Repr

/-- The fuses of the module at reset: an undegraded module, a key in slot 0 as AXB_KEY_STATE resets (log 4). -/
def Fuses.default : Fuses :=
  { okLo := 0xFFFFFFFFFFF3F0FC, okHi := 0x3F0FCFFFF, grade := 0x0A, step := 0x11, keyDigest := [(0, List.replicate 48 0)],
    fwDigest := List.replicate 48 0, revoked := 0,
    svn := [], aesKey := none, minSeries := 0, curves := [], serial := 0 }

/-- The carrier flash at reset: no firmware, no image, nothing stored (log 4). -/
def Flash.default : Flash :=
  { bootBytes := [], retireLo := 0, retireHi := 0, seqTable := [], fwA := none, fwB := none, slots := [], source := 0,
    subsystem := 0 }

/-- The module right after reset: no power at the entry, every register at its reset value, every store empty. -/
def State.reset : State :=
  { pending := [], now := 0, clock := false, fresh := 0, reply := none, regs := [], latches := [], mem := [],
    poison := [], flipped := [], fields := [], cores := [], kvl := [], snp := [], isl := [],  leases := [], mesh := { }, host := { },
    car := { fuses := Fuses.default, flash := Flash.default }, brs := { }, out := [] }

end Sys2Proof.Machine
end

