-- ==== Sys2Proof/Machine/Operands.lean ====
section
/-! DEFINITION. The operand fields of core commands (chapter 07), queue items (R493) and mesh messages (R377), the masks
of their reserved bits, and the addresses that name fields, stores and units (R7). -/

namespace Sys2Proof.Machine

/-! ## Wafer addresses (R7) -/

def addrFn (a : Nat) : Nat := a / 2 ^ 40 % 256
def addrOff (a : Nat) : Nat := a % 2 ^ 40
/-- First address of the near scratchpad of core slot `s` of field `fn`. -/
def nearBase (fn s : Nat) : Nat := fn * 2 ^ 40 + 0x100000000 + s * 0x400000
/-- Bank of a near scratchpad that holds the line of a wafer address in it (R331). -/
def nearBank (a : Nat) : Nat := addrOff a % 0x400000 / 128 % 16
/-- Row of that bank (R331). -/
def nearBankRow (a : Nat) : Nat := addrOff a % 0x400000 / 128 / 16
/-- Bank of the bulk store that holds the line of a wafer address in it (R340). -/
def bulkBank (a : Nat) : Nat := 4 * (addrOff a / 0x1000000) + addrOff a / 128 % 4
/-- First address of bulk granule `g` of field `fn` (R340). -/
def granBase (fn g : Nat) : Nat := fn * 2 ^ 40 + g * 0x1000000
/-- First address of the output buffer of sensor-port half `h` of field `fn`. -/
def sbufBase (fn h : Nat) : Nat := fn * 2 ^ 40 + 0x900000000 + h * 0x10000

end Sys2Proof.Machine

namespace Sys2Proof

open Machine

/-! ## Core commands (R190, R191 and the layouts after it) -/

def CmdWords.op (c : CmdWords) : Nat := bitsOf c.w0 7 0
def CmdWords.notify (c : CmdWords) : Bool := c.w0.getLsbD 8
def CmdWords.barrier (c : CmdWords) : Bool := c.w0.getLsbD 9
def CmdWords.tag (c : CmdWords) : Nat := bitsOf c.w0 31 16

/- LOAD_W -/
def CmdWords.lwRows (c : CmdWords) : Nat := bitsOf c.w0 63 32
def CmdWords.waddr (c : CmdWords) : Nat := bitsOf c.w1 47 0
def CmdWords.format (c : CmdWords) : Nat := bitsOf c.w1 51 48
def CmdWords.group (c : CmdWords) : Nat := bitsOf c.w1 53 52
def CmdWords.esc (c : CmdWords) : Bool := c.w1.getLsbD 54
def CmdWords.saddr (c : CmdWords) : Nat := bitsOf c.w2 47 0
def CmdWords.escCount (c : CmdWords) : Nat := bitsOf c.w2 63 48
def CmdWords.escAddr (c : CmdWords) : Nat := bitsOf c.w3 47 0

/- RUN and MINT -/
def CmdWords.bank (c : CmdWords) : Nat := bitsOf c.w0 32 32
def CmdWords.accum (c : CmdWords) : Bool := c.w0.getLsbD 33
def CmdWords.descIx (c : CmdWords) : Nat := bitsOf c.w0 63 48
def CmdWords.rowMask (c : CmdWords) : Nat := bitsOf c.w1 31 0
def CmdWords.runCols (c : CmdWords) : Nat := bitsOf c.w1 63 32
def CmdWords.runFirst (c : CmdWords) : Nat := bitsOf c.w2 15 0
def CmdWords.tokens (c : CmdWords) : Nat := bitsOf c.w2 31 16
def CmdWords.kBase (c : CmdWords) : Nat := bitsOf c.w2 51 32
def CmdWords.abase (c : CmdWords) : Nat := bitsOf c.w3 47 0
def CmdWords.curve (c : CmdWords) : Nat := if c.op = 4 then bitsOf c.w0 51 48 else bitsOf c.w0 43 40
def CmdWords.curveEn (c : CmdWords) : Bool := if c.op = 4 then c.w0.getLsbD 52 else c.w0.getLsbD 44
def CmdWords.outFmt (c : CmdWords) : Nat := bitsOf c.w0 55 48
def CmdWords.outExp (c : CmdWords) : Nat := bitsOf c.w0 63 56
def CmdWords.mintFirst (c : CmdWords) : Nat := bitsOf c.w1 15 0
def CmdWords.entries (c : CmdWords) : Nat := bitsOf c.w1 31 16
def CmdWords.rscBase (c : CmdWords) : Nat := bitsOf c.w1 47 32
def CmdWords.rscEn (c : CmdWords) : Bool := c.w1.getLsbD 48
def CmdWords.glean (c : CmdWords) : Bool := if c.op = 4 then c.w0.getLsbD 53 else c.w1.getLsbD 49
def CmdWords.thresh (c : CmdWords) : Bool := c.op == 3 && c.w1.getLsbD 50
def CmdWords.remote (c : CmdWords) : Bool := if c.op = 4 then c.w0.getLsbD 54 else c.w1.getLsbD 51
def CmdWords.oaddr (c : CmdWords) : Nat := bitsOf c.w2 47 0
def CmdWords.ostride (c : CmdWords) : Nat := bitsOf c.w3 31 0
def CmdWords.mintCols (c : CmdWords) : Nat := bitsOf c.w3 63 32

/- MV -/
def CmdWords.mvDesc (c : CmdWords) : Nat := bitsOf c.w0 47 32
def CmdWords.vaddr (c : CmdWords) : Nat := bitsOf c.w1 47 0
def CmdWords.nFirst (c : CmdWords) : Nat := bitsOf c.w3 15 0
def CmdWords.nCount (c : CmdWords) : Nat := bitsOf c.w3 31 16

/- PUSH -/
def CmdWords.src (c : CmdWords) : Nat := bitsOf c.w1 47 0
def CmdWords.dst (c : CmdWords) : Nat := bitsOf c.w2 47 0
def CmdWords.length (c : CmdWords) : Nat := bitsOf c.w3 31 0

/- PACE_MARK, SIGNAL and WAIT -/
def CmdWords.frame (c : CmdWords) : Nat := bitsOf c.w0 39 32
def CmdWords.mark (c : CmdWords) : Nat := bitsOf c.w0 45 40
def CmdWords.tally (c : CmdWords) : Nat := bitsOf c.w0 41 32
def CmdWords.value (c : CmdWords) : Nat := bitsOf c.w1 47 0
def CmdWords.timeout (c : CmdWords) : Nat := bitsOf c.w2 31 0

end Sys2Proof

namespace Sys2Proof.Machine

/-- The bits of each word that an opcode defines (R190 and the layouts of chapter 07); `none` for an undefined opcode. -/
def definedBits (op : Nat) : Option (List Word) :=
  let h : Word := 0xFFFF03FF
  match op with
  | 0x00 => some [h, 0, 0, 0]
  | 0x01 => some [h ||| 0xFFFFFFFF00000000, 0x007FFFFFFFFFFFFF, 0xFFFFFFFFFFFFFFFF, 0x0000FFFFFFFFFFFF]
  | 0x02 => some [h ||| 0xFFFF000300000000, 0xFFFFFFFFFFFFFFFF, 0x000FFFFFFFFFFFFF, 0x0000FFFFFFFFFFFF]
  | 0x03 => some [h ||| 0xFFFF1F0100000000, 0x000FFFFFFFFFFFFF, 0x0000FFFFFFFFFFFF, 0xFFFFFFFFFFFFFFFF]
  | 0x04 => some [h ||| 0x007FFFFF00000000, 0x0000FFFFFFFFFFFF, 0x0000FFFFFFFFFFFF, 0x00000000FFFFFFFF]
  | 0x05 => some [h, 0x0000FFFFFFFFFFFF, 0x0000FFFFFFFFFFFF, 0x00000000FFFFFFFF]
  | 0x08 => some [h ||| 0x00003FFF00000000, 0, 0, 0]
  | 0x09 => some [h, 0, 0, 0]
  | 0x0A => some [h ||| 0x000003FF00000000, 0x0000FFFFFFFFFFFF, 0, 0]
  | 0x0B => some [h ||| 0x000003FF00000000, 0x0000FFFFFFFFFFFF, 0x00000000FFFFFFFF, 0]
  | _ => none

/-- The class queue of an opcode (R191): 0 FEED, 1 MINT, 2 MV, 3 PUSH, 4 CTRL. -/
def classOf (op : Nat) : Nat :=
  match op with
  | 0x01 => 0
  | 0x02 => 0
  | 0x03 => 1
  | 0x04 => 2
  | 0x05 => 3
  | _ => 4

/-- Lanes of one token: 32 with INT8 codes, 64 with INT4 codes (R204). -/
def lanesOf (fmt : Nat) : Nat := if fmt = 1 then 64 else 32

/-- Products of one group (R247): 32, 64 or 128. -/
def groupLen (g : Nat) : Nat := 32 * 2 ^ g

end Sys2Proof.Machine

namespace Sys2Proof

open Machine

/-! ## Queue items (R493) -/

def Item.u (it : Item) (off n : Nat) : Nat := leAt it.bytes off n
def Item.op (it : Item) : Nat := it.u 0 1
def Item.slots (it : Item) : Nat := it.u 1 1
def Item.event (it : Item) : Bool := nbit (it.u 2 2) 0
def Item.fence (it : Item) : Bool := nbit (it.u 2 2) 1
def Item.waitEn (it : Item) : Bool := nbit (it.u 2 2) 2
def Item.signalEn (it : Item) : Bool := nbit (it.u 2 2) 3
def Item.tag (it : Item) : Nat := it.u 4 4
def Item.waitTarget (it : Item) : Nat := it.u 8 6
def Item.waitTally (it : Item) : Nat := it.u 0x0E 2 % 1024
def Item.signalValue (it : Item) : Nat := it.u 0x10 6
def Item.signalTally (it : Item) : Nat := it.u 0x16 2 % 1024
def Item.waitTimeout (it : Item) : Nat := it.u 0x18 4
def Item.arg0 (it : Item) : Nat := it.u 0x1C 4
/-- Whether the item came from a management queue. -/
def Item.managed (it : Item) : Bool := decide (4096 ≤ it.queue)
/-- The partition of the item's queue. -/
def Item.part (it : Item) : Nat := it.queue / 256
/-- Whether bytes `[a, b)` of the item are all zero. -/
def Item.zero (it : Item) (a b : Nat) : Bool := (bytesAt it.bytes a (b - a)).all (· = 0)

/-! ## Mesh messages (R377) -/

/-- Kinds of messages. -/
def Msg.isDeposit (m : Msg) : Bool := m.kind == 1

/-- Whether a message is a deposit (class DATA) or one flit (class CTRL). -/
def Msg.flits (m : Msg) : Nat := 1 + m.len

/-- The field and unit that a message is addressed to: for a DEPOSIT the field of its wafer address, with the unit found
there; otherwise the DST field and unit bytes (R377). -/
def Msg.dstFn (m : Msg) : Nat := addrFn m.dst

/-- The unit byte of a control message's DST. -/
def Msg.dstUnit (m : Msg) : Nat := m.dst % 256

/-- The channel that a message travels its whole path on (R362). -/
def Msg.channel (m : Msg) : Nat := (m.srcUnit + if m.kind = 1 then m.window else 0) % 4

/-- Whether two messages of one lane stand in the same buffers: one channel, one class, one order (R360). -/
def Msg.sameClass (a b : Msg) : Bool := a.channel == b.channel && (a.kind == 1) == (b.kind == 1) && a.yx == b.yx

/-- Flits that a buffer of a message's class holds (R360). -/
def Msg.depth (m : Msg) : Nat := if m.kind = 1 then 8 else 4

/-- Whether a message carries a tag that its sender waits for: a deposit, a GRANT, a signal. -/
def Msg.tagged (m : Msg) : Bool := m.kind == 1 || m.kind == 4 || m.kind == 0x0C

/-- Whether a message is itself an answer: ACK, NAK, TACK or TWAKE. -/
def Msg.isAnswer (m : Msg) : Bool := m.kind == 2 || m.kind == 3 || m.kind == 0x0D || m.kind == 0x0F

end Sys2Proof

namespace Sys2Proof.Machine

/-- The DST word that names a unit of a field (R377). -/
def unitDst (fn unit : Nat) : Nat := fn * 2 ^ 40 + unit

end Sys2Proof.Machine
end

