-- ==== Sys2Proof/Machine/Ops.lean ====
section
/-! DEFINITION. The named operations that the meanings share: reading and writing registers and their fields, free
values, wafer time, the state of fields and core slots, the stores with their ECC (R355), DMA writes and MSI-X messages
(R437), event records (R511, R512) and fault records (R308-R310). -/

namespace Sys2Proof.Machine

/-- The outcome of a command that takes effect. -/
abbrev Out1 := Host.Outcome State Fault Refusal

/-! ## Registers -/

/-- The register at flat offset `off`. -/
def State.rd (st : State) (off : Nat) : Word := tget (Reg.resetOf off) st.regs off

/-- Write the register at flat offset `off`. -/
def State.wr (st : State) (off : Nat) (v : Word) : State := { st with regs := tput (Reg.resetOf off) st.regs off v }

/-- Bits `[hi:lo]` of the register at `off`. -/
def State.rf (st : State) (off hi lo : Nat) : Nat := bitsOf (st.rd off) hi lo

/-- Set bits `[hi:lo]` of the register at `off`. -/
def State.wf (st : State) (off hi lo n : Nat) : State := st.wr off (withBits (st.rd off) hi lo n)

/-- One bit of a register. -/
def State.rb (st : State) (off b : Nat) : Bool := (st.rd off).getLsbD b

/-- Set one bit of a register. -/
def State.setb (st : State) (off b : Nat) : State := st.wf off b b 1

/-- Clear one bit of a register. -/
def State.clrb (st : State) (off b : Nat) : State := st.wf off b b 0

/-- Write a whole register with a number. -/
def State.wn (st : State) (off n : Nat) : State := st.wr off (BitVec.ofNat 64 n)

/-- A whole register as a number. -/
def State.rn (st : State) (off : Nat) : Nat := (st.rd off).toNat

/-- Add to a counter field, modulo its width. -/
def State.add (st : State) (off hi lo n : Nat) : State := st.wf off hi lo (st.rf off hi lo + n)

/-- Add to a counter field, saturating. -/
def State.addSat (st : State) (off hi lo n : Nat) : State :=
  st.wf off hi lo (satN (hi + 1 - lo) (st.rf off hi lo + n))

/-- Return the registers with offsets in `[lo, hi)` to their reset values, and discard their latches and staged words (R16). -/
def State.resetRegs (st : State) (lo hi : Nat) : State :=
  { st with regs := tclear lo hi st.regs, latches := st.latches.filter (fun l => decide (l.off < lo ∨ hi ≤ l.off)) }

/-- Clear the counters with offsets in `[lo, hi)` without a reset of their block: latches and staged words stay (R16). -/
def State.clearRegs (st : State) (lo hi : Nat) : State := { st with regs := tclear lo hi st.regs }

/-- A reset of a requester discards its latches and its staged words (R16). -/
def State.dropRequester (st : State) (who : Who) : State := { st with latches := st.latches.filter (fun l => l.who ≠ who) }

/-- Draw a fresh value that the spec leaves open (log 1). -/
def State.draw (st : State) : Word × State := (Config.freeValue st.fresh, { st with fresh := st.fresh + 1 })

/-- Keep the state as it is unless `c` holds. -/
def State.when (st : State) (c : Bool) (f : State → State) : State := if c then f st else st

/-! ## Fields and core slots -/

def State.field (st : State) (fn : Nat) : FieldSt := tget {} st.fields fn
def State.setField (st : State) (fn : Nat) (f : FieldSt) : State := { st with fields := tput {} st.fields fn f }
def State.core (st : State) (fn s : Nat) : CoreSt := tget {} st.cores (fn * 4 + s)
def State.setCore (st : State) (fn s : Nat) (c : CoreSt) : State := { st with cores := tput {} st.cores (fn * 4 + s) c }
def State.part (st : State) (p : Nat) : PartSt := tget {} st.brs.parts p
def State.setPart (st : State) (p : Nat) (x : PartSt) : State :=
  { st with brs := { st.brs with parts := tput {} st.brs.parts p x } }
def State.queue (st : State) (q : Nat) : QueueSt := tget {} st.host.queues q
def State.setQueue (st : State) (q : Nat) (x : QueueSt) : State :=
  { st with host := { st.host with queues := tput {} st.host.queues q x } }

/-- Bit `fn` of the 84-field pair of registers or fuses. -/
def fieldBit (lo hi fn : Nat) : Bool := if fn < 64 then lo.testBit fn else hi.testBit (fn - 64)

/-- Whether the fuse map marks the field good (R24, R25). -/
def State.fuseOk (st : State) (fn : Nat) : Bool :=
  Config.sitePresent fn && fieldBit (st.rn Reg.AXB_FIELD_OK_LO) (st.rn Reg.AXB_FIELD_OK_HI) fn

/-- Whether the field is recorded as retired (R31). -/
def State.isRetired (st : State) (fn : Nat) : Bool :=
  fieldBit (st.rn Reg.AXB_FIELD_RETIRED_LO) (st.rn Reg.AXB_FIELD_RETIRED_HI) fn

/-- Whether a field may be used: present, good and not retired (R28). -/
def State.usable (st : State) (fn : Nat) : Bool := st.fuseOk fn && !st.isRetired fn

/-- Whether a field is in service: usable, and not being retired (R31). -/
def State.inService (st : State) (fn : Nat) : Bool := st.usable fn && (st.field fn).retiring == 0

/-- Set a field's bit of AXB_FIELD_RETIRED. -/
def State.markRetired (st : State) (fn : Nat) : State :=
  st.setb (if fn < 64 then Reg.AXB_FIELD_RETIRED_LO else Reg.AXB_FIELD_RETIRED_HI) (fn % 64)

/-- The module as it will stand once the fields that are being retired are gone (R31): the basis of new routes. -/
def State.planned (st : State) : State :=
  Config.sites.foldl (fun st fn => if (st.field fn).retiring = 0 then st else st.markRetired fn) st

/-- Whether the field answers accesses (R8): its base domain is on. -/
def State.powered (st : State) (fn : Nat) : Bool := st.usable fn && (st.field fn).power != .off

/-- Whether the field's compute domain runs. -/
def State.isFull (st : State) (fn : Nat) : Bool := st.usable fn && (st.field fn).power == .full

/-- FLD_PWR_STATE.STATE of a power state. -/
def Power.code : Power → Nat
  | .off => 0
  | .base => 1
  | .retain => 2
  | .full => 3
  | .moving => 4

/-- Put a field into a power state; its FLD_PWR_STATE.STATE follows. -/
def State.setPower (st : State) (fn : Nat) (p : Power) : State :=
  (st.setField fn { st.field fn with power := p }).wf (Reg.FLD_PWR_STATE fn) 2 0 p.code

/-- The active anchor's field number (AXB_GRADE.ANCHOR_FN, R25). -/
def State.anchor (st : State) : Nat := st.rf Reg.AXB_GRADE 23 16

/-- The partition that owns field `fn` in the active build, or 0xFF. -/
def State.owner (st : State) (fn : Nat) : Nat := (st.field fn).part

/-- The fields of a partition, ascending. -/
def State.partFields (st : State) (p : Nat) : List Nat :=
  Config.sites.filter (fun fn => (st.field fn).listed && (st.field fn).part = p && p < 16)

/-- The state code of a partition (R99): 0 OFF, 1 RISING, 2 ON, 3 RETAINED, 4 FALLING. -/
def State.partState (st : State) (p : Nat) : Nat := st.rf (Reg.PWR_PART_STATE p) 2 0

/-- Whether a slot holds a core (R177). -/
def State.present (st : State) (fn s : Nat) : Bool := st.rb (Reg.GZC_SHAPE fn s) 31

def State.rows (st : State) (fn s : Nat) : Nat := st.rf (Reg.GZC_SHAPE fn s) 7 0
def State.cols (st : State) (fn s : Nat) : Nat := st.rf (Reg.GZC_SHAPE fn s) 15 8
def State.mvSlices (st : State) (fn s : Nat) : Nat := st.rf (Reg.GZC_SHAPE fn s) 23 16
def State.accDepth (st : State) (fn s : Nat) : Nat := st.rf (Reg.GZC_SHAPE fn s) 47 32
def State.rescaleDepth (st : State) (fn s : Nat) : Nat := st.rf (Reg.GZC_SHAPE fn s) 63 48
def State.feedDepth (st : State) (fn s : Nat) : Nat := st.rf (Reg.GZC_SHAPE2 fn s) 7 0
def State.mintLanes (st : State) (fn s : Nat) : Nat := st.rf (Reg.GZC_SHAPE2 fn s) 15 8
def State.userKib (st : State) (fn s : Nat) : Nat := st.rf (Reg.GZC_SHAPE2 fn s) 63 48

/-- First address of the control area of a slot (R170, R231). -/
def State.ctlBase (st : State) (fn s : Nat) : Nat := nearBase fn s + st.userKib fn s * 1024

/-- Bytes of the direct area of a slot: the user area without the cache region (R345). -/
def State.directLen (st : State) (fn s : Nat) : Nat :=
  st.userKib fn s * 1024 - st.rf (Reg.STO_NSP_CFG fn s) 2 0 * 0x80000

/-- Holding slot of granule `g` of `fn`, or 0xFF (R358). -/
def State.granSlot (st : State) (fn g : Nat) : Nat := st.rf (Reg.STO_BULK_GRANULE fn g) 23 16

/-- Owning partition of granule `g` of `fn`, or 0xFF. -/
def State.granPart (st : State) (fn g : Nat) : Nat := st.rf (Reg.STO_BULK_GRANULE fn g) 31 24

/-- Whether a wafer address range lies wholly in the slot's direct area or in consecutive granules that the slot holds
(R185 check 4, R342, R345). -/
def State.ownRange (st : State) (fn s a len : Nat) : Bool :=
  let near := nearBase fn s
  let inDirect := decide (near ≤ a ∧ a + len ≤ near + st.directLen fn s)
  let o := addrOff a
  let inGran := decide (addrFn a = fn ∧ 0 < len ∧ o + len ≤ 0xC000000) &&
    (List.range 12).all (fun g =>
      !(decide (g * 0x1000000 < o + len ∧ o < (g + 1) * 0x1000000)) || st.granSlot fn g == s)
  inDirect || inGran

/-! ## Stores (chapter 14) -/

/-- One byte of a store; a byte that nothing has written reads 0 (R343). -/
def State.mem8 (st : State) (a : Nat) : Byte := tget 0 st.mem a

/-- Write one byte. -/
def State.setMem8 (st : State) (a : Nat) (b : Byte) : State := { st with mem := tput 0 st.mem a b }

/-- `n` bytes from `a`. -/
def State.load (st : State) (a n : Nat) : List Byte := (List.range n).map (fun i => st.mem8 (a + i))

/-- Little-endian number of `n` bytes at `a`. -/
def State.loadN (st : State) (a n : Nat) : Nat := leNat (st.load a n)

/-- Write bytes from `a` on. -/
def State.setBytes (st : State) : Nat → List Byte → State
  | _, [] => st
  | a, b :: t => State.setBytes (st.setMem8 a b) (a + 1) t

/-- Write bytes from `a` on. A 64-bit word that they cover whole gets valid check bits; an uncorrectable word of which they
cover a part stays uncorrectable (R355). -/
def State.store (st : State) (a : Nat) (bs : List Byte) : State :=
  let lo := (a + 7) / 8
  let hi := (a + bs.length) / 8
  { st.setBytes a bs with poison := tclear lo hi st.poison, flipped := tclear lo hi st.flipped }

/-- Clear a range of a store to zero with valid check bits (R343). -/
def State.zeroRange (st : State) (lo hi : Nat) : State :=
  { st with mem := tclear lo hi st.mem, poison := tclear (lo / 8) ((hi + 7) / 8) st.poison,
            flipped := tclear (lo / 8) ((hi + 7) / 8) st.flipped }

/-- Whether the address lies in a near scratchpad. -/
def isNear (a : Nat) : Bool := decide (0x100000000 ≤ addrOff a ∧ addrOff a < 0x101000000)

/-- Count a corrected or uncorrectable error of the 64-bit word at `a` (R355). -/
def State.eccCount (st : State) (a : Nat) (uncorr : Bool) : State :=
  let fn := addrFn a
  let s := (addrOff a - 0x100000000) / 0x400000
  let regE := if isNear a then Reg.STO_NSP_ECC fn s else Reg.STO_BULK_ECC fn
  let regA := if isNear a then Reg.STO_NSP_ERR_ADDR fn s else Reg.STO_BULK_ERR_ADDR fn
  let st := if uncorr then st.addSat regE 47 32 1 else st.addSat regE 31 0 1
  st.wn regA (a % 2 ^ 48 + if uncorr then 2 ^ 63 else 0)

/-- One pass of the check bits over the 64-bit words from word `w` on: single-bit errors are corrected and written back,
double-bit errors are counted; the answer is the address of the first poisoned word, if any (R355). -/
def State.checkWords (st : State) : Nat → Nat → State × Option Nat
  | 0, _ => (st, none)
  | n + 1, w =>
    let bad := tget false st.poison w
    let one := tget false st.flipped w
    let st := if bad then st.eccCount (w * 8) true
      else if one then { st.eccCount (w * 8) false with flipped := tput false st.flipped w false } else st
    let r := State.checkWords st n (w + 1)
    (r.1, if bad then some (w * 8) else r.2)

/-- Read `n` bytes at `a` through the check bits: the bytes, the address of the first poisoned word if one was read, and
the state with its counts. -/
def State.readEcc (st : State) (a n : Nat) : List Byte × Option Nat × State :=
  let r := if n = 0 then (st, none) else st.checkWords ((a + n - 1) / 8 + 1 - a / 8) (a / 8)
  (st.load a n, r.2, r.1)

/-! ## Host memory and MSI-X -/

/-- Configuration space of a function. -/
def State.func (st : State) (f : Nat) : FuncCfg := tget FuncCfg.init st.host.funcs f

/-- Whether VF `n` exists on the link: VF Enable is set and NumVFs covers it (R420). -/
def State.vfUp (st : State) (n : Nat) : Bool :=
  st.host.linkUp && st.host.vfEnable && decide (1 ≤ n ∧ n ≤ st.host.numVfs ∧ n ≤ 16)

/-- Whether the function may issue requests (R434): its Bus Master Enable is 1; D3hot of PF0 holds every function (R419). -/
def State.canDma (st : State) (f : Nat) : Bool :=
  st.host.linkUp && (f = 0 || st.vfUp f) && (st.func f).busMaster && !(st.func f).d3hot && !(st.func 0).d3hot

/-- Emit on the module's pins and links. -/
def State.emit (st : State) (o : Out) : State := { st with out := st.out ++ [o] }

/-- Payloads of a DMA write: pieces of at most `mps` bytes that do not cross a 4 KiB boundary (R419). -/
def dmaPieces (mps : Nat) : Nat → Nat → List Byte → List (Nat × List Byte)
  | 0, _, _ => []
  | _, _, [] => []
  | fuel + 1, a, bs =>
    let n := max 1 (min mps (4096 - a % 4096))
    (a, bs.take n) :: dmaPieces mps fuel (a + n) (bs.drop n)

/-- A DMA write of the function, in pieces of at most its Max Payload Size; HST_DMA_WR counts its bytes. Only a write of `bulk`
data, and only where the function enables it, carries Relaxed Ordering (R419). -/
def State.dmaWrite (st : State) (f addr : Nat) (bytes : List Byte) (poison : Bool) (bulk : Bool := false) : State :=
  let pcs := dmaPieces (st.func f).mps bytes.length addr bytes
  (pcs.foldl (fun st p => st.emit (.dmaWrite f p.1 p.2 poison (bulk && (st.func f).relaxed))) st).add Reg.HST_DMA_WR 63 0 bytes.length

def msixAddr (f v : Nat) : Nat := if f = 0 then Reg.PF0_MSIX_ADDR v else Reg.VF_MSIX_ADDR f v
def msixData (f v : Nat) : Nat := if f = 0 then Reg.PF0_MSIX_DATA v else Reg.VF_MSIX_DATA f v
def msixPba (f : Nat) : Nat := if f = 0 then Reg.PF0_MSIX_PBA else Reg.VF_MSIX_PBA f

/-- Whether message `v` of the function may be sent now (R437). -/
def State.msixOpen (st : State) (f v : Nat) : Bool :=
  st.canDma f && (st.func f).msixEnable && !(st.func f).funcMask && !st.rb (msixData f v) 32

/-- Send vector `v` of function `f`, or set its pending bit (R437). -/
def State.msix (st : State) (f v : Nat) : State :=
  if st.msixOpen f v then
    (st.emit (.msix f v (st.rn (msixAddr f v)) (st.rf (msixData f v) 31 0))).clrb (msixPba f) v
  else st.setb (msixPba f) v

/-! ## Event records (R510-R512) -/

/-- The event registers of function `f` at offset `k` of the block of 0x3000. -/
def evtReg (f k : Nat) : Nat := if f = 0 then Reg.PF0_QUE_EVT_BASE + k else Reg.QUE_EVT_BASE (f - 1) + k

/-- Number of MSI-X vectors of a function (R418). -/
def vectorsOf (f : Nat) : Nat := if f = 0 then 64 else 16

/-- Number of routing entries of a function (R512). -/
def routesOf (f : Nat) : Nat := if f = 0 then 64 else 16

/-- Whether a routing entry in force matches a class and a field (R512). -/
def routeHit (e : Word) (cls fn : Nat) : Bool :=
  e.getLsbD 63 && decide (bitsOf e 7 0 ≤ cls ∧ cls ≤ bitsOf e 15 8) &&
    (if fn = 0xFF then bitsOf e 23 16 == 0xFF else decide (bitsOf e 23 16 ≤ fn ∧ fn ≤ bitsOf e 31 24))

/-- Where a record of a class goes: vector, whether a message is sent, whether it is discarded. -/
def State.evtRouteOf (st : State) (f cls fn : Nat) : Nat × Bool × Bool :=
  match (List.range (routesOf f)).find? (fun i => routeHit (tget 0 st.host.evtRoute (f * 64 + i)) cls fn) with
  | none => (0, true, false)
  | some i =>
    let e := tget 0 st.host.evtRoute (f * 64 + i)
    (bitsOf e 37 32, !e.getLsbD 38, e.getLsbD 39)

/-- Write one record into a function's event ring if it has space; `false` when the ring is full (R511). -/
def State.evtPut (st : State) (f cls fn : Nat) (bytes : List Byte) : State × Bool :=
  let r := st.evtRouteOf f cls fn
  if r.2.2 then (st, true)
  else
    let size := 2 ^ st.rf (evtReg f 8) 4 0
    let tail := st.rf (evtReg f 0x10) 31 0
    let head := st.rf (evtReg f 0x14) 31 0
    if st.canDma f && decide ((tail + 2 ^ 32 - head) % 2 ^ 32 < size) then
      let phase := (tail / size + 1) % 2
      let bytes := bytes.set 1 (BitVec.ofNat 8 (leAt bytes 1 1 % 128 + 128 * phase))
      let st := st.dmaWrite f (st.rn (evtReg f 0) + tail % size * 32) bytes false
      let st := st.wf (evtReg f 0x10) 31 0 (tail + 1)
      (if r.2.1 then st.msix f r.1 else st, true)
    else (st, false)

/-- The 32 bytes of a record (R308). -/
def recordBytes (cls scope part fn slot unit seq time d0 d1 : Nat) : List Byte :=
  leBytes 1 cls ++ leBytes 1 scope ++ leBytes 1 part ++ leBytes 1 fn ++ leBytes 1 slot ++ leBytes 1 unit ++
    leBytes 2 seq ++ leBytes 8 time ++ leBytes 8 d0 ++ leBytes 8 d1

/-- Write the EVENTS_LOST record that a function's ring owes, if it has space (R511); `true` when none is owed any more. -/
def State.payOwed (st : State) (f : Nat) : State × Bool :=
  let owed := tget 0 st.host.evtOwed f
  if owed = 0 then (st, true)
  else
    let r := st.evtPut f 0x2F 0xFF (recordBytes 0x2F 5 0xFF 0xFF 0xFF 0xFF 0 st.now owed 0)
    if r.2 then ({ r.1 with host := { r.1.host with evtOwed := tput 0 r.1.host.evtOwed f 0 } }, true) else (st, false)

/-- Offer a record to a function's event ring: first the EVENTS_LOST record that is owed, then the record; what meets a
full ring is counted in EVT_LOST (R511). A ring that is not enabled takes nothing. -/
def State.offer (st : State) (f cls fn : Nat) (bytes : List Byte) : State :=
  if !st.rb (evtReg f 8) 31 then st
  else
    let r := st.payOwed f
    let w := if r.2 then r.1.evtPut f cls fn bytes else (r.1, false)
    if w.2 then w.1
    else
      let st := w.1.add (evtReg f 0x18) 63 0 1
      { st with host := { st.host with evtOwed := tput 0 st.host.evtOwed f (tget 0 st.host.evtOwed f + 1) } }

/-- Offer a record to PF0's ring and, where it names a partition, to that VF's ring (R511). -/
def State.offerAll (st : State) (cls part fn : Nat) (bytes : List Byte) : State :=
  let st := st.offer 0 cls fn bytes
  if part < 16 then st.offer (part + 1) cls fn bytes else st

/-- Raise a notice: a record of class 0x20 and up, SCOPE 5 (R511). -/
def State.notice (st : State) (cls part fn slot unit d0 d1 : Nat) : State :=
  st.offerAll cls part fn (recordBytes cls 5 part fn slot unit 0 st.now d0 d1)

/-! ## Status pins (R604, R609) -/

/-- Whether a FULL field gives the thermal warning: T_j at or above 92 degrees at its last step end, or a thermal cap below
code 50 (R604). -/
def State.warm (st : State) (fn : Nat) : Bool :=
  st.isFull fn && (decide (92 * 16 ≤ sext 16 (st.rf (Reg.FLD_RAIL_SENSE fn) 47 32)) ||
    decide (st.rf (Reg.FLD_PLIMIT fn) 23 16 < 50))

/-- The status pins follow PF_READY, FAULT_LATCH and the thermal condition; SMB_ALERT_N is low while FAULT_LATCH and
ALERT_EN are 1, until acknowledged. -/
def State.pins (st : State) : State :=
  let ready := st.rb Reg.HST_READY 0
  let warm := Config.sites.any st.warm
  let latch := st.rb Reg.AXB_STAT_CTL 0
  let st := (st.wf Reg.AXB_STAT_CTL 2 2 (if ready then 1 else 0)).wf Reg.AXB_STAT_CTL 3 3 (if warm then 1 else 0)
  { st with car := { st.car with
    statReady := ready, statFault := latch, statTherm := warm,
    alertLow := latch && st.rb Reg.AXB_STAT_CTL 1 && !st.car.alertAck } }

/-- Set FAULT_LATCH (R604). -/
def State.latchFault (st : State) : State :=
  { st with car := { st.car with alertAck := false } }.setb Reg.AXB_STAT_CTL 0 |>.pins

/-- Write a fault record into the log, count it and deliver it as an event (R308-R310); a record of SCOPE 3 or 4 sets
FAULT_LATCH (R604). -/
def State.fault (st : State) (cls scope part fn slot unit d0 d1 : Nat) : State :=
  let seq := st.rf Reg.AXB_FAULT_SEQ 31 0
  let bytes := recordBytes cls scope part fn slot unit (seq % 65536) st.now d0 d1
  let i := seq % 256
  let st := (List.range 4).foldl
    (fun st k => st.wn (Reg.AXB_FAULT_LOG (4 * i + k)) (leAt bytes (8 * k) 8)) st
  let st := st.wf Reg.AXB_FAULT_SEQ 31 0 (seq + 1)
  let st := if 3 ≤ scope then st.latchFault else st
  st.offerAll cls part fn bytes

end Sys2Proof.Machine
end

