-- ==== Sys2Proof/Machine/Units.lean ====
section
/-! DEFINITION. The units that the families share: leases and their revocation (R301-R305), windows and grants with scrip
(R378-R387), the injection of mesh messages (R9, R365, R377), and the tally unit (R513-R518). -/

namespace Sys2Proof.Machine

/-! ## Leases (R301-R304) -/

def State.lease (st : State) (i : Nat) : Lease := tget {} st.leases i
def State.setLease (st : State) (i : Nat) (l : Lease) : State := { st with leases := tput {} st.leases i l }

/-- The lowest-numbered FREE entry of the lease table (R301). -/
def State.freeLease (st : State) : Option Nat :=
  (List.range Config.leaseEntries).find? (fun i => (st.lease i).state = 0)

/-- Whether two HELD entries name one KIND and RESOURCE (R302). -/
def State.leaseOverlap (st : State) (kind resource : Nat) : Bool :=
  decide (2 ≤ (st.leases.filter
    (fun e => e.2.state = 1 && e.2.kind = kind && e.2.resource = resource)).length)

/-- The entry that names the holder of a resource: the lowest-numbered HELD one (R302). -/
def State.heldLease (st : State) (kind resource : Nat) : Option Lease :=
  (st.leases.find? (fun e => e.2.state = 1 && e.2.kind = kind && e.2.resource = resource)).map (·.2)

/-- Grant a lease: the lowest FREE entry, its GEN incremented (R301); OVERLAP as R302 says. -/
def State.grantLease (st : State) (kind owner hkind holder resource : Nat) : Option Nat × State :=
  match st.freeLease with
  | none => (none, st)
  | some i =>
    let gen := (st.lease i).gen
    let st := st.setLease i { kind := kind, state := 1, owner := owner, hkind := hkind, holder := holder,
                              gen := (gen + 1) % 65536, resource := resource }
    (some i, if st.leaseOverlap kind resource then st.setb Reg.AXB_RECOV_CTL 31 else st)

/-- Plain release of a lease: FREE with its GEN unchanged (R301). -/
def State.releaseLease (st : State) (i : Nat) : State := st.setLease i { st.lease i with state := 0, inflight := 0 }

/-- The drain time of a revocation in ns (R304). -/
def State.drainNs (st : State) : Nat := st.rf Reg.AXB_RECOV_CTL 23 0 * 1000

/-- Count a use of a lease in flight, or its end. -/
def State.leaseUse (st : State) (i : Nat) (up : Bool) : State :=
  let l := st.lease i
  st.setLease i { l with inflight := if up then l.inflight + 1 else l.inflight - 1 }

/-- The leases of tally block `b` that port `p` holds, HELD or under revocation (R411). -/
def State.blockLeases (st : State) (p b : Nat) : List Nat :=
  (st.leases.filter (fun e => e.2.state ≠ 0 && e.2.kind = 4 && e.2.hkind = 4 && e.2.holder = p && e.2.resource = b)).map (·.1)

/-! ## Windows and grants (R378, R379) -/

/-- Key of the window table of core slot `s` of `fn`, or of an output route of a sensor port (code 0x20 and up, R380). -/
def ownerKey (fn s : Nat) : Nat := fn * 64 + s

/-- Keys of grant tables: core slots, host VFs, Kevenlink ports, sensor-port input routes. -/
def coreHolder (fn s : Nat) : Nat := fn * 4 + s
def vfHolder (n : Nat) : Nat := 1000 + n
def kvlHolder (p : Nat) : Nat := 2000 + p
def snpHolder (p r : Nat) : Nat := 3000 + 2 * p + r

def State.window (st : State) (k w : Nat) : Window := tget {} st.mesh.windows (k * 64 + w)
def State.grantOf (st : State) (h g : Nat) : Grant := tget {} st.mesh.grants (h * 64 + g)

/-- Number of windows of a table in state OPEN. -/
def State.openCount (st : State) (k : Nat) : Nat :=
  ((List.range 64).filter (fun w => (st.window k w).state = 1)).length

/-- Number of grants of a table in state VALID. -/
def State.validCount (st : State) (h : Nat) : Nat :=
  ((List.range 64).filter (fun g => (st.grantOf h g).state = 1)).length

/-- Write a window entry; MSH_WIN_STATUSs.OPEN follows (R388). -/
def State.setWindow (st : State) (k w : Nat) (x : Window) : State :=
  let st := { st with mesh := { st.mesh with windows := tput {} st.mesh.windows (k * 64 + w) x } }
  if k % 64 < 4 then st.wf (Reg.MSH_WIN_STATUS (k / 64) (k % 64)) 47 40 (st.openCount k) else st

/-- Write a grant entry; MSH_GRANT_STATUSs.VALID follows. -/
def State.setGrant (st : State) (h g : Nat) (x : Grant) : State :=
  let st := { st with mesh := { st.mesh with grants := tput {} st.mesh.grants (h * 64 + g) x } }
  if h < 400 then st.wf (Reg.MSH_GRANT_STATUS (h / 4) (h % 4)) 47 40 (st.validCount h) else st

/-- Whether range `[a, a + n)` lies wholly in `[base, base + size)`. -/
def inRange (base size a n : Nat) : Bool := decide (base ≤ a ∧ a + n ≤ base + size)

/-- Whether two ranges meet. -/
def rangesMeet (a n b m : Nat) : Bool := decide (a < b + m ∧ b < a + n ∧ 0 < n ∧ 0 < m)

/-- The lowest-numbered VALID grant of a table that holds the whole deposit (R382). -/
def State.findGrant (st : State) (h a n : Nat) : Option Nat :=
  (List.range 64).find? (fun g =>
    let x := st.grantOf h g
    x.state = 1 && inRange x.base x.size a n)

/-- The lowest grant entry in state NONE or STALE that a GRANT may take: an entry is free when it is NONE (R381). -/
def State.freeGrant (st : State) (h : Nat) : Option Nat :=
  (List.range 64).find? (fun g => (st.grantOf h g).state = 0)

/-- The owner key that a grant points to. -/
def Grant.ownerKey (x : Grant) : Nat := Machine.ownerKey x.ownerFn x.ownerSlot

/-- Whether a grant entry still is the grant `b`: of the same window with the same GEN. -/
def Grant.same (a b : Grant) : Bool :=
  a.ownerFn = b.ownerFn && a.ownerSlot = b.ownerSlot && a.window = b.window && a.wgen = b.wgen

/-- The leases of the window that a grant points to, if it is a store window of that generation that has not yet lost
them. -/
def State.grantLeases (st : State) (x : Grant) : List Nat :=
  let w := st.window x.ownerKey x.window
  if w.size = 0 || w.gen ≠ x.wgen || (w.state = 0 && !w.closing) then [] else [w.lease, w.poolLease]

/-! ## Mesh messages -/

/-- The module's generation bit in force. -/
def State.genBit (st : State) : Bool := st.mesh.gen % 2 = 1

/-- Whether mesh port `p` of field `fn` is disabled (R621). -/
def State.portDisabled (st : State) (fn p : Nat) : Bool :=
  match Config.neighbour fn p with
  | none => true
  | some m => !st.usable m || st.mesh.dead.contains (fn * 4 + p)

/-- Whether mesh port `p` of field `fn` is up: both ends have joined and stay powered (R621). -/
def State.portUp (st : State) (fn p : Nat) : Bool :=
  match Config.neighbour fn p with
  | none => false
  | some m => !st.portDisabled fn p && (st.field fn).joined && (st.field m).joined && st.powered fn && st.powered m

/-- The output port of the default order at `fn` for destination `d` (R365), or 4 at the destination. -/
def defaultPort (yx : Bool) (fn d : Nat) : Nat :=
  let x := fn % 10; let y := fn / 10; let dx := d % 10; let dy := d / 10
  let goX := if x < dx then some 1 else if dx < x then some 3 else none
  let goY := if y < dy then some 2 else if dy < y then some 0 else none
  if yx then (goY.getD (goX.getD 4)) else (goX.getD (goY.getD 4))

/-- Whether the default path from `fn` to `d` in the given order crosses a disabled port. -/
def State.pathBlocked (st : State) (yx : Bool) : Nat → Nat → Nat → Bool
  | 0, _, _ => true
  | fuel + 1, fn, d =>
    let p := defaultPort yx fn d
    if p = 4 then false
    else if st.portDisabled fn p then true
    else State.pathBlocked st yx fuel ((Config.neighbour fn p).getD fn) d

/-- ORDER of a message (R365): YX only when the XY path crosses a disabled port and the YX path does not. -/
def State.orderOf (st : State) (src d : Nat) : Bool := st.pathBlocked false 20 src d && !st.pathBlocked true 20 src d

/-- Whether a wafer address names a store that exists and may be deposited into (R7, R9, R164, R342): a field that
answers, and there a granule that a partition owns, the near scratchpad of a present core, or a sensor output buffer; a
copy window (R496); the remote aperture of a Kevenlink port whose field is FULL (R406). -/
def State.addressable (st : State) (a : Nat) : Bool :=
  let fn := addrFn a
  let o := addrOff a
  if 0xE0 ≤ fn then decide (fn < 0xF0)
  else if 0xC0 ≤ fn then decide (fn < 0xC8) && st.isFull (Config.kvlField (fn - 0xC0))
  else st.powered fn &&
    (if o < 0xC000000 then st.granPart fn (o / 0x1000000) != 0xFF
     else if isNear a then st.present fn ((o - 0x100000000) / 0x400000)
     else decide (0x900000000 ≤ o ∧ o < 0x900020000) && Config.hasSnp fn)

/-- The field that a message is routed to (R377, R406, R496). -/
def State.msgField (st : State) (m : Msg) : Nat :=
  let f := addrFn m.dst
  if m.kind = 1 && decide (0xE0 ≤ f) then st.anchor
  else if m.kind = 1 && decide (0xC0 ≤ f) then Config.kvlField (f - 0xC0)
  else f

/-- The report of an addressing fault to the unit that issued a message (R9): a NAK of reason 9. No TAG waits for one to a
message without a tag of its own. -/
def faultReport (m : Msg) (src : Nat) : Msg :=
  { kind := 3, part := m.part, srcFn := src, srcUnit := m.srcUnit, tag := if m.tagged then m.tag else 65536,
    dst := unitDst src m.srcUnit, window := m.window, status := 9, units := if m.kind = 1 then m.len else 0 }

/-- Inject a message at field `src` (R365, R377). A message that R9 refuses is reported to its issuing unit; an answer is
refused without a report. Copy windows (R496) are addressed to the anchor's endpoint. -/
def State.send (st : State) (src : Nat) (m : Msg) : State :=
  let d := st.msgField m
  let m := { m with srcFn := src, gen := st.genBit, yx := st.orderOf src d }
  let ok := if m.kind = 1 then st.addressable m.dst else st.powered d
  if ok then
    { st with mesh := { st.mesh with flights := st.mesh.flights ++
      [{ msg := m, loc := src, inp := 4, lane := m.part, hops := 0, here := m.flits }] } }
  else if m.isAnswer then st
  else { st with mesh := { st.mesh with arrived := st.mesh.arrived ++ [faultReport m src] } }

/-- Take a message from those that have arrived, if it stands there. -/
def State.takeArrived (st : State) (m : Msg) : State :=
  { st with mesh := { st.mesh with arrived := st.mesh.arrived.erase m } }

/-- Remember a message until it is answered; the next message takes the next tag (R377). -/
def State.track (st : State) (x : Sent) : State :=
  { st with mesh := { st.mesh with nextTag := (x.tag + 1) % 65536, sent := st.mesh.sent ++ [x] } }

/-- Send a deposit under grant `g` of holder `h` and remember it until it is answered (R383, R386): its units leave the
grant's SCRIP, its leases count a use. -/
def State.sendDeposit (st : State) (src unit part h g dst : Nat) (data : List Byte) (job : Job) (poison : Bool := false) : State :=
  let x := st.grantOf h g
  let len := data.length / 64
  let tag := st.mesh.nextTag
  let st := st.setGrant h g { x with scrip := x.scrip - len, sent := x.sent + data.length }
  let st := (st.grantLeases x).foldl (fun st i => st.leaseUse i true) st
  let st := st.track { holder := h, grant := g, tag := tag, units := len, time := st.now, dst := dst, job := job, use := x }
  st.send src { kind := 1, part := part, len := len, srcUnit := unit, tag := tag, dst := dst, window := x.window,
                wgen := x.wgen, units := len, data := data, poison := poison }

/-! ## Windows: open, close, quarantine (R380-R387) -/

/-- The unit that a window's holder answers at: field and unit byte. -/
def State.holderUnit (st : State) (hkind holder : Nat) : Nat × Nat :=
  if hkind = 4 then (Config.kvlField holder, 6)
  else if hkind = 5 then (st.anchor, 5)
  else (holder / 256, holder % 256)

/-- Key of the grant table of a holder. -/
def holderKeyOf (hkind holder : Nat) : Nat :=
  if hkind = 4 then kvlHolder holder
  else if hkind = 5 then vfHolder holder
  else coreHolder (holder / 256) (holder % 256)

/-- Whether a window's leases may be released: INFLIGHT 0, or the drain bound of R304 reached (R387). -/
def State.windowDrained (st : State) (k w : Nat) : Bool :=
  let x := st.window k w
  (st.lease x.lease).inflight = 0 || decide (x.due ≤ st.now)

/-- Release a closed window's leases, plainly (R387); one that has been quarantined meanwhile is revoked (R304). -/
def State.releaseWindow (st : State) (k w : Nat) : State :=
  let x := st.window k w
  let st := [x.lease, x.poolLease].foldl (fun st i => if (st.lease i).state = 2 then st else st.releaseLease i) st
  st.setWindow k w { x with closing := false }

/-- Release the leases of a closing window once nothing is in flight (R387). -/
def State.settleWindow (st : State) (k w : Nat) : State :=
  if (st.window k w).closing && st.windowDrained k w then st.releaseWindow k w else st

/-- Close a window: CLOSED at once, CLOSE to the holder, its leases to be released (R387). -/
def State.closeWindow (st : State) (fn slot w : Nat) : State :=
  let k := ownerKey fn slot
  let x := st.window k w
  if x.state = 1 then
    let st := st.setWindow k w { x with state := 0, closing := true, due := st.now + st.drainNs }
    let u := st.holderUnit x.hkind x.holder
    (st.send fn { kind := 5, part := st.owner fn, srcUnit := if slot < 4 then slot else 7, dst := unitDst u.1 u.2,
                  window := w, wgen := x.gen }).settleWindow k w
  else st

/-- A use of the window that a grant points to has been answered (R304 step 3, R387). -/
def State.endUse (st : State) (x : Grant) : State :=
  let st := (st.grantLeases x).foldl (fun st i => st.leaseUse i false) st
  st.settleWindow x.ownerKey x.window

/-- Whether a message's sender is a window's holder (R382). -/
def State.isHolder (st : State) (w : Window) (m : Msg) : Bool :=
  match w.hkind with
  | 4 => m.srcUnit == 6 && m.srcFn == Config.kvlField w.holder
  | 5 => m.srcUnit == 5 && m.srcFn == st.anchor && m.part + 1 == w.holder
  | _ => w.holder / 256 == m.srcFn && (w.holder % 256 == m.srcUnit || (m.srcUnit == 7 && decide (16 ≤ w.holder % 256)))

/-- The window table that a deposit into a store or a sensor port's output buffer is tested with, if a slot holds the place
(R384). -/
def State.depositKey (st : State) (a : Nat) : Option Nat :=
  let f := addrFn a
  let o := addrOff a
  if isNear a then some (ownerKey f ((o - 0x100000000) / 0x400000))
  else if o < 0xC000000 then
    if st.granSlot f (o / 0x1000000) = 0xFF then none else some (ownerKey f (st.granSlot f (o / 0x1000000)))
  else some (ownerKey f (0x20 + (o - 0x900000000) / 0x8000))

/-- The window of a table that a deposit is tested with: the lowest whose range holds it and whose holder is its sender, else
the one that its header names (R382, R384). -/
def State.matchWindow (st : State) (k : Nat) (m : Msg) : Nat :=
  ((List.range 64).find? (fun i =>
    let x := st.window k i
    x.state ≠ 0 && inRange x.base x.size m.dst (64 * m.len) && st.isHolder x m)).getD m.window

/-- The window under which its holder's deposit `m` is sent, as a grant of it. -/
def State.windowUse (st : State) (m : Msg) : Grant :=
  match st.depositKey m.dst with
  | none => {}
  | some k =>
    let w := st.matchWindow k m
    if st.isHolder (st.window k w) m then { ownerFn := k / 64, ownerSlot := k % 64, window := w, wgen := (st.window k w).gen } else {}

/-- Quarantine one lease (R304 step 1): a running revocation keeps its deadline; a window lease quarantines its window
(R387). -/
def State.quarantine (st : State) (i scope : Nat) : State :=
  let l := st.lease i
  if l.state = 1 then
    let st := st.setLease i { l with state := 2, due := st.now + st.drainNs, scope := scope }
    if l.kind = 3 then
      let k := ownerKey (l.resource / 65536 % 256) (l.resource / 256 % 256)
      let w := l.resource % 256
      let x := st.window k w
      if x.state = 1 then st.setWindow k w { x with state := 2 } else st
    else if l.kind = 7 then st.wf (Reg.STO_BULK_GRANULE (l.resource / 16) (l.resource % 16)) 23 16 0xFF
    else st
  else st

/-- Quarantine every lease that satisfies `p` (R303). -/
def State.quarantineAll (st : State) (scope : Nat) (p : Lease → Bool) : State :=
  (st.leases.filter (fun e => e.2.state = 1 && p e.2)).foldl (fun st e => st.quarantine e.1 scope) st

/-- Whether a lease is held by core or teller or island `s` of field `fn`, or grants a window of that slot (R303). -/
def Lease.ofSlot (fn s : Nat) (l : Lease) : Bool :=
  ((l.hkind = 1 || l.hkind = 2 || l.hkind = 6) && l.holder = fn * 256 + s) ||
    ((l.kind = 1 || l.kind = 3) && l.resource / 256 = fn * 256 + s)

/-- Whether a lease is held by any party of field `fn`, or grants a window there (R303). The transit lanes that other
partitions hold in the field are not its leases (R376). -/
def Lease.ofField (fn : Nat) (l : Lease) : Bool :=
  ((l.hkind = 1 || l.hkind = 2 || l.hkind = 6) && l.holder / 256 = fn) ||
    ((l.kind = 1 || l.kind = 3) && l.resource / 65536 = fn)

/-! ## The tally unit (R513-R518) -/

/-- The partition that owns tally block `b` in the active build, or 0xFF. -/
def State.blockOwner (st : State) (b : Nat) : Nat :=
  ((List.range 16).find? (fun p => (st.part p).defined && (st.part p).blocks.testBit b)).getD 0xFF

/-- Whether Kevenlink port `p` holds tally block `b` under lease (R411). -/
def State.portBlock (st : State) (p b : Nat) : Bool :=
  (st.heldLease 4 b).any (fun l => l.hkind = 4 && l.holder = p)

/-- The present value of a tally. -/
def State.tally (st : State) (t : Nat) : Nat := st.rf (Reg.TLY_VALUE t) 47 0

/-- Whether a wait for `target` is satisfied at value `cur` (R513). -/
def reached (cur target : Nat) : Bool := decide ((cur + 2 ^ 48 - target % 2 ^ 48) % 2 ^ 48 < 2 ^ 47)

/-- Who a registered wait belongs to, as the field and unit its TWAKE goes to: a core slot, or the teller serving a queue. -/
def State.waiterUnit (st : State) (who : Nat) : Nat × Nat :=
  if 8192 ≤ who then ((who - 8192) / 4, (who - 8192) % 4)
  else
    let b := st.rf (Reg.QUE_Q_BIND (who / 256) (who % 256)) 15 0
    if b = 0xFFFF then (st.anchor, 4) else (b / 256, b % 256)

/-- The partition of a waiter: its queue's, or the one that owns its field. -/
def State.waiterPart (st : State) (who : Nat) : Nat :=
  if 8192 ≤ who then st.owner ((who - 8192) / 4) else who / 256

/-- Answer a wait with a TWAKE of T_W `at_` (R515); its TAG names the waiter. -/
def State.wakeMsg (st : State) (who tally result at_ : Nat) : State :=
  let u := st.waiterUnit who
  st.send st.anchor { kind := 0x0F, part := st.waiterPart who, srcUnit := 8, tag := who, dst := unitDst u.1 u.2, a := tally, b := result, c := at_ }

/-- Change the pending waits; the standby anchor's shadow follows (R517). -/
def State.setWaits (st : State) (l : List TallyWait) : State :=
  { st with host := { st.host with waits := l, shadowWaits := l } }

/-- Wake every wait on tally `t` that its present value satisfies (R515). -/
def State.wakeTally (st : State) (t : Nat) : State :=
  let cur := st.tally t
  let hit := st.host.waits.filter (fun w => w.tally = t && reached cur w.target)
  let st := st.setWaits (st.host.waits.filter (fun w => !(w.tally = t && reached cur w.target)))
  hit.foldl (fun st w => st.wakeMsg w.who t 0 st.now) st

/-- The wafer time at which tally `t` reached `target` (R515): that of the oldest of the advances since which it has stayed
reached. -/
def State.reachedAt (st : State) (t target : Nat) : Nat :=
  ((((tget [] st.host.advances t ++ [(0, 0)] : List (Nat × Nat)).takeWhile (fun e => reached e.1 target)).getLast?).map (·.2)).getD 0

/-- Tally `t` takes a value, and the wafer time of that is remembered (R515). -/
def State.advanceTally (st : State) (t new : Nat) : State :=
  let st := st.wf (Reg.TLY_VALUE t) 47 0 new
  { st with host := { st.host with advances := tput [] st.host.advances t ((new, st.now) :: tget [] st.host.advances t) } }

/-- Copy a tally's value to the standby anchor's shadow (R517). -/
def State.shadowTally (st : State) (t : Nat) : State :=
  { st with host := { st.host with shadow := tput 0 st.host.shadow t (st.rd (Reg.TLY_VALUE t)) } }

/-- State of a Kevenlink port's link (KVL_STATUS.STATE, R396, R417); 5 is ACTIVE. -/
def State.kvlState (st : State) (p : Nat) : Nat := st.rf (Reg.KVL_STATUS (Config.kvlField p)) 2 0

/-- Forward an advance of tally `t` (R516). -/
def State.forward (st : State) (t : Nat) : State :=
  let s := Reg.TLY_STAT t
  if st.rb s 63 then
    let p := st.rf s 62 60
    if st.kvlState p = 5 then
      let tag := st.mesh.nextTag
      let st := st.track { holder := kvlHolder p, grant := 64, tag := tag, units := 0, time := st.now, dst := 0,
                           job := .forward t }
      st.send st.anchor { kind := 0x0C, srcUnit := 8, tag := tag, dst := unitDst (Config.kvlField p) 6,
                          a := st.rf s 57 48, b := st.tally t }
    else st.addSat s 39 32 1
  else st

/-- A signal of value `new` to tally `t` (R513): the state after it, and the TACK STATUS. -/
def State.tallySignal (st : State) (t new : Nat) : State × Nat :=
  let cur := st.tally t
  let d := (new % 2 ^ 48 + 2 ^ 48 - cur) % 2 ^ 48
  if d = 0 then (st, 0)
  else if d < 2 ^ 47 then
    ((((st.advanceTally t (new % 2 ^ 48)).wakeTally t).forward t).shadowTally t, 0)
  else if 2 ^ 48 - 2 ^ 32 ≤ d then ((st.addSat (Reg.TLY_STAT t) 15 0 1).shadowTally t, 1)
  else
    ((st.addSat (Reg.TLY_STAT t) 31 16 1).notice 0x2A (st.blockOwner (t / 32)) 0xFF 0xFF 0xFF t (new % 2 ^ 48), 2)

/-- Clear the tallies of the blocks in a mask: value 0, counters cleared, FWD_EN cleared, waits answered with RESULT 2
(R518). -/
def State.clearTallies (st : State) (blocks : Nat) : State :=
  let ts := (List.range 1024).filter (fun t => blocks.testBit (t / 32))
  let st := ts.foldl (fun st t => (st.wn (Reg.TLY_VALUE t) 0).wr (Reg.TLY_STAT t) 0) st
  let hit := st.host.waits.filter (fun w => blocks.testBit (w.tally / 32))
  let st := st.setWaits (st.host.waits.filter (fun w => !blocks.testBit (w.tally / 32)))
  let st := { st with host := { st.host with
    shadow := st.host.shadow.filter (fun e => !blocks.testBit (e.1 / 32)),
    advances := st.host.advances.map (fun e => if blocks.testBit (e.1 / 32) then (e.1, [(0, st.now)]) else e) } }
  hit.foldl (fun st w => st.wakeMsg w.who w.tally 2 st.now) st

end Sys2Proof.Machine
end

