-- ==== Sys2Proof/Machine/Flags.lean ====
section
/-! DEFINITION. What a core slot's status registers show of its state: which weights are valid (R199, R214), the bank
states (R211), dry rows and held columns (R215), IDLE, and the stall cause of a nanosecond (R218). -/

namespace Sys2Proof.Machine

/-- The bits below `n` that are set in `m`. -/
def bitList (n m : Nat) : List Nat := (List.range n).filter (fun i => m.testBit i)

def CoreSt.row (c : CoreSt) (r : Nat) : RowSt := tget {} c.rows r
def CoreSt.setRow (c : CoreSt) (r : Nat) (x : RowSt) : CoreSt := { c with rows := tput {} c.rows r x }

/-- Change every listed row. -/
def CoreSt.mapRows (c : CoreSt) (f : RowSt → RowSt) : CoreSt :=
  { c with rows := c.rows.foldl (fun (t : List (Nat × RowSt)) e => tput {} t e.1 (f e.2)) [] }

/-- The rows whose feeders carry a RUN's tokens: its ROW_MASK, or row 0 with empty tokens when that is 0 (R223). -/
def runRows (rows : Nat) (w : CmdWords) : List Nat := if w.rowMask = 0 then [0] else bitList rows w.rowMask

/-- The columns that a RUN's tokens reach: COL_MASK and the checksum column (R219, R220). -/
def runCols (cols : Nat) (w : CmdWords) : List Nat := bitList cols w.runCols ++ [cols]

/-- Formats of the rows' valid weights, and whether two formats have met (R214), after the LOAD_Ws issued and not yet
latched. -/
def CoreSt.weightsAhead (c : CoreSt) (rows : Nat) : List (Option Nat) × Bool :=
  let start := (List.range rows).map (fun r => (c.row r).w.map (·.fmt))
  (c.feed.filter (fun x => x.w.op = 1 && c.lw < x.num && !x.tail)).foldl
    (fun acc x =>
      let f := x.w.format
      let m := x.w.lwRows
      let clash := (acc.1.zipIdx).any (fun p => !m.testBit p.2 && p.1.isSome && p.1 != some f)
      let l := (acc.1.zipIdx).map
        (fun p => if m.testBit p.2 then some f else if p.1 == some f then p.1 else none)
      (l, (acc.2 || clash) && !(l.all (· == some f)))) (start, c.mixed)

/-- GZC_STATUS.WEIGHTS: a LOAD_W has latched and no row waits for one format (R199, R214). -/
def CoreSt.weights (c : CoreSt) : Bool := c.lw != 0 && !c.mixed

/-- State of bank `b` (R211). -/
def CoreSt.bankState (c : CoreSt) (b : Nat) : Nat :=
  if c.feed.any (fun x => x.w.op = 2 && x.w.bank = b) then 1
  else if c.mint.any (fun x => x.w.bank = b && (x.began || decide (0 < x.written))) then 3
  else if c.bankHold.contains b then 2 else 0

/-- Intake and class queues empty and no token in flight. -/
def CoreSt.idle (c : CoreSt) : Bool :=
  c.intake.isEmpty && c.feed.isEmpty && c.mint.isEmpty && c.mv.isEmpty && c.push.isEmpty && c.ctrl.isEmpty &&
    c.toks.isEmpty && c.drain.isNone

/-- Whether row `r` has broadcast every token of RUN `x`. -/
def CoreSt.rowDone (c : CoreSt) (x : Cmd) (r : Nat) : Bool :=
  let q := (c.row r).q.any (fun e => match e with | .token n _ _ => n == x.num | _ => false)
  !q && (decide (x.num < (c.row r).gnum) || (decide ((c.row r).gnum = x.num) && decide (x.total ≤ (c.row r).gidx)))

/-- Whether every row of RUN `x` has broadcast its last token. -/
def CoreSt.runDone (c : CoreSt) (rows : Nat) (x : Cmd) : Bool := (runRows rows x.w).all (fun r => c.rowDone x r)

/-- The RUN that row `r` serves or waits for, from the FEED commands `l` on: not one behind a LOAD_W that has not latched
(R212), nor one behind a RUN that masks the row and still broadcasts, which quiesces it (R219). -/
def CoreSt.rowRun (c : CoreSt) (rows r : Nat) : List Cmd → Option Cmd
  | [] => none
  | y :: l =>
    if y.w.op = 1 then if y.tail then CoreSt.rowRun c rows r l else none
    else if (runRows rows y.w).contains r then if c.rowDone y r then CoreSt.rowRun c rows r l else some y
    else if c.runDone rows y then CoreSt.rowRun c rows r l else none

/-- Whether row `r` is quiesced (R219): it lies outside the shape, or outside the ROW_MASK of the RUN that broadcasts, or that
has broadcast last and has not retired. -/
def CoreSt.rowQuiet (c : CoreSt) (rows r : Nat) : Bool :=
  let l := c.feed.filter (fun x => x.w.op = 2)
  decide (rows ≤ r) || match l.find? (fun x => !c.runDone rows x), l.getLast? with
    | some x, _ => !(runRows rows x.w).contains r
    | none, some x => !(runRows rows x.w).contains r
    | none, none => false

/-- Whether RUN `x` waits under R193 for an earlier MINT of its bank. -/
def CoreSt.bankWait (c : CoreSt) (x : Cmd) : Bool :=
  c.mint.any (fun m => decide (m.num < x.num) && m.w.bank = x.w.bank && !m.conv)

/-- Rows that are dry now (R215). -/
def CoreSt.dryRows (c : CoreSt) (rows : Nat) : Nat :=
  ((List.range rows).filter (fun r => (c.row r).q.isEmpty && (c.rowRun rows r c.feed).isSome)).foldl (fun a r => a + 2 ^ r) 0

/-- Whether row `r` would be more than 4 tokens ahead of a column that takes its token of RUN `x`: of the tokens of RUNs that
use the column, 4 stand before its tree (R206, R208). -/
def CoreSt.rowAhead (c : CoreSt) (cols r : Nat) (x : Cmd) : Bool :=
  (runCols cols x.w).any (fun k => decide (4 ≤ (c.toks.filter (fun t =>
    t.lanes.any (fun e => e.1 = r) && !t.joined.contains k &&
      c.feed.any (fun y => y.num = t.num && (runCols cols y.w).contains k))).length))

/-- Whether row `r` can broadcast a token at wafer time `now` (R206, R208, R193, R222). -/
def CoreSt.rowCan (c : CoreSt) (cols now r : Nat) : Bool :=
  match (c.row r).q with
  | .token num _ _ :: _ =>
    match c.feed.find? (fun x => x.num = num) with
    | some x => !c.rowAhead cols r x && decide (x.gate ≤ now) && !c.bankWait x
    | none => false
  | _ => false

/-- The escape table of LOAD_W `n`, if it is loaded. -/
def CoreSt.escTab (c : CoreSt) (n : Nat) : Option EscTab := c.escs.find? (fun t => t.lw = n)

/-- The weights that tokens of LOAD_W `n` were multiplied by: those in force, or of an earlier latch window (R213). -/
def CoreSt.latched (c : CoreSt) (n : Nat) : Latched :=
  if n = c.lw then { num := n, words := c.lwCmd, shift := c.lwShift, subs := c.subs }
  else (c.old.find? (fun x => x.num = n)).getD { num := n }

/-- Whether a token's corrections are at hand: its LOAD_W has no list, or its table is loaded (R254). -/
def CoreSt.escReady (c : CoreSt) (t : Tok) : Bool :=
  let w := (c.latched t.lw).words
  !w.esc || w.escCount == 0 || (c.escTab t.lw).isSome

/-- Overflow entries that the escape unit has still to read for a token (R256). -/
def CoreSt.ovfLeft (c : CoreSt) (t : Tok) : Nat :=
  let w := (c.latched t.lw).words
  if w.esc then w.escCount - 128 - t.ovf else 0

/-- Columns held now at the escape merge: their next token waits for its table or for overflow entries (R215, R254, R256). -/
def CoreSt.heldCols (c : CoreSt) : Nat :=
  match c.toks.find? (fun t => !c.escReady t || c.ovfLeft t ≠ 0) with
  | none => 0
  | some t => (t.joined.filter (fun k => !(t.merged.any (fun m => m.1 = k)))).foldl (fun a k => a + 2 ^ k) 0

/-- The stall register that a nanosecond counts in (R218): a RUN with tokens to broadcast heads FEED and no row can broadcast;
the first cause that applies. -/
def State.stallReg (st : State) (fn s : Nat) (c : CoreSt) : Option Nat :=
  let rows := st.rows fn s
  match c.feed with
  | x :: _ =>
    if x.w.op ≠ 2 || c.runDone rows x || (List.range rows).any (fun r => c.rowCan (st.cols fn s) st.now r) then none
    else if c.bankWait x then some (Reg.GZC_STALL_BANK fn s)
    else if st.now < x.gate then some (Reg.GZC_STALL_GATE fn s)
    else if c.dryRows rows ≠ 0 then some (Reg.GZC_STALL_DRY fn s)
    else if c.heldCols ≠ 0 then some (Reg.GZC_STALL_COL fn s)
    else none
  | [] => none

/-- Whether a nanosecond counts in GZC_MV_STALL (chapter 13): the MV at the head has segments left, and waits for its groups,
its vector or a bank of row sums. -/
def State.mvStalls (st : State) (c : CoreSt) : Bool :=
  match c.mv with
  | x :: _ => !x.conv && !x.streamed && (decide (st.now < x.gate) || !c.vbuf.any (fun v => v.1 = x.num) || decide (2 ≤ c.mvBanks.length))
  | [] => false

/-- Write what the status registers of a core slot show (GZC_STATUS, R203; GZC_ROW_DRY, GZC_COL_HELD, GZC_COL_SEEN;
GZC_GATED.GROUPS). -/
def State.refresh (st : State) (fn s : Nat) : State :=
  let c := st.core fn s
  let r := Reg.GZC_STATUS fn s
  let b (x : Bool) : Nat := if x then 1 else 0
  let dry := c.dryRows (st.rows fn s)
  let held := c.heldCols
  let st := st.wf r 27 26 (c.bankState 1)
  let st := st.wf r 25 24 (c.bankState 0)
  let st := st.wf r 23 16 c.retire.length
  let st := st.wf r 15 8 c.intake.length
  let st := st.wf r 5 5 (b (c.ctrl.any (fun x => x.w.op = 0x0B)))
  let st := st.wf r 4 4 (b c.weights)
  let st := st.wf r 3 3 (b c.flushAt.isSome)
  let st := st.wf r 0 0 (b c.idle)
  let st := st.wn (Reg.GZC_ROW_DRY fn s) ((st.rf (Reg.GZC_ROW_DRY fn s) 63 32 ||| dry) * 2 ^ 32 + dry)
  let st := st.wn (Reg.GZC_COL_HELD fn s) held
  let st := st.wn (Reg.GZC_COL_SEEN fn s) (st.rn (Reg.GZC_COL_SEEN fn s) ||| held)
  st.wf (Reg.GZC_GATED fn s) 7 0 (c.gated.filter (fun g => !c.retired.contains g)).length

/-- Whether GZC_STATUS.HALTED is set (R186). -/
def State.halted (st : State) (fn s : Nat) : Bool := st.rb (Reg.GZC_STATUS fn s) 2

/-- Replace a core slot's state and refresh its status. -/
def State.putCore (st : State) (fn s : Nat) (c : CoreSt) : State := (st.setCore fn s c).refresh fn s

end Sys2Proof.Machine
end

