-- ==== Sys2Proof/Machine/CoreOps.lean ====
section
/-! DEFINITION. The array side of a core slot: store accesses through the cache (R345-R348), the intake's checks (R185,
R242, R259, R270, R327), the address generators (R235-R241), broadcast, column trees, escape merge and accumulators
(R205-R213, R244-R258), the checksum column (R283-R288), and retirement (R182, R186, R187). -/

namespace Sys2Proof.Machine

/-! ## Store accesses of a core -/

/-- Way that the 3-bit tree state of a set selects for replacement: bit 0 the half, bits 1 and 2 the way in each half
(R346; the tree's numbering is the model's, log 21). -/
def plruVictim (t : Nat) : Nat :=
  if t.testBit 0 then (if t.testBit 2 then 3 else 2) else (if t.testBit 1 then 1 else 0)

/-- The tree state after an access to `way`: every node on its path points away from it. -/
def plruTouch (t way : Nat) : Nat :=
  let b (i : Nat) : Nat := if t.testBit i then 2 ^ i else 0
  match way with
  | 0 => 1 + 2 + b 2
  | 1 => 1 + b 2
  | 2 => b 1 + 4
  | _ => b 1

/-- One access of core slot `s` to field line `l` of a granule through its cache (R347): hit or miss is counted, a miss
replaces the way its set selects, a dirty victim is written back. -/
def State.cacheTouch (st : State) (fn s l : Nat) (write : Bool) : State :=
  let steps := st.rf (Reg.STO_NSP_CFG fn s) 2 0
  if steps = 0 then st
  else
    let c := st.core fn s
    let set := l % (1024 * steps)
    let at' (w : Nat) : CacheLine := tget {} c.cache (set * 4 + w)
    let tree := tget 0 c.plru set
    match (List.range 4).find? (fun w => (at' w).line = l) with
    | some w =>
      let x := at' w
      let c := { c with cache := tput {} c.cache (set * 4 + w) { x with dirty := x.dirty || write },
                        plru := tput 0 c.plru set (plruTouch tree w) }
      let st := (st.setCore fn s c).add (Reg.STO_CACHE_HITS fn s) 63 0 1
      if write && !x.dirty then st.add (Reg.STO_CACHE_DIRTY fn s) 31 0 1 else st
    | none =>
      let w := plruVictim tree
      let v := at' w
      let c := { c with cache := tput {} c.cache (set * 4 + w) { line := l, dirty := write },
                        plru := tput 0 c.plru set (plruTouch tree w) }
      let st := (st.setCore fn s c).add (Reg.STO_CACHE_MISSES fn s) 63 0 1
      let st := if v.dirty then
          (st.add (Reg.STO_CACHE_WB fn s) 63 0 1).wf (Reg.STO_CACHE_DIRTY fn s) 31 0
            (st.rf (Reg.STO_CACHE_DIRTY fn s) 31 0 - 1)
        else st
      if write then st.add (Reg.STO_CACHE_DIRTY fn s) 31 0 1 else st

/-- Touch every line of a range that lies in a granule. -/
def State.touchRange (st : State) (fn s a n : Nat) (write : Bool) : State :=
  if isNear a || n = 0 then st
  else (List.range ((a + n - 1) / 128 + 1 - a / 128)).foldl
    (fun st i => st.cacheTouch fn s ((addrOff a) / 128 + i) write) st

/-- A read by a stage of the core: bytes, the first poisoned word's address, the state with its counts. The address stays known
for the record of R296. -/
def State.coreRead (st : State) (fn s a n : Nat) : List Byte × Option Nat × State :=
  let r := (st.touchRange fn s a n false).readEcc a n
  match r.2.1 with
  | some p =>
    let c := r.2.2.core fn s
    (r.1, some p, r.2.2.setCore fn s { c with badReads := c.badReads ++ [(p / 65536 % 2 ^ 32, p)] })
  | none => r

/-- A read of one word through the narrow view, on behalf of slot `s` (R332, R345, R355). -/
def State.narrowRead (st : State) (fn s a : Nat) : List Byte × Option Nat × State :=
  (st.touchRange fn s a 8 false).readEcc a 8

/-- A write by a stage of the core. -/
def State.coreWrite (st : State) (fn s a : Nat) (bytes : List Byte) : State :=
  (st.touchRange fn s a bytes.length true).store a bytes

/-! ## Descriptors (R232-R242, R313, R327) -/

/-- DETAIL of a DESCRIPTOR refusal: the check code and the value saturated to 24 bits (R242). -/
def descDetail (check v : Nat) : Nat := check * 2 ^ 24 + satN 24 v

/-- The first offset in `offs` whose byte is not zero. -/
def firstNonzero (bs : List Byte) (offs : List Nat) : Option Nat := offs.find? (fun o => leAt bs o 1 ≠ 0)

/-- The first value of a list that a test rejects. -/
def firstBad (l : List (Nat × Bool)) : Option Nat := (l.find? (fun p => !p.2)).map (·.1)

/-- Checks 2 to 12 of R242 on the descriptor copy of a RUN, in order: the first that fails. -/
def feederCheck (bs : List Byte) (w : CmdWords) : Option Nat :=
  let u (o n : Nat) : Nat := leAt bs o n
  let kh := u 2 1; let kw := u 3 1
  let red := kh * kw * u 0xC 2
  let s18 := [u 4 1, u 5 1, u 6 1, u 7 1]
  let dims := [u 8 2, u 0xA 2, u 0xC 2]
  let walk := u 0x10 2 * u 0x12 2
  let ring := u 0x18 2
  let xs := u 0x1C 4; let ys := u 0x20 4; let bl := u 0x24 4
  let inn (lo hi v : Nat) : Nat × Bool := (v, decide (lo ≤ v ∧ v ≤ hi))
  if u 0 1 ≠ 1 then some (descDetail 2 (u 0 1))
  else if u 1 1 / 2 ≠ 0 then some (descDetail 3 1)
  else match firstNonzero bs ([0x1A, 0x1B] ++ (List.range 24).map (· + 0x28)) with
  | some o => some (descDetail 3 o)
  | none => match firstBad [inn 1 16 kh, inn 1 16 kw] with
  | some v => some (descDetail 4 v)
  | none => match firstBad (s18.map (inn 1 8)) with
  | some v => some (descDetail 5 v)
  | none => match firstBad (dims.map (inn 1 16384) ++ [inn 1 (u 0xC 2) (u 0xE 2)]) with
  | some v => some (descDetail 6 v)
  | none =>
    if 1048576 < red then some (descDetail 7 red)
    else if !(decide (1 ≤ u 0x10 2 ∧ u 0x10 2 ≤ 4096 ∧ 1 ≤ u 0x12 2 ∧ u 0x12 2 ≤ 4096)) || walk < w.tokens then
      some (descDetail 8 walk)
    else match firstBad [(xs, xs % 2 == 0), (ys, ys % 2 == 0), (bl, bl % 2 == 0), (xs, decide (2 * u 0xE 2 ≤ xs))] with
    | some v => some (descDetail 9 v)
    | none =>
      if ring ≠ 0 && ring < (u 0x10 2 - 1) * u 4 1 + (kh - 1) * u 6 1 + 1 then some (descDetail 10 ring)
      else if red ≤ w.kBase then some (descDetail 11 w.kBase)
      else if u 1 1 % 2 = 1 then
        let ones := [kh, kw, u 4 1, u 5 1, u 6 1, u 7 1, u 8 2, u 0x10 2].map (fun v => (v, v == 1))
        let zeros := [u 0x14 2, ring, bl].map (fun v => (v, v == 0))
        (firstBad (ones ++ zeros ++ [(u 0xE 2, u 0xE 2 == u 0xC 2), (xs, xs == 2), (u 0x16 2, u 0x16 2 % 32 == 0),
          (ys, ys % 64 == 0), (w.abase, w.abase % 64 == 0), (w.kBase, w.kBase % 32 == 0)])).map (descDetail 12)
      else none

/-- Checks 2 to 11 of R327 on the descriptor copy of an MV. -/
def mvCheck (bs : List Byte) (w : CmdWords) (pw rescale : Nat) : Option Nat :=
  let u (o n : Nat) : Nat := leAt bs o n
  let exp := sext 8 (u 0xA 1)
  let blk := u 8 1 * pw
  let res := [0xE, 0xF, 0x16, 0x17, 0x1E, 0x1F, 0x26, 0x27] ++ (List.range 24).map (· + 0x28)
  if u 0 1 ≠ 2 then some (descDetail 2 (u 0 1))
  else match firstNonzero bs res with
  | some o => some (descDetail 3 o)
  | none =>
    if 1 < u 1 1 then some (descDetail 4 (u 1 1))
    else if 2 < u 2 1 then some (descDetail 4 (u 2 1))
    else if u 3 1 ≠ pw then some (descDetail 5 (u 3 1))
    else if u 4 2 = 0 || 16384 < u 4 2 then some (descDetail 6 (u 4 2))
    else if u 6 2 = 0 then some (descDetail 6 0)
    else if u 8 1 = 0 then some (descDetail 6 0)
    else if 1 < u 9 1 then some (descDetail 7 (u 9 1))
    else if exp < -64 || 63 < exp then some (descDetail 7 (u 0xA 1))
    else if 1 < u 0xB 1 || (u 0xB 1 = 1 && rescale < u 0xC 2 + u 6 2) then some (descDetail 8 (u 0xC 2 + u 6 2))
    else if w.nCount = 0 || u 6 2 < w.nFirst + w.nCount then some (descDetail 9 (w.nFirst + w.nCount))
    else if w.nFirst % blk ≠ 0 || ((w.nFirst + w.nCount) % blk ≠ 0 && w.nFirst + w.nCount ≠ u 6 2) then
      some (descDetail 10 w.nFirst)
    else if u 9 1 = 1 && w.oaddr % 2 = 1 then some (descDetail 11 (w.oaddr % 2 ^ 24))
    else none

/-! ## Intake checks (R185) -/

/-- DETAIL of an ADDRESS status: address bits [47:16] (R202). -/
def addrDetail (a : Nat) : Nat := a / 65536 % 2 ^ 32

/-- ROW_PITCH of a weight tile (R246). -/
def rowPitch (cols fmt : Nat) : Nat := (cols * 32 + lanesOf fmt * 3 + 127) / 128 * 128

/-- The highest set bit of a mask, plus one. -/
def bitLen (m : Nat) : Nat := if m = 0 then 0 else m.log2 + 1

/-- Check 3 of R185: what the command names beyond the slot's shape. TOKENS 0 and ENTRIES 0, below the least count, are taken
as SHAPE too (log 15). -/
def State.shapeCheck (st : State) (fn s : Nat) (w : CmdWords) : Option Nat :=
  let beyond (m n : Nat) : Bool := m / 2 ^ n != 0
  let rows := st.rows fn s; let cols := st.cols fn s; let depth := st.accDepth fn s
  match w.op with
  | 1 => if beyond w.lwRows rows then some w.lwRows else none
  | 2 =>
    if beyond w.rowMask rows then some w.rowMask
    else if beyond w.runCols cols then some w.runCols
    else if w.tokens = 0 || depth < w.runFirst + w.tokens then some (w.runFirst + w.tokens) else none
  | 3 =>
    if beyond w.mintCols cols then some w.mintCols
    else if w.entries = 0 || depth < w.mintFirst + w.entries then some (w.mintFirst + w.entries)
    else if w.rscEn && st.rescaleDepth fn s < w.rscBase + cols then some (w.rscBase + cols) else none
  | 4 => if st.mvSlices fn s = 0 then some 0 else none
  | _ => none

/-- The extents in the core's own areas that a command gives (R259, R269, R328), as start and length. -/
def State.extents (st : State) (fn s : Nat) (w : CmdWords) (desc : List Byte) : List (Nat × Nat) :=
  let cols := st.cols fn s
  match w.op with
  | 1 =>
    let fmt := if w.format = 0 then 0 else 1
    let ng := st.rows fn s * lanesOf fmt / groupLen (min w.group 2)
    (if w.lwRows = 0 then [] else [(w.waddr, bitLen w.lwRows * rowPitch cols fmt)]) ++ [(w.saddr, 8 + cols * ng / 2)] ++
      (if w.escCount = 0 then [] else [(w.escAddr, 8 * w.escCount)])
  | 2 => if w.rowMask = 0 then [] else [(w.abase, 2)]
  | 3 =>
    if w.thresh || w.remote || w.mintCols = 0 then []
    else [(w.oaddr, (w.entries - 1) * w.ostride + (w.outFmt % 2 + 1) * bitLen w.mintCols)]
  | 4 =>
    let u (o n : Nat) : Nat := leAt desc o n
    let pw := max 1 (st.mvSlices fn s); let l := lanesOf (u 1 1); let nseg := (u 4 2 + l - 1) / l
    let b0 := w.nFirst / pw; let b1 := (w.nFirst + w.nCount - 1) / pw
    let ng := (u 4 2 + groupLen (min (u 2 1) 2) - 1) / groupLen (min (u 2 1) 2)
    let np := pw / 16; let csbb := max 1 (u 8 1); let c0 := b0 / csbb; let c1 := b1 / csbb
    [(w.vaddr, 2 * u 4 2), (u 0x10 6 + b0 * nseg * 32 * pw, (b1 + 1 - b0) * nseg * 32 * pw),
     (u 0x18 6, 8 + (u 6 2 * ng + 1) / 2),
     (u 0x20 6 + c0 * np * nseg * l * 6, (c1 + 1 - c0) * np * nseg * l * 6)] ++
      (if w.remote then [] else [(w.oaddr, w.nCount * (u 9 1 % 2 + 1))])
  | 5 => [(w.src, w.length)]
  | _ => []

/-- The range of window addresses that a command names, if it names one. -/
def windowExtent (w : CmdWords) (desc : List Byte) : Option (Nat × Nat) :=
  match w.op with
  | 3 =>
    if w.remote && !w.thresh && w.mintCols ≠ 0 then
      some (w.oaddr, (w.entries - 1) * w.ostride + (w.outFmt % 2 + 1) * bitLen w.mintCols)
    else none
  | 4 => if w.remote then some (w.oaddr, w.nCount * (leAt desc 9 1 % 2 + 1)) else none
  | 5 => some (w.dst, w.length)
  | _ => none

/-- Check 4 of R185: the start of the first extent that lies outside the areas it allows. -/
def State.addressCheck (st : State) (fn s : Nat) (w : CmdWords) (desc : List Byte) : Option Nat :=
  match (st.extents fn s w desc).find? (fun e => !st.ownRange fn s e.1 (max 1 e.2)) with
  | some e => some e.1
  | none =>
    match windowExtent w desc with
    | some e => if (st.findGrant (coreHolder fn s) e.1 (max 1 e.2)).isSome then none else some e.1
    | none => none

/-- Marks of a pace group (R135): how many marks a frame of the group has. -/
def State.groupMarks (st : State) (g : Nat) : Nat := (tget [] st.brs.marks g).length

/-- Check 5 of R185 without the descriptor: the status and DETAIL of the first condition that fails. R202 names no code for a
LOAD_W with ROW_MASK 0; the model gives SHAPE (log 15). -/
def State.conditionCheck (st : State) (fn : Nat) (w : CmdWords) : Option (Nat × Nat) :=
  let exp := sext 8 w.outExp
  match w.op with
  | 1 =>
    if 1 < w.format then some (0x0D, w.format)
    else if 2 < w.group then some (0x0D, w.group)
    else if w.lwRows = 0 then some (0x03, 0)
    else if !w.esc && w.escCount ≠ 0 then some (0x0D, w.escCount)
    else if w.escCount = 0 && w.escAddr ≠ 0 then some (0x0D, satN 32 w.escAddr)
    else none
  | 3 =>
    /- R543: overlay 1.1 -/
    if st.rf Reg.AXB_REVISION 23 8 = 0x0101 && (w.thresh || w.outExp = 0x80) then some (0x0D, 0xC3000000)
    else if 1 < w.outFmt then some (0x0D, w.outFmt)
    else if (exp < -64 || 63 < exp) && !(w.outExp = 0x80 && !w.thresh) then some (0x0D, w.outExp)
    else if w.thresh && w.remote then some (0x0D, 1)
    else if w.outFmt = 1 && !w.thresh && w.oaddr % 2 = 1 then some (0x0D, w.oaddr % 2 ^ 32)
    else if w.outFmt = 1 && !w.thresh && w.ostride % 2 = 1 then some (0x0D, w.ostride)
    else none
  | 5 => if w.length = 0 || w.length % 64 ≠ 0 then some (0x0D, w.length) else none
  | 8 =>
    let g := st.rf (Reg.FLD_PWR_STATE fn) 31 24
    if g = 0xFF || st.groupMarks g ≤ w.mark then some (0x07, w.mark) else none
  | 0x0A => if (st.part (st.owner fn)).blocks.testBit (w.tally / 32) then none else some (0x06, w.tally)
  | 0x0B => if (st.part (st.owner fn)).blocks.testBit (w.tally / 32) then none else some (0x06, w.tally)
  | _ => none

/-- Whether a RUN lacks weights (R199, R214): one of its rows is not latched, counting the LOAD_Ws ahead of it, or the
rows are in two formats. -/
def State.noWeights (st : State) (fn s : Nat) (w : CmdWords) : Bool :=
  let a := (st.core fn s).weightsAhead (st.rows fn s)
  w.op = 2 && (a.2 || (bitList (st.rows fn s) w.rowMask).any (fun r => (a.1.getD r none).isNone))

/-- The first word of a command with a reserved bit set, with those bits (R185 check 2). -/
def reservedBits (w : CmdWords) : Option Nat :=
  match definedBits w.op with
  | none => none
  | some l =>
    let bad := ([w.w0, w.w1, w.w2, w.w3].zip l).map (fun p => p.1 &&& ~~~ p.2)
    (bad.find? (· ≠ 0)).map (fun v => satN 32 v.toNat)

/-- The intake's checks on its head command (R185), with the descriptor copy of R233: a refusal's status and DETAIL, the
copy, and the state with GZC_AG_DESC counted. -/
def State.intakeCheck (st : State) (fn s : Nat) (w : CmdWords) : Option (Nat × Nat) × List Byte × State :=
  if (definedBits w.op).isNone then (some (0x01, w.op), [], st)
  else match reservedBits w with
  | some v => (some (0x02, v), [], st)
  | none => match st.shapeCheck fn s w with
  | some v => (some (0x03, satN 32 v), [], st)
  | none =>
    let ix := if w.op = 2 then some w.descIx else if w.op = 4 then some w.mvDesc else none
    /- the extents of a RUN need no descriptor: its check 4 comes before the copy of R233 -/
    match ix, (if w.op = 2 then st.addressCheck fn s w [] else none) with
    | some _, some a => (some (0x04, addrDetail a), [], st)
    | some d, none =>
      if 256 ≤ d then (some (0x09, descDetail 1 d), [], st)
      else
        let r := st.coreRead fn s (st.ctlBase fn s + 64 * d) 64
        let st := r.2.2.add (Reg.GZC_AG_DESC fn s) 63 0 1
        let bad := if w.op = 2 then feederCheck r.1 w else mvCheck r.1 w (st.mvSlices fn s) (st.rescaleDepth fn s)
        (match r.2.1 with
          | some a => some (0x0B, addrDetail a)
          | none =>
            match bad with
            | some v => some (0x09, v)
            | none => match (if w.op = 2 then none else st.addressCheck fn s w r.1) with
            | some a => some (0x04, addrDetail a)
            | none => if st.noWeights fn s w then some (0x05, 0) else none, r.1, st)
    | none, _ =>
      (match st.addressCheck fn s w [] with
        | some a => some (0x04, addrDetail a)
        | none => st.conditionCheck fn w, [], st)

/-! ## Retirement and halts -/

/-- A retirement record (R203). -/
def retireRecord (time status op tag : Nat) : Word :=
  BitVec.ofNat 64 (time % 2 ^ 32 * 2 ^ 32 + status * 2 ^ 24 + op * 2 ^ 16 + tag)

/-- Whether a status that a command ends with halts the core (R186, and the rules that say that R186 applies). -/
def haltsCore (op status : Nat) : Bool :=
  status = 0x0B || status = 0x0C || status = 0x0D || status = 0x08 || (status = 0x04 && op = 2)

/-- GZC_LAST_ERR and GZC_ERR_TIME, written together (R202, R203). -/
def State.lastErr (st : State) (fn s : Nat) (w : CmdWords) (status detail : Nat) : State :=
  let st := st.wn (Reg.GZC_LAST_ERR fn s) (w.tag * 2 ^ 48 + w.op * 2 ^ 40 + status * 2 ^ 32 + satN 32 detail)
  st.wn (Reg.GZC_ERR_TIME fn s) st.now

/-- Enter HALTED with GZC_LAST_ERR and GZC_ERR_TIME (R186). -/
def State.halt (st : State) (fn s : Nat) (w : CmdWords) (status detail : Nat) : State :=
  (st.setb (Reg.GZC_STATUS fn s) 2).lastErr fn s w status detail

/-- Whether a command of TAG `tag` is still in the core. -/
def CoreSt.holds (c : CoreSt) (tag : Nat) : Bool :=
  (c.intake ++ c.feed ++ c.mint ++ c.mv ++ c.push ++ c.ctrl).any (fun y => y.w.tag = tag)

/-- Post a record to the retirement FIFO. -/
def State.postRecord (st : State) (fn s : Nat) (w : CmdWords) (status : Nat) : State :=
  let c := st.core fn s
  st.putCore fn s { c with retire := c.retire ++ [retireRecord st.now status w.op w.tag] }

/-- Commands of a class queue. -/
def CoreSt.queue (c : CoreSt) (cls : Nat) : List Cmd :=
  match cls with
  | 0 => c.feed
  | 1 => c.mint
  | 2 => c.mv
  | 3 => c.push
  | _ => c.ctrl

def CoreSt.setQueue (c : CoreSt) (cls : Nat) (l : List Cmd) : CoreSt :=
  match cls with
  | 0 => { c with feed := l }
  | 1 => { c with mint := l }
  | 2 => { c with mv := l }
  | 3 => { c with push := l }
  | _ => { c with ctrl := l }

/-- Change the command with number `num` in a class queue. -/
def CoreSt.modCmd (c : CoreSt) (cls num : Nat) (f : Cmd → Cmd) : CoreSt :=
  c.setQueue cls ((c.queue cls).map (fun x => if x.num = num then f x else x))

/-- Every issued command with a smaller number has retired. -/
def CoreSt.earlierDone (c : CoreSt) (num : Nat) : Bool :=
  [c.feed, c.mint, c.mv, c.push, c.ctrl].all (fun l => l.all (fun x => decide (num ≤ x.num)))

/-! ## Slice groups (R173, R222) -/

/-- Live group-map entry of slice group `g` (R179). -/
def State.sliceEntry (st : State) (fn g : Nat) : Nat :=
  st.rf (Reg.FLD_SLICE_MAP fn (g / 4)) (16 * (g % 4) + 15) (16 * (g % 4))

/-- The groups of core slot `s` whose position satisfies `p mv col seg`. -/
def State.groupsOf (st : State) (fn s : Nat) (p : Bool → Nat → Nat → Bool) : List Nat :=
  (List.range 64).filter (fun g =>
    let e := st.sliceEntry fn g
    e / 256 = s && p (nbit e 7) (if nbit e 7 then e % 4 else nbits e 6 1) (e % 2))

/-- The groups that a command uses (R222, R320). -/
def State.groupsUsed (st : State) (fn s : Nat) (w : CmdWords) (desc : List Byte) : List Nat :=
  match w.op with
  | 1 => st.groupsOf fn s (fun _ _ _ => true)
  | 2 => st.groupsOf fn s (fun mv col seg =>
      !mv && (w.runCols.testBit col || col = st.cols fn s) && nbits w.rowMask (16 * seg + 15) (16 * seg) ≠ 0)
  | 4 => st.groupsOf fn s (fun mv pos _ =>
      mv && decide (pos * 16 < (if w.nCount < st.mvSlices fn s then w.nCount else st.mvSlices fn s)) && !desc.isEmpty)
  | _ => []

/-- Ungate what a command needs as it issues: 4 groups per 10 ns in ascending order, after any ungating in progress; the
command waits for every group it uses (R222, R320). UNGATES counts those of LOAD_W and RUN. -/
def State.ungate (st : State) (fn s : Nat) (x : Cmd) : State :=
  if x.w.op = 1 || x.w.op = 2 || x.w.op = 4 then
    let c := st.core fn s
    let used := st.groupsUsed fn s x.w x.desc
    let wake := (List.range 64).filter (fun g => c.gated.contains g && used.contains g && !c.waking.any (fun e => e.1 = g))
    let start := c.waking.foldl (fun a e => max a e.2) st.now
    let waking := c.waking ++ wake.zipIdx.map (fun p => (p.1, start + 10 * (p.2 / 4 + 1)))
    let gate := (waking.filter (fun e => used.contains e.1)).foldl (fun a e => max a e.2) 0
    let st := st.setCore fn s ({ c with waking := waking }.modCmd (classOf x.w.op) x.num (fun y => { y with gate := gate }))
    if wake.isEmpty || x.w.op = 4 then st else st.add (Reg.GZC_GATED fn s) 31 16 1
  else st

/-- The groups that are quiesced now (R219, R320): while a RUN stands in FEED, those of the array that no LOAD_W or RUN there
uses; while an MV stands in its queue, those of the path that none there uses. Each counts from when it became so, under
the GATE_DELAY and GATE_EN of that moment (R229). -/
def State.requiet (st : State) (fn s : Nat) : State :=
  let c := st.core fn s
  let used := (c.feed ++ c.mv).flatMap (fun x => st.groupsUsed fn s x.w x.desc)
  let side := st.groupsOf fn s (fun mv _ _ => if mv then !c.mv.isEmpty else c.feed.any (fun x => x.w.op = 2))
  let now' := side.filter (fun g => !used.contains g && !c.gated.contains g && !c.retired.contains g)
  let keep := c.quiet.filter (fun q => now'.contains q.1)
  let ctl := Reg.GZC_ARRAY_CTL fn s
  let delay : Option Nat := if st.rb ctl 0 then some (st.rf ctl 15 8) else none
  let new := (now'.filter (fun g => !keep.any (fun q => q.1 = g))).map (fun g => (g, st.now, delay))
  st.setCore fn s { c with quiet := keep ++ new }

/-! ## Address generation (R235-R241) -/

/-- The offset of lane `j` of row `r` of token `i` from ABASE, or none where the lane carries zero (R235, R236, R241). -/
def laneOffset (bs : List Byte) (w : CmdWords) (l i r j : Nat) : Option Nat :=
  let u (o n : Nat) : Nat := leAt bs o n
  let oy := i / u 0x12 2; let ox := i % u 0x12 2
  let k := w.kBase + r * l + j
  let c := u 0xC 2
  if u 1 1 % 2 = 1 then
    let ix : Int := sext 16 (u 0x16 2) + ox
    if c ≤ k || ix < 0 || (u 0xA 2 : Int) ≤ ix then none
    else some (k * u 0x20 4 + ix.toNat * 2)
  else
    let tap := k / c; let ch := k % c
    let ky := tap / u 3 1; let kx := tap % u 3 1
    let iy : Int := sext 16 (u 0x14 2) + oy * u 4 1 + ky * u 6 1
    let ix : Int := sext 16 (u 0x16 2) + ox * u 5 1 + kx * u 7 1
    if u 2 1 * u 3 1 ≤ tap || iy < 0 || (u 8 2 : Int) ≤ iy || ix < 0 || (u 0xA 2 : Int) ≤ ix then none
    else
      let ry := if u 0x18 2 = 0 then iy.toNat else iy.toNat % u 0x18 2
      let cb := u 0xE 2
      some (ch / cb * u 0x24 4 + ry * u 0x20 4 + ix.toNat * u 0x1C 4 + ch % cb * 2)

/-- Bring line `l` into the line buffer unless it is held; the line held longest leaves a full buffer (R238). -/
def State.fetchLine (st : State) (fn s l : Nat) : Option Nat × State :=
  let c := st.core fn s
  if c.lines.any (fun e => e.1 = l) then (none, st)
  else
    let r := st.coreRead fn s (l * 128) 128
    let c := r.2.2.core fn s
    let lines := if 256 ≤ c.lines.length then c.lines.drop 1 else c.lines
    (r.2.1, (r.2.2.setCore fn s { c with lines := lines ++ [(l, r.1)] }).add (Reg.GZC_AG_LINES fn s) 63 0 1)

/-- Key of a segment of 64 bytes in the transposed block that row `r` uses. -/
def segKey (r a : Nat) : Nat := r * 2 ^ 48 + a / 64

/-- Read a segment of row `r`'s transposed block unless the block holds it (R241). -/
def State.fetchSeg (st : State) (fn s r a : Nat) : Option Nat × State :=
  if (st.core fn s).segs.any (fun e => e.1 = segKey r a) then (none, st)
  else
    let q := st.coreRead fn s (a / 64 * 64) 64
    let c := q.2.2.core fn s
    (q.2.1, q.2.2.setCore fn s { c with segs := c.segs ++ [(segKey r a, q.1)] })

/-- One byte of held lines or segments. -/
def heldByte (l : List (Nat × List Byte)) (key off : Nat) : Byte :=
  match l.find? (fun e => e.1 = key) with
  | some e => (e.2.getD off 0)
  | none => 0

/-- What stopped the generators: an address outside the areas, or a poisoned word. -/
inductive GenStop where
  | address (a : Nat)
  | poison (a : Nat)
deriving DecidableEq, Repr

/-- Form the lanes `j` of row `r` of token `i`, in order: their values, with zero lanes counted in GZC_AG_ZERO. -/
def State.genLanes (st : State) (fn s : Nat) (bs : List Byte) (w : CmdWords) (l i r : Nat) :
    List Nat → List Int → Option GenStop × List Int × State
  | [], acc => (none, acc.reverse, st)
  | j :: t, acc =>
    match laneOffset bs w l i r j with
    | none => State.genLanes (st.add (Reg.GZC_AG_ZERO fn s) 63 0 1) fn s bs w l i r t (0 :: acc)
    | some o =>
      let a := w.abase + o
      if 2 ^ 48 ≤ a || !st.ownRange fn s a 2 then (some (.address a), acc.reverse, st)
      else if leAt bs 1 1 % 2 = 1 then
        let q := st.fetchSeg fn s r a
        match q.1 with
        | some p => (some (.poison p), acc.reverse, q.2)
        | none =>
          let g := (q.2.core fn s).segs
          let v := sext 16 ((heldByte g (segKey r a) (a % 64)).toNat + 256 * (heldByte g (segKey r a) (a % 64 + 1)).toNat)
          State.genLanes q.2 fn s bs w l i r t (v :: acc)
      else
        let q1 := st.fetchLine fn s (a / 128)
        let lo := heldByte (q1.2.core fn s).lines (a / 128) (a % 128)
        let q2 := q1.2.fetchLine fn s ((a + 1) / 128)
        match q1.1, q2.1 with
        | none, none =>
          let hi := heldByte (q2.2.core fn s).lines ((a + 1) / 128) ((a + 1) % 128)
          State.genLanes q2.2 fn s bs w l i r t (sext 16 (lo.toNat + 256 * hi.toNat) :: acc)
        | some p, _ => (some (.poison p), acc.reverse, q2.2)
        | _, some p => (some (.poison p), acc.reverse, q2.2)

/-- Before the first token of a transposed block, the segments of the row's last block are dropped; each 32-lane half of the
row that holds a lane inside the tensor counts one block (R241). -/
def State.blockStart (st : State) (fn s : Nat) (bs : List Byte) (w : CmdWords) (l i r : Nat) : State :=
  let ix : Int := sext 16 (leAt bs 0x16 2) + (i % leAt bs 0x12 2 : Nat)
  if leAt bs 1 1 % 2 = 1 && (i = 0 || ix % 32 = 0) then
    let halves := (List.range (l / 32)).filter (fun h =>
      w.kBase + r * l + 32 * h < leAt bs 0xC 2 && decide (-32 < ix ∧ ix < (leAt bs 0xA 2 : Int)))
    let st := st.add (Reg.GZC_AG_BLOCKS fn s) 63 0 halves.length
    let c := st.core fn s
    st.setCore fn s { c with segs := c.segs.filter (fun e => e.1 / 2 ^ 48 ≠ r) }
  else st

/-- A RUN's generators stop at token `i`: the tokens before it that a row has broadcast complete, the others are given up, and
the RUN ends with `status` (07 under RUN, R236, R355). -/
def CoreSt.stopRun (c : CoreSt) (num i status detail : Nat) : CoreSt :=
  let out := (c.toks.filter (fun t => t.num = num)).foldl (fun a t => max a (t.idx + 1)) 0
  let n (x : Cmd) : Nat := min x.total (min i (max x.written out))
  let last := ((c.feed.find? (fun x => x.num = num)).map n).getD 0
  let c := c.modCmd 0 num (fun x => { x with total := n x, status := status, detail := detail, tail := decide (n x ≤ x.written) })
  let c := c.mapRows (fun x => { x with q := x.q.filter (fun q =>
    match q with
    | .token m k _ => !(m = num && decide (last ≤ k))
    | _ => true) })
  { c with toks := c.toks.filter (fun t => !(t.num = num && decide (last ≤ t.idx))) }

/-- Bit mask of the lanes carried as zero (R236, R583). -/
def zMask (bs : List Byte) (w : CmdWords) (l i r : Nat) : Nat :=
  ((List.range l).filter (fun j => (laneOffset bs w l i r j).isNone)).foldl (fun a j => a + 2 ^ j) 0

/-- The 16-bit two's-complement word of a lane value. -/
def laneWord (v : Int) : Nat := twos 16 v

/-- The 18 words of a PF_OUT word (R583): 16 of data, 2 of side field. -/
def pfWord (lanes : List Int) (zmask idx row fmt last req tag : Nat) : List Nat :=
  let d := lanes.map laneWord
  let w (i : Nat) : Nat := (List.range 4).foldl (fun a k => a + d.getD (4 * i + k) 0 * 2 ^ (16 * k)) 0
  (List.range 16).map w ++
    [zmask, idx + row * 2 ^ 16 + fmt * 2 ^ 21 + last * 2 ^ 22 + req * 2 ^ 23 + tag * 2 ^ 24]

def State.island (st : State) (fn s : Nat) : IslSt := tget {} st.isl (fn * 4 + s)

/-- Replace an island's adapter state; ISL_STATUSs follows (R598). -/
def State.setIsl (st : State) (fn s : Nat) (x : IslSt) : State :=
  let st := { st with isl := tput {} st.isl (fn * 4 + s) x }
  let r := Reg.ISL_STATUS fn s
  let st := (st.wf r 15 10 x.inq.length).wf r 9 5 x.pmq.length
  (st.wf r 1 1 (if x.resync then 1 else 0)).wf r 0 0 (if x.rstLow then 1 else 0)

/-- Put a row-token into its row feeder's queue. -/
def State.deliver (st : State) (fn s r num idx : Nat) (lanes : List Int) : State :=
  let c := st.core fn s
  let row := c.row r
  st.setCore fn s (c.setRow r { row with q := row.q ++ [.token num idx lanes] })

/-- PF_IN enters RESYNC: counted, with its notice (R510, R585, R596). -/
def State.pfResync (st : State) (fn s : Nat) : State :=
  let st := st.addSat (Reg.ISL_PROTO fn s) 63 32 1
  st.notice 0x2C (st.owner fn) fn s 0xFF (0x100 + 4 * fn + s) (st.rf (Reg.ISL_PROTO fn s) 63 32)

/-- Discard what the post-mint tap holds; a diverted command whose END vector goes with it retires as if the island had accepted
it (R588, R595, log 31). -/
def State.pmDiscard (st : State) (fn s : Nat) : State :=
  let x := st.island fn s
  let st := x.pmq.foldl (fun (st : State) e => match e.fin with
    | some num => st.putCore fn s ((st.core fn s).modCmd e.cls num (fun y => { y with tail := true }))
    | none => st) st
  st.setIsl fn s { st.island fn s with pmq := [] }

/-- Match the words the island has returned with the row-tokens the pre-feeder tap owes, in order (R585). A token owed
after an early END, or while the island is in reset, is supplied as zeros (R595). -/
def State.pfMatch (st : State) (fn s : Nat) : Nat → State
  | 0 => st
  | fuel + 1 =>
    let x := st.island fn s
    match x.due with
    | [] => st
    | d :: ds =>
      if x.ended = some d.num || x.zero then
        let st := st.setIsl fn s { x with due := ds }
        let st := if x.zero then st.add (Reg.ISL_ZERO_FILL fn s) 63 0 1 else st
        State.pfMatch (st.deliver fn s d.row d.num d.idx (List.replicate (lanesOf d.fmt) 0)) fn s fuel
      else
        match x.inq with
        | [] => st
        | w :: ws =>
          let lane (j : Nat) : Int :=
            if d.zmask.testBit j then 0 else sext 16 (w.getD (j / 4) 0 / 2 ^ (16 * (j % 4)))
          let last := nbit (w.getD 17 0) 22
          /- the last counted word without END: words up to the next END are discarded (R585, R510) -/
          let lost := d.last && !last
          let rest := ws.dropWhile (fun w => !nbit (w.getD 17 0) 22)
          let st := (st.deliver fn s d.row d.num d.idx ((List.range (lanesOf d.fmt)).map lane)).setIsl fn s
            { x with due := ds, inq := if lost then rest.drop 1 else ws,
                     ended := if last && !d.last then some d.num else x.ended, resync := x.resync || (lost && rest.isEmpty) }
          let st := if last && !d.last then st.addSat (Reg.ISL_PROTO fn s) 31 0 1 else st
          let st := if lost then st.pfResync fn s else st
          State.pfMatch st fn s fuel

/-- An island goes into reset (R594, R595): both sides of its adapters are emptied, outstanding store-side requests are
discarded, and what the pre-feeder tap owes is supplied as zeros. -/
def State.islDown (st : State) (fn s : Nat) : State :=
  let st := st.pmDiscard fn s
  let x := st.island fn s
  (st.setIsl fn s { x with rstLow := true, zero := true, inq := [], outq := [], ended := none, inItem := false, resync := false,
                           ss := [], writes := [], rxFill := [], rxAt := [] }).pfMatch fn s x.due.length

/-- ISL_RST_N goes high unless ISL_CTLs.RESET holds it (R594). -/
def State.islUp (st : State) (fn s : Nat) : State :=
  st.setIsl fn s { st.island fn s with rstLow := st.rb (Reg.ISL_CTL fn s) 0, upAt := st.now, attnX := none }

/-! ## The store-side tap (R589-R592) -/

/-- Answer the store-side requests at the front whose answers are known, in order (R589). -/
def State.ssDrain (st : State) (fn s : Nat) : Nat → State
  | 0 => st
  | fuel + 1 =>
    let x := st.island fn s
    match x.ss with
    | [] => st
    | e :: t =>
      match e.answer with
      | none => st
      | some a => State.ssDrain ((st.setIsl fn s { x with ss := t }).emit (.island fn s 5 [a.2, a.1])) fn s fuel

/-- Give store-side request `i` its answer; a refusal or a request done is counted (R590). -/
def State.ssAnswer (st : State) (fn s i status data : Nat) : State :=
  let x := st.island fn s
  let l := x.ss.zipIdx.map (fun (e : SsPend × Nat) => if e.2 = i then { e.1 with answer := some (status, data) } else e.1)
  let r := Reg.ISL_COUNTS fn s
  let st := if status = 1 then st.addSat r 31 0 1 else st.addSat r 63 32 1
  st.setIsl fn s { x with ss := l }

/-- Perform store-side request `i`: a refused address is recorded, a poisoned read is recorded and halts nothing, a signal is
sent as one of the core's slot after every earlier write (R590, R591). -/
def State.ssServe (st : State) (fn s i : Nat) (e : SsPend) : State :=
  if !st.rb (Reg.ISL_CTL fn s) 8 || e.op = 3 then st.ssAnswer fn s i 1 0
  else if e.op = 2 then
    let tag := st.mesh.nextTag
    let x := st.island fn s
    let l := x.ss.zipIdx.map (fun (y : SsPend × Nat) => if y.2 = i then { y.1 with tag := some tag } else y.1)
    let st := st.setIsl fn s { x with ss := l }
    let st := st.track { holder := 5000, grant := 64, tag := tag, units := 0, time := st.now, dst := 0, job := .island fn s tag }
    st.send fn { kind := 0x0C, part := st.owner fn, srcUnit := s, tag := tag, dst := unitDst st.anchor 8,
                 a := e.tally, b := e.data % 2 ^ 48 }
  else if e.addr % 8 ≠ 0 || !st.ownRange fn s e.addr 8 then
    (st.wf (Reg.ISL_ERR fn s) 47 0 e.addr).ssAnswer fn s i 1 0
  else if e.op = 1 then (st.coreWrite fn s e.addr (leBytes 8 e.data)).ssAnswer fn s i 0 0
  else
    let r := st.narrowRead fn s e.addr
    match r.2.1 with
    | some a => (r.2.2.fault 0x08 0 (st.owner fn) fn s 0xFF a 0xFFFE).ssAnswer fn s i 2 0
    | none => r.2.2.ssAnswer fn s i 0 (leNat r.1)

/-- Serve what the store-side tap holds: requests wait while the slot is held for a patch or a cache-share change is busy
(R592). -/
def State.ssPump (st : State) (fn s : Nat) : Nat → State
  | 0 => st.ssDrain fn s 16
  | fuel + 1 =>
    let c := st.core fn s
    if c.held || c.shareAt.isSome then st.ssDrain fn s 16
    else
      match (st.island fn s).ss.zipIdx.find? (fun (e : SsPend × Nat) => e.1.answer.isNone && e.1.tag.isNone) with
      | none => st.ssDrain fn s 16
      | some (e, i) => State.ssPump (st.ssServe fn s i e) fn s fuel

/-- Store-side requests that were held in a field go on. -/
def State.ssGoOn (st : State) (fn : Nat) : State :=
  (List.range 4).foldl (fun (st : State) s => if (st.island fn s).ss.isEmpty then st else st.ssPump fn s 16) st

/-- The answer of the tally unit to a signal of the tap (R513, R589): stale is STATUS 3, a leap 4, a tally not permitted 1. -/
def State.ssSignalled (st : State) (fn s tag status : Nat) : State :=
  match (st.island fn s).ss.zipIdx.find? (fun (e : SsPend × Nat) => e.1.tag = some tag && e.1.answer.isNone) with
  | none => st
  | some (_, i) => (st.ssAnswer fn s i ([0, 3, 4, 1].getD status 1) 0).ssDrain fn s 16

/-- The next row of a tapped RUN that the generators serve: row-tokens go in token order, ascending rows (R583). -/
def CoreSt.tapTurn (c : CoreSt) (rows : Nat) (x : Cmd) (r : Nat) : Bool :=
  let l := runRows rows x.w
  let pos (q : Nat) : Nat := if (c.row q).gnum < x.num then 0 else if (c.row q).gnum = x.num then (c.row q).gidx else x.total
  l.all (fun q => decide (pos r < pos q) || (decide (pos r = pos q) && decide (r ≤ q)))

/-- The subscales that row `r`'s weight-load token carries (R248), as entries of `CoreSt.subs`: of every group whose first row
in ROW_MASK is `r`, for all the group's rows. The first poisoned word met is answered too. -/
def State.loadSubs (st : State) (fn s r : Nat) (w : CmdWords) : List (Nat × Nat) × Option Nat × State :=
  let rows := st.rows fn s
  let l := lanesOf w.format
  let g := groupLen w.group
  let ng := rows * l / g
  let mine := (List.range ng).filter (fun q =>
    (List.range rows).find? (fun p => w.lwRows.testBit p && decide (q * g / l ≤ p ∧ p ≤ (q * g + g - 1) / l)) == some r)
  let parts := (List.range rows).flatMap (fun p => (List.range (l / 32)).map (fun h => (p, h, (p * l + 32 * h) / g)))
  match mine.head?, mine.getLast? with
  | some q0, some q1 =>
    (List.range (st.cols fn s)).foldl (fun a n =>
      let first := (n * ng + q0) / 2
      let rd := a.2.2.coreRead fn s (w.saddr + 8 + first) ((n * ng + q1) / 2 + 1 - first)
      let nib (i : Nat) : Nat :=
        let v := leAt rd.1 (i / 2 - first) 1
        if i % 2 = 0 then v % 16 else v / 16
      (a.1 ++ (parts.filter (fun p => mine.contains p.2.2)).map (fun p => ((p.1 * 2 + p.2.1) * 64 + n, nib (n * ng + p.2.2))),
        a.2.1.or rd.2.1, rd.2.2)) ([], none, st)
  | _, _ => ([], none, st)

/-- The weight-load token of row `r` (R212, R246, R248): the row record, the subscales of its groups, and with the first such
token the head of the scale tensor. -/
def State.genLoad (st : State) (fn s r : Nat) (x : Cmd) : State :=
  let n := st.cols fn s * 32 + lanesOf x.w.format * 3
  let rd := st.coreRead fn s (x.w.waddr + r * rowPitch (st.cols fn s) x.w.format) n
  let hd := if x.head.isNone then rd.2.2.coreRead fn s x.w.saddr 8 else (x.head.getD [], none, rd.2.2)
  let sb := hd.2.2.loadSubs fn s r x.w
  let c := sb.2.2.core fn s
  let bad := rd.2.1.or (hd.2.1.or sb.2.1)
  let c := c.modCmd 0 x.num (fun y => { y with
    head := some hd.1, status := if y.status = 0 && bad.isSome then 0x0B else y.status,
    detail := if y.status = 0 then (bad.map addrDetail).getD y.detail else y.detail })
  let row := c.row r
  let e := QEnt.load x.num { fmt := x.w.format, esc := x.w.esc, codes := rd.1 } sb.1
  sb.2.2.setCore fn s (c.setRow r { row with q := row.q ++ [e], gnum := x.num, gidx := 0 })

/-- One delivery of the address generators to row feeder `r` (R207, R212, R235): the next FEED command not yet delivered
to the row gives a weight-load token, a latch marker behind it, or the row's next activation token. A row that a RUN's
ROW_MASK quiesces reads nothing until that RUN has broadcast (R219). -/
def State.genBeat (st : State) (fn s r : Nat) : State :=
  let c := st.core fn s
  let row := c.row r
  let rows := st.rows fn s
  let owed := ((st.island fn s).due.filter (fun d => d.row = r)).length
  if rows ≤ r || st.feedDepth fn s ≤ row.q.length + owed then st
  else match c.feed.find? (fun x => decide (row.gnum < x.num) || (decide (row.gnum = x.num) &&
      if x.w.op = 1 then decide (row.gidx = 0) else (runRows rows x.w).contains r && decide (row.gidx < x.total))) with
  | none => st
  | some x =>
    if x.w.op = 1 then
      if x.w.lwRows.testBit r && row.gnum ≠ x.num then st.genLoad fn s r x
      else st.setCore fn s (c.setRow r { row with q := row.q ++ [.marker x.num], gnum := x.num, gidx := 1 })
    else if c.feed.any (fun y => y.w.op = 2 && y.num < x.num && !(runRows rows y.w).contains r && !c.runDone rows y) then st
    else
      let i := if row.gnum = x.num then row.gidx else 0
      if !(runRows rows x.w).contains r || x.total ≤ i then
        st.setCore fn s (c.setRow r { row with gnum := x.num, gidx := x.total })
      else if i = 0 && c.bankWait x then st
      else
        let row := { row with gnum := x.num, gidx := i + 1 }
        if x.w.rowMask = 0 then st.setCore fn s (c.setRow r { row with q := row.q ++ [.token x.num i []] })
        else
          let fmt := ((c.feed.filter (fun y => y.w.op = 1 && y.num < x.num)).getLast?.map (·.w.format)).getD
            (((c.row r).w.map (·.fmt)).getD 0)
          let l := lanesOf fmt
          let last := decide (i + 1 = x.total) && (runRows rows x.w).getLast? == some r
          if x.pre ≠ 0 && !c.tapTurn rows x r || x.pre = 1 && 32 ≤ (st.island fn s).outq.length then st
          else if x.pre = 2 then
            let st := st.setCore fn s (c.setRow r row)
            let y := st.island fn s
            let z := zMask x.desc x.w l i r
            let st := st.add (Reg.GZC_AG_ZERO fn s) 63 0 (popN l z)
            (st.setIsl fn s { y with due := y.due ++ [{ num := x.num, idx := i, row := r, zmask := z, fmt := fmt, last := last }] }).pfMatch fn s 64
          else
            let st := st.blockStart fn s x.desc x.w l i r
            let g := st.genLanes fn s x.desc x.w l i r (List.range l) []
            match g.1 with
            | some (.address a) => g.2.2.setCore fn s ((g.2.2.core fn s).stopRun x.num i 0x04 (addrDetail a))
            | some (.poison a) => g.2.2.setCore fn s ((g.2.2.core fn s).stopRun x.num i 0x0B (addrDetail a))
            | none =>
              let st := g.2.2
              let c := st.core fn s
              if x.pre = 1 then
                let st := st.setCore fn s (c.setRow r row)
                let y := st.island fn s
                let z := zMask x.desc x.w l i r
                let b (v : Bool) : Nat := if v then 1 else 0
                let out := if y.zero then [] else [pfWord g.2.1 z i r fmt (b last) 0 x.w.tag]
                (st.setIsl fn s { y with outq := y.outq ++ out, due := y.due ++ [{ num := x.num, idx := i, row := r, zmask := z, fmt := fmt, last := last }] }).pfMatch fn s 64
              else st.setCore fn s (c.setRow r { row with q := row.q ++ [.token x.num i g.2.1] })

/-! ## Broadcast and column trees (R205-R209) -/

/-- The weight code of lane `j` in data column `col` of a row; an escape code contributes zero (R244, R246). -/
def RowW.code (w : RowW) (col j : Nat) : Int :=
  if w.fmt = 1 then
    let b := leAt w.codes (32 * col + j / 2) 1
    let n := if j % 2 = 0 then b % 16 else b / 16
    if w.esc && n = 8 then 0 else sext 4 n
  else
    let b := leAt w.codes (32 * col + j) 1
    if w.esc && b = 0x80 then 0 else sext 8 b

/-- The checksum-column cell of lane `j` (R246, R283). -/
def RowW.cell (w : RowW) (cols j : Nat) : Int := sext 24 (leAt w.codes (32 * cols + 3 * j) 3)

/-- Subscale of the 32 lanes `half` of row `r` in column `col` (R248). -/
def CoreSt.sub (c : CoreSt) (r half col : Nat) : Nat := tget 0 c.subs ((r * 2 + half) * 64 + col)

/-- What row `r` contributes to column `col` for one token: the shifted sum of its products (R204, R249), or the exact
sum of the checksum column. -/
def CoreSt.rowSum (c : CoreSt) (cols r col : Nat) (lanes : List Int) : Int :=
  match (c.row r).w with
  | none => 0
  | some w =>
    if col = cols then (lanes.zipIdx).foldl (fun a p => a + w.cell cols p.2 * p.1) 0
    else (lanes.zipIdx).foldl (fun a p => a + w.code col p.2 * p.1 * 2 ^ c.sub r (p.2 / 32) col) 0

/-- Insert a token in the order of commands and token indices. -/
def insertTok (t : Tok) : List Tok → List Tok
  | [] => [t]
  | x :: xs =>
    if t.num < x.num ∨ (t.num = x.num ∧ t.idx < x.idx) then t :: x :: xs else x :: insertTok t xs

/-- One broadcast of row feeder `r` (R206, R208): its head token, when it is at most 4 tokens ahead of the trees of the
columns that take it, the RUN's groups are ungated and its bank is free. A beat in which at least one row broadcasts a real
token counts once in GZC_ARRAY_BEATS (chapter 07). -/
def State.rowBeat (st : State) (fn s r : Nat) : State :=
  let c := st.core fn s
  let row := c.row r
  let cols := st.cols fn s
  match row.q with
  | .token num idx lanes :: rest =>
    match c.feed.find? (fun x => x.num = num) with
    | none => st
    | some x =>
      let act := runCols cols x.w
      if !c.rowCan cols st.now r then st
      else
        let old := c.toks.find? (fun t => t.num = num && t.idx = idx)
        let t := old.getD { num := num, idx := idx, lw := c.lw }
        let sums := act.foldl (fun m k => tput 0 m k (tget 0 m k + c.rowSum cols r k lanes)) t.sums
        let t := { t with lanes := t.lanes ++ [(r, lanes)], sums := sums }
        let toks := if old.isSome then c.toks.map (fun y => if y.num = num && y.idx = idx then t else y)
          else insertTok t c.toks
        let real := !c.slotReal && !lanes.isEmpty
        let c := { (c.setRow r { row with q := rest }) with toks := toks, slotReal := c.slotReal || !lanes.isEmpty }
        let st := st.putCore fn s c
        if real then st.add (Reg.GZC_ARRAY_BEATS fn s) 63 0 1 else st
  | _ => st

/-- One join of the tree of column `col`: the next token of the column, once every row of its RUN has broadcast it and
the tree's output link has room for it (R209, R215). -/
def State.treeBeat (st : State) (fn s col : Nat) : State :=
  let c := st.core fn s
  let cols := st.cols fn s
  let used (t : Tok) : Bool := (c.feed.find? (fun x => x.num = t.num)).any (fun x => (runCols cols x.w).contains col)
  match c.toks.find? (fun t => used t && !t.joined.contains col) with
  | none => st
  | some t =>
    match c.feed.find? (fun x => x.num = t.num) with
    | none => st
    | some x =>
      let full := (runRows (st.rows fn s) x.w).all (fun r => t.lanes.any (fun e => e.1 = r))
      let before := c.feed.any (fun y => y.w.op = 2 && decide (y.num < t.num) && (runCols cols y.w).contains col &&
        decide (y.written + (c.toks.filter (fun z => z.num = y.num && z.joined.contains col)).length < y.total))
      let inOrder := decide (x.written + (c.toks.filter (fun z => z.num = t.num && z.joined.contains col)).length = t.idx)
      let link := (c.toks.filter (fun z => z.joined.contains col && !z.merged.any (fun m => m.1 = col))).length
      if !full || before || !inOrder || 4 ≤ link then st
      else
        let toks := c.toks.map (fun z => if z.num = t.num && z.idx = t.idx then { z with joined := z.joined ++ [col] } else z)
        st.putCore fn s { c with toks := toks }

/-! ## Escape merge and accumulators (R250-R258) -/

/-- A side-list entry from its 64-bit word (R251), with whether it passes R252 after the entry before it. -/
def parseEsc (cols : Nat) (prev : Option Esc) (v : Nat) : Esc × Bool :=
  let e : Esc := { k := v % 2 ^ 20, n := nbits v 31 20, v := sext 24 (nbits v 55 32), rel := nbit v 56 }
  let later := match prev with
    | none => true
    | some p => decide (p.k < e.k ∨ (p.k = e.k ∧ p.n < e.n))
  (e, decide (e.n < cols) && decide (nbits v 63 57 = 0) && later)

/-- What the read of a stretch of a side list found: its entries, the index of the first that fails R252, the address of the
first poisoned word. -/
structure EscRead where
  entries : List Esc := []
  bad : Option Nat := none
  poison : Option Nat := none
deriving DecidableEq, Repr

/-- Read entries `i`, `i + 1`, ... of a side list, each checked as it is read; one that fails is an entry all the same, a
poisoned word is none (R252, R253, R355). -/
def State.readEscs (st : State) (fn s base cols : Nat) : Nat → Nat → Option Esc → EscRead → EscRead × State
  | 0, _, _, acc => (acc, st)
  | n + 1, i, prev, acc =>
    let r := st.coreRead fn s (base + 8 * i) 8
    let p := parseEsc cols prev (leNat r.1)
    if r.2.1.isSome then State.readEscs r.2.2 fn s base cols n (i + 1) prev { acc with poison := acc.poison.or r.2.1 }
    else State.readEscs r.2.2 fn s base cols n (i + 1) (some p.1)
      { acc with entries := acc.entries ++ [p.1], bad := if p.2 then acc.bad else acc.bad.or (some i) }

/-- The corrections of a token in data column `col` with the subscales of its weights (R255), and how many entries applied. -/
def corrections (subs : List (Nat × Nat)) (x : Cmd) (t : Tok) (rows l col : Nat) (es : List Esc) : Int × Nat :=
  es.foldl (fun a e =>
    if e.n = col && decide (x.w.kBase ≤ e.k ∧ e.k < x.w.kBase + rows * l) && x.w.rowMask.testBit ((e.k - x.w.kBase) / l)
    then
      let r := (e.k - x.w.kBase) / l
      let j := (e.k - x.w.kBase) % l
      let xv := (((t.lanes.find? (fun q => q.1 = r)).map (·.2)).getD []).getD j 0
      (a.1 + e.v * xv * 2 ^ (if e.rel then tget 0 subs ((r * 2 + j / 32) * 64 + col) else 0), a.2 + 1)
    else a) (0, 0)

/-- Bank entry key. -/
def accKey (bank entry col : Nat) : Nat := (bank * 2048 + entry) * 64 + col

/-- Write a partial sum into its bank entry (R210, R257): 48-bit wrap, and whether the true sum lay outside (R258). -/
def accWrite (acc : List (Nat × Nat)) (key : Nat) (add : Bool) (p : Int) : List (Nat × Nat) × Bool :=
  let v := if add then sext 48 (tget 0 acc key) + p else p
  (tput 0 acc key (twos 48 v), decide (v < -(2 ^ 47) ∨ 2 ^ 47 ≤ v ∨ p < -(2 ^ 47) ∨ 2 ^ 47 ≤ p))

/-- Record the TSHIFT `t` of a token's weights for its bank at the bank's first ACCUM 0 write after it was empty, or set MIX
(R250). -/
def State.recordShift (st : State) (fn s : Nat) (w : CmdWords) (t : Int) : State :=
  let c := st.core fn s
  let b := w.bank
  if !w.accum && c.bankEmpty.contains b then
    (st.setCore fn s { c with bankT := (c.bankT.filter (fun e => e.1 ≠ b)) ++ [(b, t)],
                              bankEmpty := c.bankEmpty.erase b }).wf
      (Reg.GZC_BANK_EXP fn s) (8 * b + 7) (8 * b) (twos 8 t)
  else if w.accum && (c.bankT.any (fun e => e.1 = b && e.2 ≠ t)) then st.setb (Reg.GZC_BANK_EXP fn s) (18 + b)
  else st

/-- A token whose every column has been written: the residual of R284, the window sums of R287, the mismatch record of
R288, the escape failure of R252, and the RUN's tail. -/
def State.tokenDone (st : State) (fn s : Nat) (x : Cmd) (t : Tok) : State :=
  let c := st.core fn s
  let cols := st.cols fn s
  let p (k : Nat) : Int := ((t.merged.find? (fun m => m.1 = k)).map (·.2)).getD 0
  let data := (runCols cols x.w).filter (· ≠ cols)
  let rho := twos 48 (p cols - data.foldl (fun a k => a + p k) 0)
  let fail := decide (rho ≠ 0)
  /- window sums -/
  let wi := t.idx / x.window
  let fresh := !(c.win.num = t.num && c.win.index = wi)
  let w0 : CsWin := if fresh then { num := t.num, index := wi } else c.win
  let xbar := t.lanes.foldl (fun m e => (e.2.zipIdx).foldl
    (fun m q => tput 0 m (e.1 * 64 + q.2) (tget 0 m (e.1 * 64 + q.2) + q.1)) m) w0.xbar
  let acc := t.merged.foldl (fun m e => tput 0 m e.1 ((tget 0 m e.1 + twos 48 e.2) % 2 ^ 48)) w0.acc
  let win := { w0 with failed := w0.failed || fail, xbar := xbar, acc := acc }
  let ends := decide ((t.idx + 1) % x.window = 0 ∨ t.idx + 1 = x.total)
  let recorded := st.rb (Reg.GZC_CS_STATUS fn s) 31
  let first := fail && !recorded && x.first.isNone
  /- record -/
  let st := if first then
      ((st.wn (Reg.GZC_CS_FIRST fn s) (x.w.tag * 2 ^ 48 + wi * 2 ^ 32 + t.idx)).wn (Reg.GZC_CS_RESID fn s) rho).setb
        (Reg.GZC_CS_STATUS fn s) 31
    else st
  let frozen := if first then
      some { complete := false, index := wi, num := t.num, run := x.w, load := (c.latched t.lw).words, xbar := [],
             acc := [] : Frozen }
    else c.frozen
  let frozen := match frozen with
    | some f => if ends && f.num = t.num && f.index = wi && !f.complete then
        some { f with complete := true, xbar := xbar, acc := acc } else some f
    | none => none
  let st := if ends then
      let st := st.add (Reg.GZC_CS_WINDOWS fn s) 63 0 1
      if win.failed then
        let st := st.add (Reg.GZC_CS_FAILS fn s) 63 0 1
        let mine := frozen.any (fun f => f.num = t.num && f.index = wi)
        if mine then st else st.addSat (Reg.GZC_CS_STATUS fn s) 7 0 1
      else st
    else st
  /- the RUN -/
  let tab := c.escTab t.lw
  let bad := tab.bind (fun e => if e.used then none else e.bad)
  let pois := tab.bind (fun e => if e.used then none else e.poison)
  let status := if x.status ≠ 0 then x.status else if bad.isSome then 0x0D else if pois.isSome then 0x0B else 0
  let x' : Cmd := { x with
    written := x.written + 1,
    first := if fail && x.first.isNone then some t.idx else x.first,
    failWin := if fail && x.failWin.isNone then some wi else x.failWin,
    status := status,
    detail := if x.status ≠ 0 then x.detail else (bad.getD ((pois.map addrDetail).getD x.detail)),
    tail := decide (x.total ≤ x.written + 1) }
  let c := (st.core fn s).modCmd 0 x.num (fun _ => x')
  let c := { c with
    toks := c.toks.filter (fun z => !(z.num = t.num && z.idx = t.idx)),
    win := win, frozen := frozen,
    escs := if bad.isSome || pois.isSome then c.escs.map (fun e => if e.lw = t.lw then { e with used := true } else e) else c.escs }
  st.putCore fn s c

/-- Pass the tokens of column `k` whose RUN masks it, in token order up to the first that the column has still to take: once
every row has broadcast such a token, its entry becomes zero under ACCUM 0 (R210, R219). -/
def CoreSt.passCol (c : CoreSt) (rows cols k : Nat) : List Tok → List (Nat × Nat) → List Tok × List (Nat × Nat)
  | [], acc => ([], acc)
  | t :: ts, acc =>
    if t.merged.any (fun m => m.1 = k) then
      let r := CoreSt.passCol c rows cols k ts acc
      (t :: r.1, r.2)
    else match c.feed.find? (fun x => x.num = t.num) with
    | none => (t :: ts, acc)
    | some x =>
      if (runCols cols x.w).contains k || !(runRows rows x.w).all (fun r => t.lanes.any (fun e => e.1 = r)) then (t :: ts, acc)
      else
        let r := CoreSt.passCol c rows cols k ts
          (if x.w.accum then acc else tput 0 acc (accKey x.w.bank (x.w.runFirst + t.idx) k) 0)
        ({ t with merged := t.merged ++ [(k, 0)] } :: r.1, r.2)

/-- Every masked column passes what it can. -/
def CoreSt.passMasked (c : CoreSt) (rows cols : Nat) : CoreSt :=
  (List.range cols).foldl (fun c k =>
    let r := c.passCol rows cols k c.toks c.acc
    { c with toks := r.1, acc := r.2 }) c

/-- Finish the oldest tokens that every column has taken, in order. -/
def State.finishToks (st : State) (fn s : Nat) : Nat → State
  | 0 => st
  | n + 1 =>
    let c := st.core fn s
    match c.toks with
    | [] => st
    | t :: _ =>
      match c.feed.find? (fun x => x.num = t.num) with
      | none => st
      | some x =>
        if (List.range (st.cols fn s + 1)).all (fun k => t.merged.any (fun m => m.1 = k)) then
          State.finishToks (st.tokenDone fn s x t) fn s n
        else st

/-- What the columns pass by themselves: masked columns their zeros, finished tokens their residual and windows. -/
def State.settleToks (st : State) (fn s : Nat) : State :=
  let st := st.putCore fn s ((st.core fn s).passMasked (st.rows fn s) (st.cols fn s))
  st.finishToks fn s (st.core fn s).toks.length

/-- Up to two overflow entries for a token at the merge, read again and checked (R256); the first to fail ends the RUN
(R252). -/
def State.ovfBeat (st : State) (fn s : Nat) (x : Cmd) (t : Tok) : State :=
  let c := st.core fn s
  let w := (c.latched t.lw).words
  let last := t.extra.getLast?.or ((c.escTab t.lw).bind (fun e => e.entries.getLast?))
  let rd := st.readEscs fn s w.escAddr (st.cols fn s) (min 2 (c.ovfLeft t)) (128 + t.ovf) last {}
  let c := rd.2.core fn s
  let c := match rd.1.bad, rd.1.poison with
    | some e, _ => c.modCmd 0 x.num (fun y => if y.status = 0 then { y with status := 0x0D, detail := e } else y)
    | none, some a => c.modCmd 0 x.num (fun y => if y.status = 0 then { y with status := 0x0B, detail := addrDetail a } else y)
    | none, none => c
  let stop := rd.1.bad.isSome || rd.1.poison.isSome
  let t' := { t with extra := t.extra ++ rd.1.entries, ovf := if stop then w.escCount else t.ovf + min 2 (c.ovfLeft t) }
  (rd.2.putCore fn s { c with toks := c.toks.map (fun z => if z.num = t.num && z.idx = t.idx then t' else z) }).add
    (Reg.GZC_ESC_EXTRA fn s) 63 0 1

/-- Write column `col`'s sum of a token, corrected, into its bank entry (R250, R255, R257, R258). -/
def State.mergeCol (st : State) (fn s col : Nat) (x : Cmd) (t : Tok) : State :=
  let c := st.core fn s
  let cols := st.cols fn s
  let lw := c.latched t.lw
  let es := ((c.escTab t.lw).map (·.entries)).getD [] ++ t.extra
  let corr := if col = cols then (0, 0) else corrections lw.subs x t (st.rows fn s) (lanesOf lw.words.format) col es
  let st := (st.add (Reg.GZC_ESC_APPLIED fn s) 63 0 corr.2).recordShift fn s x.w lw.shift
  let c := st.core fn s
  let p := tget 0 t.sums col + corr.1
  let w1 := accWrite c.acc (accKey x.w.bank (x.w.runFirst + t.idx) col) x.w.accum p
  let t' := { t with merged := t.merged ++ [(col, p)] }
  let st := st.setCore fn s { c with
    acc := w1.1, toks := c.toks.map (fun z => if z.num = t.num && z.idx = t.idx then t' else z) }
  if w1.2 then st.setb (Reg.GZC_BANK_EXP fn s) (16 + x.w.bank) else st

/-- One beat of the escape merge and accumulator stage of column `col` (R254-R258): its next token, in order, waits for its
table, takes overflow entries, or is written. -/
def State.accumBeat (st : State) (fn s col : Nat) : State :=
  let st := st.settleToks fn s
  let c := st.core fn s
  match c.toks.find? (fun t => !t.merged.any (fun m => m.1 = col)) with
  | none => st
  | some t =>
    match c.feed.find? (fun x => x.num = t.num) with
    | none => st
    | some x =>
      if !t.joined.contains col || !c.escReady t then st
      else if c.ovfLeft t ≠ 0 then st.ovfBeat fn s x t
      else (st.mergeCol fn s col x t).settleToks fn s

end Sys2Proof.Machine
end

