-- ==== Sys2Proof/Machine/Mint.lean ====
section
/-! DEFINITION. The mint (chapter 11), the drain, and the matrix-vector path (chapter 13) of a core slot. -/

namespace Sys2Proof.Machine

/-! ## Arithmetic of the mint (R264-R276) -/

/-- Rounding to nearest, ties away from zero, of `p * 2^(-s)` (R264). -/
def rnd (p s : Int) : Int :=
  if s ≤ 0 then p * 2 ^ (-s).toNat
  else
    let m : Int := ((p.natAbs + 2 ^ (s.toNat - 1)) >>> s.toNat : Nat)
    if p < 0 then -m else m

/-- Clamp to a range. -/
def clampI (lo hi z : Int) : Int := if z < lo then lo else if hi < z then hi else z

/-- X of a curve segment (R266). -/
def segX (w : Nat) : Int := sext 24 (nbits w 23 0)
def segY (w : Nat) : Int := sext 24 (nbits w 47 24)
def segSlope (w : Nat) : Int := sext 12 (nbits w 59 48)
def segShift (w : Nat) : Nat := nbits w 63 60

/-- The first segment whose X is not above its predecessor's (R268). -/
def curveBad : Nat → List Nat → Option Nat
  | i, a :: b :: t => if segX b ≤ segX a then some (i + 1) else curveBad (i + 1) (b :: t)
  | _, _ => none

/-- A curve table at a value of the curve domain: the highest segment whose X is at most it, or segment 0 (R267). -/
def curveAt (c : List Nat) (r : Int) : Int :=
  let w := ((c.filter (fun w => segX w ≤ r)).getLast?).getD (c.headD 0)
  segY w + rnd (segSlope w * (r - segX w)) (segShift w)

/-- The least and greatest output of a format (R269). -/
def fmtLo (fmt : Nat) : Int := if fmt = 0 then -128 else -32768
def fmtHi (fmt : Nat) : Int := if fmt = 0 then 127 else 32767

/-- One value through the mint: y before saturation, whether a clamp changed r, P, and S (R264, R267). -/
structure Minting where
  p : Int
  sh : Int
  y : Int
  clamped : Bool
deriving DecidableEq, Repr

/-- The mint's arithmetic on an entry value `e` with rescale word `rw` (BIAS 0, MULT 1, SH 0 for folded scaling), output
exponent `oexp` and tensor shift `t` (R263, R264, R267). -/
def mintValue (e : Int) (rw : Option Nat) (oexp t : Int) (curve : Option (List Nat)) : Minting :=
  let mult : Int := match rw with | some w => (nbits w 15 0 : Nat) | none => 1
  let shn : Int := match rw with | some w => (nbits w 21 16 : Nat) | none => 0
  let bias : Int := match rw with | some w => sext 32 (nbits w 63 32) | none => 0
  let p := (e + bias) * mult
  let sh := shn + oexp - t
  let r0 := rnd p sh
  let r := clampI (-(2 ^ 47)) (2 ^ 47 - 1) r0
  match curve with
  | none => { p := p, sh := sh, y := r, clamped := decide (r ≠ r0) }
  | some c =>
    let d := clampI (-(2 ^ 23)) (2 ^ 23 - 1) r
    { p := p, sh := sh, y := curveAt c d, clamped := decide (r ≠ r0 ∨ d ≠ r) }

/-- The histogram bin of a mint value (R276). -/
def gleanBin (m : Minting) : Nat :=
  if m.p = 0 then 0
  else
    let e : Int := (bitLen m.p.natAbs : Nat) - 1 - m.sh
    (clampI 1 63 (e + 32)).toNat

/-- Count one value into what the gleaner has recorded (R277, R279). -/
def GleanAcc.count (g : GleanAcc) (col fmt : Nat) (m : Minting) : GleanAcc :=
  let h := if g.mode = 0 then 0 else col % 16
  let k := h * 64 + gleanBin m
  { g with bins := tput 0 g.bins k (tget 0 g.bins k + 1), values := g.values + 1,
           hi := g.hi + (if fmtHi fmt < m.y then 1 else 0), lo := g.lo + (if m.y < fmtLo fmt then 1 else 0),
           cdom := g.cdom + (if m.clamped then 1 else 0) }

/-- The write-back of a gleaning command (R278, R279); an uncorrectable bin stays as it is (R355). -/
def State.gleanBack (st : State) (fn s : Nat) (g : GleanAcc) (thresh : Bool) : State :=
  let base := st.ctlBase fn s + 0x6000
  let st := g.bins.foldl (fun st e =>
    let r := st.readEcc (base + 8 * e.1) 8
    if r.2.1.isSome then r.2.2 else r.2.2.store (base + 8 * e.1) (leBytes 8 (leNat r.1 + e.2))) st
  let st := if thresh then st else
    (((st.add (Reg.GZC_GLEAN_VALUES fn s) 63 0 g.values).add (Reg.GZC_GLEAN_CLIP_HI fn s) 63 0 g.hi).add
      (Reg.GZC_GLEAN_CLIP_LO fn s) 63 0 g.lo).add (Reg.GZC_GLEAN_CDOM fn s) 63 0 g.cdom
  st.add (Reg.GZC_GLEAN_SEQ fn s) 31 0 1

/-- SUGGEST and whether it is held at 63 (R274). -/
def suggest (oexp fmt maxlen : Nat) : Nat × Bool :=
  let w : Int := if fmt = 0 then 8 else 16
  let v : Int := sext 8 oexp + max 0 ((maxlen : Int) - (w - 1))
  if 63 < v then (63, true) else (twos 8 v, false)

/-! ## The command in the mint -/

/-- The command whose entry vectors the mint takes: the oldest MINT or MV that has vectors left (R192). -/
def CoreSt.mintHead (c : CoreSt) : Option Cmd :=
  ((c.mint ++ c.mv).filter (fun x => !x.conv)).foldl (fun a x => match a with
    | none => some x
    | some y => if x.num < y.num then some x else some y) none

/-- Whether a command has a parameter load (R271). -/
def Cmd.loads (x : Cmd) : Bool := x.w.curveEn || (if x.w.op = 4 then leAt x.desc 0xB 1 = 1 else x.w.rscEn)

/-- Columns a parameter load covers: the rescale entries of a MINT's columns, or of an MV's rows. -/
def State.rescRange (st : State) (fn s : Nat) (x : Cmd) : Nat × Nat :=
  if x.w.op = 4 then
    if leAt x.desc 0xB 1 = 1 then (leAt x.desc 0xC 2 + x.w.nFirst, x.w.nCount) else (0, 0)
  else if x.w.rscEn then (x.w.rscBase, st.cols fn s) else (0, 0)

/-- A command of the mint comes to the accumulation of R273: a THRESH MINT goes on with the one in progress if its OUT_EXP and
OUT_FMT are the same, and starts one otherwise; any other command ends it. -/
def CoreSt.thrOpen (c : CoreSt) (x : Cmd) : CoreSt :=
  if x.w.op = 3 && x.w.thresh then
    let key := (x.w.outExp, x.w.outFmt)
    { c with thrLen := if c.thrKey = some key then c.thrLen else 0, thrKey := some key }
  else { c with thrKey := none }

/-- GZC_THRESH as the retirement of THRESH MINT `x` writes it, and what a MINT that waits for it may use (R274, R275). -/
def CoreSt.thrEnd (c : CoreSt) (x : Cmd) : CoreSt :=
  if x.w.op = 3 && x.w.thresh then
    let sg := suggest x.w.outExp x.w.outFmt c.thrLen
    let word := 2 ^ 31 + x.w.outFmt * 2 ^ 30 + (if sg.2 then 2 ^ 29 else 0) + sg.1 * 2 ^ 16 + c.thrLen * 256 + x.w.outExp
    { c with thrLive := some (sg.1, if sg.2 then 1 else 0, c.thrLen, x.w.outExp * 2 + x.w.outFmt) }.modCmd 1 x.num
      (fun y => { y with result := some word })
  else c

/-- End a command of the mint with a status, converting nothing more; what it has minted already is still written or sent
before it retires (R191). -/
def CoreSt.endMint (c : CoreSt) (x : Cmd) (status detail : Nat) : CoreSt :=
  let c := (if x.written = 0 then c.thrOpen x else c).thrEnd x
  let busy := c.drain.any (fun v => v.num = x.num) || (x.w.remote && c.remoteOf = x.num && !c.remote.isEmpty)
  { c.modCmd (classOf x.w.op) x.num (fun y => { y with
      status := status, detail := detail, conv := true, tail := !busy && decide (y.unacked = 0) }) with
    mintPos := 0, params := c.params.filter (fun p => p.num ≠ x.num) }

/-- Whether the first entry vector of the mint's next command `x` has arrived and waits for its parameter load (R271). -/
def CoreSt.paramWaits (c : CoreSt) (x : Cmd) : Bool :=
  if x.w.op = 4 then c.mvBanks.any (fun b => b.num = x.num)
  else c.feed.all (fun y => !(y.w.op = 2 && y.num < x.num && y.w.bank = x.w.bank &&
    decide (y.w.runFirst ≤ x.w.mintFirst ∧ x.w.mintFirst < y.w.runFirst + y.total) && decide (y.written ≤ x.w.mintFirst - y.w.runFirst)))

/-- The parameter load of the mint's present command, or of the one after it in submission order (R192), while fewer than two
sets are held (R271). An invalid table ends its command with FORMAT when the mint comes to it (R268). The load's beats count
in GZC_MINT_PARAM, one a line, where the command's first entry vector waits for it. -/
def State.paramBeat (st : State) (fn s : Nat) : State :=
  let c := st.core fn s
  let next := match c.mintHead with
    | some x => ({ c with mint := c.mint.filter (fun y => y.num ≠ x.num), mv := c.mv.filter (fun y => y.num ≠ x.num) } : CoreSt).mintHead
    | none => none
  match ([c.mintHead, next].filterMap id).find? (fun x => x.loads && !c.params.any (fun p => p.num = x.num)) with
  | none => st
  | some x =>
    if 2 ≤ c.params.length then st
    else
      let base := st.ctlBase fn s
      let rc := if x.w.curveEn then st.coreRead fn s (base + 0x4000 + 512 * x.w.curve) 512 else ([], none, st)
      let curve := (List.range (rc.1.length / 8)).map (fun i => leAt rc.1 (8 * i) 8)
      let rr := rc.2.2.rescRange fn s x
      let re := rc.2.2.coreRead fn s (base + 0x8000 + 8 * rr.1) (8 * rr.2)
      let resc := (List.range rr.2).map (fun i => leAt re.1 (8 * i) 8)
      let bad : Option (Nat × Nat) := match rc.2.1.or re.2.1 with
        | some a => some (0x0B, addrDetail a)
        | none =>
          match curveBad 0 curve, (List.range rr.2).find? (fun i => nbits (resc.getD i 0) 31 22 ≠ 0) with
          | some i, _ => some (0x0D, 0xC1 * 2 ^ 24 + i)
          | none, some i => some (0x0D, 0xC2 * 2 ^ 24 + (rr.1 + i) % 65536)
          | none, none => none
      let waits := c.mintHead.any (fun y => y.num = x.num && y.written = 0) && c.paramWaits x
      let n := (if x.w.curveEn then 4 else 0) + (8 * rr.2 + 127) / 128
      let c := re.2.2.core fn s
      let st := re.2.2.putCore fn s { c with params := c.params ++ [{ num := x.num, curve := curve, resc := resc, bad := bad }] }
      if waits then st.add (Reg.GZC_MINT_PARAM fn s) 63 0 n else st

/-- Words of PM_OUT that `n` values take (R587). -/
def pmWords (n : Nat) : Nat := (n + 31) / 32

/-- Whether the post-mint tap has room for a vector of `n` values of a command; a tap in reset takes all (R587, R595). -/
def State.pmRoom (st : State) (fn s : Nat) (x : Cmd) (n : Nat) : Bool :=
  let y := st.island fn s
  x.post = 0 || y.zero || decide (y.pmq.length + pmWords n ≤ 16)

/-- Put a minted vector into the island's post-mint tap in words of at most 32 values (R587). -/
def State.postTap (st : State) (fn s : Nat) (x : Cmd) (vals : List (Option Int)) (entry fmt oexp : Nat) (last : Bool) :
    Nat → State
  | 0 => st
  | fuel + 1 =>
    let now' := vals.take 32
    let more := decide (32 < vals.length)
    let mask := (now'.zipIdx).foldl (fun a p => if p.1.isSome then a + 2 ^ p.2 else a) 0
    let d := now'.map (fun v => laneWord (v.getD 0))
    let w (i : Nat) : Nat := (List.range 4).foldl (fun a k => a + d.getD (4 * i + k) 0 * 2 ^ (16 * k)) 0
    let b (v : Bool) : Nat := if v then 1 else 0
    let side := [mask + entry % 65536 * 2 ^ 32 + x.w.tag * 2 ^ 48,
      b (last && !more) + fmt * 2 + oexp * 4 + b (x.w.op = 4) * 2 ^ 10]
    let y := st.island fn s
    let st := st.setIsl fn s { y with pmq := y.pmq ++ [{
      fin := if x.post = 2 && last && !more then some x.num else none, cls := classOf x.w.op, words := (List.range 8).map w ++ side }] }
    if more then State.postTap st fn s x (vals.drop 32) (entry + 32) fmt oexp last fuel else st

/-- Hand a minted vector on: to the drain, to the island, or to both (R587, R588, R595). -/
def State.handOn (st : State) (fn s : Nat) (x : Cmd) (addr fmt oexp entry : Nat) (vals : List (Option Int)) (last : Bool) :
    State :=
  let inReset := (st.island fn s).zero
  let w := fmt + 1
  let bytes := (vals.zipIdx).flatMap (fun p => match p.1 with
    | none => []
    | some v => (List.range w).map (fun i => (p.2 * w + i, byteOf (twos (8 * w) v) i)))
  let st := if x.post ≠ 0 && !inReset then st.postTap fn s x vals entry fmt oexp last 4 else st
  let st := if x.post = 2 && inReset then st.add (Reg.ISL_ZERO_FILL fn s) 63 0 1 else st
  let c := st.core fn s
  let cls := classOf x.w.op
  if x.post = 2 then
    let c := if last && inReset then c.modCmd cls x.num (fun y => { y with tail := true }) else c
    st.setCore fn s c
  else
    st.setCore fn s { c with drain := some { num := x.num, addr := addr, remote := x.w.remote, bytes := bytes } }

/-- One beat of the mint on a MINT (R264-R275, R286). -/
def State.mintMint (st : State) (fn s : Nat) (x : Cmd) : State :=
  let c := st.core fn s
  let cols := st.cols fn s
  let b := x.w.bank
  let e := x.w.mintFirst + x.written
  let ready := c.feed.all (fun y => !(y.w.op = 2 && y.num < x.num && y.w.bank = b &&
    decide (y.w.runFirst ≤ e ∧ e < y.w.runFirst + y.total) && decide (y.written ≤ e - y.w.runFirst)))
  let prm := c.params.find? (fun p => p.num = x.num)
  let bad := prm.bind (·.bad)
  let live := match c.thrLive with
    | some v => some v.1
    | none => if st.rb (Reg.GZC_THRESH fn s) 31 then some (st.rf (Reg.GZC_THRESH fn s) 23 16) else none
  if bad.isSome then st.putCore fn s (c.endMint x (bad.getD (0, 0)).1 (bad.getD (0, 0)).2)
  else if !ready || (x.loads && prm.isNone) then st
  else if x.w.outExp = 0x80 && live.isNone then st.putCore fn s (c.endMint x 0x0D (0xC3 * 2 ^ 24))
  else if !x.w.thresh && (x.post ≠ 2 && c.drain.isSome || !st.pmRoom fn s x cols) then st
  else if c.mintPos + 1 < (cols + st.mintLanes fn s - 1) / max 1 (st.mintLanes fn s) then
    st.putCore fn s { (c.modCmd 1 x.num (fun y => { y with began := true })) with mintPos := c.mintPos + 1 }
  else
    let v (k : Nat) : Nat := tget 0 c.acc (accKey b e k)
    let sum := (List.range cols).foldl (fun a k => (a + v k) % 2 ^ 48) 0
    if v cols ≠ sum then
      (st.putCore fn s { (c.endMint x 0x0C (b * 65536 + e)) with entryRes := (v cols + 2 ^ 48 - sum) % 2 ^ 48 }).add (Reg.GZC_CS_ENTRY_FAILS fn s) 63 0 1
    else
      let oe := if x.w.outExp = 0x80 then live.getD 0 else x.w.outExp
      let t := ((c.bankT.find? (fun p => p.1 = b)).map (·.2)).getD 0
      let curve := if x.w.curveEn then prm.map (·.curve) else none
      let val (k : Nat) : Minting :=
        mintValue (sext 48 (v k)) (if x.w.rscEn then some ((prm.map (fun p => p.resc.getD k 0)).getD 0) else none)
          (sext 8 oe) t curve
      let on := bitList cols x.w.mintCols
      let g := if x.written = 0 then { x.glean with mode := st.rf (Reg.GZC_GLEAN_CTL fn s) 0 0 } else x.glean
      let g := if x.w.glean then on.foldl (fun g k => g.count k x.w.outFmt (val k)) g else g
      let last := decide (x.written + 1 = x.w.entries)
      let c := { (c.modCmd 1 x.num (fun y => { y with written := y.written + 1, glean := g, conv := last })) with
        mintPos := 0, params := if last then c.params.filter (fun p => p.num ≠ x.num) else c.params }
      let c := if x.written = 0 then c.thrOpen x else c
      if x.w.thresh then
        let c := { c with thrLen := on.foldl (fun a k => max a (bitLen (val k).y.natAbs)) c.thrLen }
        let c := if last then (c.modCmd 1 x.num (fun y => { y with tail := true })).thrEnd x else c
        st.putCore fn s c
      else
        let vals := (List.range cols).map (fun k =>
          if x.w.mintCols.testBit k then some (clampI (fmtLo x.w.outFmt) (fmtHi x.w.outFmt) (val k).y) else none)
        let st := st.setCore fn s c
        let st := st.handOn fn s x (x.w.oaddr + x.written * x.w.ostride) x.w.outFmt oe e vals last
        st.refresh fn s

/-! ## The matrix-vector path (R311-R325) -/

/-- Lanes, segments, groups per row and positions of an MV's image (R311-R316). -/
def mvL (x : Cmd) : Nat := lanesOf (leAt x.desc 1 1)
def mvSegs (x : Cmd) : Nat := (leAt x.desc 4 2 + mvL x - 1) / mvL x
def mvGroup (x : Cmd) : Nat := groupLen (min (leAt x.desc 2 1) 2)
def mvGroups (x : Cmd) : Nat := (leAt x.desc 4 2 + mvGroup x - 1) / mvGroup x

/-- Read the vector of an MV into a buffer: K INT16 activations, lanes at or beyond K zero (R312). A poisoned word ends the MV
when the path comes to it. -/
def State.mvVector (st : State) (fn s : Nat) (x : Cmd) : State :=
  let k := leAt x.desc 4 2
  let r := st.coreRead fn s x.w.vaddr (2 * k)
  let v := (List.range k).map (fun i => sext 16 (leAt r.1 (2 * i) 2))
  let st := r.2.2.add (Reg.GZC_MV_LINES fn s) 63 0 ((x.w.vaddr + 2 * k + 127) / 128 - x.w.vaddr / 128)
  let c := st.core fn s
  let c := { c with vbuf := c.vbuf ++ [(x.num, v)] }
  match r.2.1 with
  | some a => st.putCore fn s (c.modCmd 2 x.num (fun y => { y with status := 0x0B, detail := addrDetail a }))
  | none => st.putCore fn s c

/-- Lines of an MV's scale tensor brought in: each is read once, as far as it lies in the tensor (R315, R321). Answers the lines
held, the first poisoned word met, the state with the lines counted. -/
def State.scaleLines (st : State) (fn s : Nat) (x : Cmd) (need : List Nat) (held : List (Nat × List Byte)) :
    List (Nat × List Byte) × Option Nat × State :=
  let sa := leAt x.desc 0x18 6
  let se := sa + 8 + (leAt x.desc 6 2 * mvGroups x + 1) / 2
  need.foldl (fun a l =>
    if a.1.any (fun e => e.1 = l) then a
    else
      let lo := max sa (128 * l)
      let r := a.2.2.coreRead fn s lo (min se (128 * l + 128) - lo)
      (a.1 ++ [(l, List.replicate (lo - 128 * l) 0 ++ r.1)], a.2.1.or r.2.1, r.2.2.add (Reg.GZC_MV_LINES fn s) 63 0 1))
    (held, none, st)

/-- Start the oldest MV on the path: its scale-tensor head is read (R315); a bad head ends it with FORMAT. -/
def State.mvBegin (st : State) (fn s : Nat) (x : Cmd) : State :=
  let sa := leAt x.desc 0x18 6
  let r := st.scaleLines fn s x (if sa % 128 ≤ 120 then [sa / 128] else [sa / 128, sa / 128 + 1]) []
  let head := (List.range 8).map (fun i => heldByte r.1 ((sa + i) / 128) ((sa + i) % 128))
  let st := r.2.2
  let c := st.core fn s
  let t := sext 8 (leAt head 0 1)
  match r.2.1, firstNonzero head ([1, 2, 3, 4, 5, 6, 7]) with
  | some a, _ => st.putCore fn s (c.endMint x 0x0B (addrDetail a))
  | none, some o => st.putCore fn s (c.endMint x 0x0D (if t < -64 || 63 < t then 0 else o))
  | none, none =>
    if t < -64 || 63 < t then st.putCore fn s (c.endMint x 0x0D 0)
    else (st.putCore fn s { c with mvRun := some { num := x.num, tshift := t, lines := r.1 } }).wf (Reg.GZC_MV_STATUS fn s) 15 8 (twos 8 t)

/-- One row's product with one segment: the codes of slice `i` against the segment's lanes, shifted by the subscales of
the row's groups (R314, R317). -/
def mvProduct (x : Cmd) (line : List Byte) (i row seg : Nat) (vec : List Int) (sub : Nat → Nat) : Int :=
  let l := mvL x
  let k := leAt x.desc 4 2
  let code (j : Nat) : Int :=
    if l = 64 then
      let b := leAt line (32 * i + j / 2) 1
      sext 4 (if j % 2 = 0 then b % 16 else b / 16)
    else sext 8 (leAt line (32 * i + j) 1)
  (List.range l).foldl (fun a j =>
    let kk := seg * l + j
    if k ≤ kk then a
    else a + code j * vec.getD kk 0 * 2 ^ sub (row * mvGroups x + kk / mvGroup x)) 0

/-- Close a batch: wrap the row sums (R317), fold them into the checksum lanes, and at a block's end test every position
(R324, R325). -/
def State.mvBatchEnd (st : State) (fn s : Nat) (x : Cmd) (m : MvSt) (pw : Nat) : State :=
  let n0 := x.w.nFirst + m.batch * pw
  let ovf := m.sums.any (fun e => decide (e.2 < -(2 ^ 47) ∨ 2 ^ 47 ≤ e.2))
  let ys := m.sums.map (fun e => (e.1, sext 48 (twos 48 e.2)))
  let cs := ys.foldl (fun a e => tput 0 a (e.1 % pw / 16) (tget 0 a (e.1 % pw / 16) - e.2)) m.cs
  let b := n0 / pw
  let csbb := max 1 (leAt x.desc 8 1)
  let lastB := decide (x.w.nFirst + x.w.nCount ≤ n0 + pw)
  let blockEnd := (b + 1) % csbb = 0 || lastB
  let rows := ys.map (fun e => e)
  let st := if ovf then st.setb (Reg.GZC_MV_STATUS fn s) 30 else st
  let bad := (List.range (pw / 16)).filter (fun p => twos 48 (tget 0 cs p) ≠ 0)
  let fails := blockEnd && !bad.isEmpty
  let st := if blockEnd then st.add (Reg.GZC_MV_CS_BLOCKS fn s) 63 0 (pw / 16) else st
  let st := if fails then
      let st := st.add (Reg.GZC_MV_CS_FAILS fn s) 63 0 1
      if st.rb (Reg.GZC_MV_STATUS fn s) 31 then st.addSat (Reg.GZC_MV_STATUS fn s) 7 0 1
      else
        let st := st.wn (Reg.GZC_MV_CS_FIRST fn s)
          (x.w.tag * 2 ^ 48 + b / csbb * 2 ^ 32 + bad.foldl (fun a p => a + 2 ^ p) 0)
        let st := st.wn (Reg.GZC_MV_CS_RESID fn s) (twos 48 (tget 0 cs (bad.headD 0)))
        st.setb (Reg.GZC_MV_STATUS fn s) 31
    else st
  /- the lines of the scale tensor that later batches still need -/
  let keep := (leAt x.desc 0x18 6 + 8 + (n0 + pw) * mvGroups x / 2) / 128
  let m := { m with sums := [], seg := 0, batch := m.batch + 1, cs := if blockEnd then [] else cs,
                    lines := m.lines.filter (fun e => decide (keep ≤ e.1)) }
  let c := st.core fn s
  let c := if fails then c.modCmd 2 x.num (fun y => if y.status = 0 then { y with status := 0x0C, detail := b / csbb } else y) else c
  let c : CoreSt := { c with mvBanks := c.mvBanks ++ [{ num := x.num, tshift := m.tshift, rows := rows }] }
  if lastB then
    let c := c.modCmd 2 x.num (fun y => { y with streamed := true })
    st.putCore fn s { c with mvRun := none, vbuf := c.vbuf.filter (fun v => v.1 ≠ x.num) }
  else st.putCore fn s { c with mvRun := some m }

/-- The vector of an MV that has none is read into a free buffer: the present one's, or the next one's beside its segments
(R312). -/
def State.mvPrefetch (st : State) (fn s : Nat) : State :=
  let c := st.core fn s
  match ((c.mv.filter (fun x => !x.conv && !x.streamed)).take 2).find? (fun x => !c.vbuf.any (fun v => v.1 = x.num)) with
  | some x => if 2 ≤ c.vbuf.length then st else st.mvVector fn s x
  | none => st

/-- Whether the path can stream a segment (R319, R320): its MV's groups are ungated, its vector and scale head are in, and a
bank of row sums is free. -/
def State.mvCan (st : State) (fn s : Nat) : Bool :=
  let c := st.core fn s
  match c.mv.find? (fun x => !x.conv && !x.streamed) with
  | none => false
  | some x => st.mvSlices fn s ≠ 0 && decide (x.gate ≤ st.now) && x.status ≠ 0x0B && c.vbuf.any (fun v => v.1 = x.num) &&
      c.mvRun.any (fun m => m.num = x.num) && decide (c.mvBanks.length < 2)

/-- One segment beat of the matrix-vector path (R311, R317, R324). -/
def State.mvBeat (st : State) (fn s : Nat) : State :=
  let can := st.mvCan fn s
  let pw := st.mvSlices fn s
  let st := if pw = 0 then st else st.mvPrefetch fn s
  let c := st.core fn s
  match c.mv.find? (fun x => !x.conv && !x.streamed) with
  | none => st
  | some x =>
    if st.now < x.gate || pw = 0 then st
    else if x.status = 0x0B then
      st.putCore fn s { (c.endMint x x.status x.detail) with mvRun := none, vbuf := c.vbuf.filter (fun v => v.1 ≠ x.num) }
    else match c.mvRun with
    | none => if c.vbuf.any (fun v => v.1 = x.num) then st.mvBegin fn s x else st
    | some m =>
      if !can || m.num ≠ x.num then st
      else
        let n0 := x.w.nFirst + m.batch * pw
        let hi := x.w.nFirst + x.w.nCount
        if hi ≤ n0 then st
        else
          let nseg := mvSegs x
          let l := mvL x
          let line := st.coreRead fn s (leAt x.desc 0x10 6 + (n0 / pw * nseg + m.seg) * 32 * pw) (32 * pw)
          let rows := (List.range pw).filter (fun i => n0 + i < hi)
          let csbb := max 1 (leAt x.desc 8 1)
          let np := pw / 16
          let sa := leAt x.desc 0x18 6
          let vec := ((c.vbuf.find? (fun v => v.1 = x.num)).map (·.2)).getD []
          let firstG := m.seg * l / mvGroup x
          let lastG := min (mvGroups x - 1) ((m.seg * l + l - 1) / mvGroup x)
          let need := (rows.flatMap (fun i =>
            let a := sa + 8 + ((n0 + i) * mvGroups x + firstG) / 2
            let b := sa + 8 + ((n0 + i) * mvGroups x + lastG) / 2
            (List.range (b / 128 + 1 - a / 128)).map (· + a / 128))).eraseDups
          let sc := line.2.2.scaleLines fn s x need m.lines
          let nib (i : Nat) : Nat :=
            let a := sa + 8 + i / 2
            let v := (heldByte sc.1 (a / 128) (a % 128)).toNat
            if i % 2 = 0 then v % 16 else v / 16
          let ca (p k : Nat) : Nat := leAt x.desc 0x20 6 + ((n0 / pw / csbb * np + p) * nseg * l + k) * 6
          let newBlock := n0 / pw % csbb = 0 || m.batch = 0
          let cells := if newBlock then
              (List.range np).foldl (fun (a : State × List (Nat × Int) × Option Nat) p =>
                let r := a.1.coreRead fn s (ca p (m.seg * l)) (6 * l)
                let v := (List.range l).foldl (fun z j => z + sext 48 (leAt r.1 (6 * j) 6) * vec.getD (m.seg * l + j) 0) 0
                (r.2.2, tput 0 a.2.1 p (tget 0 a.2.1 p + v), a.2.2.orElse (fun _ => r.2.1))) (sc.2.2, m.cs, none)
            else (sc.2.2, m.cs, none)
          let touched (a n : Nat) : Nat := (a + n + 127) / 128 - a / 128
          let wa := leAt x.desc 0x10 6 + (n0 / pw * nseg + m.seg) * 32 * pw
          let st := cells.1.add (Reg.GZC_MV_LINES fn s) 63 0 (touched wa (32 * pw) +
            (if newBlock then ((List.range np).map (fun p => touched (ca p (m.seg * l)) (6 * l))).sum else 0))
          let st := st.add (Reg.GZC_MV_BEATS fn s) 63 0 1
          let c := st.core fn s
          match line.2.1.orElse (fun _ => sc.2.1.orElse (fun _ => cells.2.2)) with
          | some a => st.putCore fn s { (c.endMint x 0x0B (addrDetail a)) with
              mvRun := none, mvBanks := c.mvBanks.filter (fun b => b.num ≠ x.num), vbuf := c.vbuf.filter (fun v => v.1 ≠ x.num) }
          | none =>
            let sums := rows.foldl (fun q i =>
              tput 0 q (n0 + i) (tget 0 q (n0 + i) + mvProduct x line.1 i (n0 + i) m.seg vec nib)) m.sums
            /- a row whose sum is zero is still a row of the batch -/
            let m := { m with sums := sums, cs := cells.2.1, seg := m.seg + 1, lines := sc.1 }
            if m.seg < nseg then st.setCore fn s { c with mvRun := some m }
            else
              let all := rows.map (fun i => (n0 + i, tget 0 sums (n0 + i)))
              st.mvBatchEnd fn s x { m with sums := all } pw

/-- One beat of the mint on an MV: a finished batch of row sums (R318, R272). -/
def State.mintMv (st : State) (fn s : Nat) (x : Cmd) : State :=
  let c := st.core fn s
  let prm := c.params.find? (fun p => p.num = x.num)
  let bad := prm.bind (·.bad)
  if bad.isSome then
    st.putCore fn s { (c.endMint x (bad.getD (0, 0)).1 (bad.getD (0, 0)).2) with
      mvRun := if c.mvRun.any (fun m => m.num = x.num) then none else c.mvRun,
      mvBanks := c.mvBanks.filter (fun b => b.num ≠ x.num), vbuf := c.vbuf.filter (fun v => v.1 ≠ x.num) }
  else
    match c.mvBanks with
    | [] => st
    | bank :: rest =>
      let rows := bank.rows
      if bank.num ≠ x.num || (x.loads && prm.isNone) || x.post ≠ 2 && c.drain.isSome || !st.pmRoom fn s x rows.length then st
      else if c.mintPos + 1 < (st.mvSlices fn s + st.mintLanes fn s - 1) / max 1 (st.mintLanes fn s) then
        st.setCore fn s { c with mintPos := c.mintPos + 1 }
      else
        let fmt := leAt x.desc 9 1
        let oe := leAt x.desc 0xA 1
        let curve := if x.w.curveEn then prm.map (·.curve) else none
        let val (e : Nat × Int) : Minting :=
          mintValue e.2 (if leAt x.desc 0xB 1 = 1 then some ((prm.map (fun p => p.resc.getD (e.1 - x.w.nFirst) 0)).getD 0) else none)
            (sext 8 oe) bank.tshift curve
        let g := if x.written = 0 then { x.glean with mode := st.rf (Reg.GZC_GLEAN_CTL fn s) 0 0 } else x.glean
        let g := if x.w.glean then rows.foldl (fun g e => g.count (e.1 % st.mvSlices fn s) fmt (val e)) g else g
        let n := x.written + rows.length
        let last := decide (x.w.nCount ≤ n)
        let first := (rows.map (·.1)).headD 0
        let c := { (c.modCmd 2 x.num (fun y => { y with written := n, glean := g, conv := last })) with
          mintPos := 0, mvBanks := rest,
          params := if last then c.params.filter (fun p => p.num ≠ x.num) else c.params, thrKey := none }
        let vals := rows.map (fun e => some (clampI (fmtLo fmt) (fmtHi fmt) (val e).y))
        let st := st.setCore fn s c
        (st.handOn fn s x (x.w.oaddr + (first - x.w.nFirst) * (fmt + 1)) fmt oe first vals last).refresh fn s

/-- Every bin, every counter and SEQ of the gleaner become zero and CLEARING ends (R280); GZC_THRESH is unchanged. -/
def State.gleanZero (st : State) (fn s : Nat) : State :=
  let base := st.ctlBase fn s + 0x6000
  let st := st.zeroRange base (base + 8192)
  let st := st.wn (Reg.GZC_GLEAN_SEQ fn s) 0
  let st := [Reg.GZC_GLEAN_VALUES fn s, Reg.GZC_GLEAN_CLIP_HI fn s, Reg.GZC_GLEAN_CLIP_LO fn s, Reg.GZC_GLEAN_CDOM fn s].foldl
    (fun st r => st.wn r 0) st
  (st.setCore fn s { st.core fn s with clearing := false }).clrb (Reg.GZC_GLEAN_CTL fn s) 9

/-- A gleaning command that has recorded values and not yet written them back (R278, R280). -/
def CoreSt.gleaning (c : CoreSt) : Bool := (c.mint ++ c.mv).any (fun x => x.w.glean && decide (0 < x.written))

/-- One beat of the mint and its gleaner (R192, R34). A clear waits for the command that records to write back, and gleaning
commands that have not begun wait for the clear (R280). -/
def State.mintBeat (st : State) (fn s : Nat) : State :=
  let c := st.core fn s
  if c.clearing && !c.gleaning then st.gleanZero fn s
  else match c.mintHead with
  | none => st
  | some x =>
    if c.clearing && x.w.glean && x.written = 0 then st
    else if x.w.op = 4 then st.mintMv fn s x else st.mintMint fn s x

/-! ## The drain -/

/-- Runs of consecutive offsets of a minted vector, as address and bytes. -/
def byteRuns (base : Nat) : List (Nat × Byte) → List (Nat × List Byte)
  | [] => []
  | (o, b) :: t =>
    match byteRuns base t with
    | (a, bs) :: rest => if a = base + o + 1 then (base + o, b :: bs) :: rest else (base + o, [b]) :: (a, bs) :: rest
    | [] => [(base + o, [b])]

/-- Fill 64 bytes at a window address: the bytes minted, and free values where nothing was minted (log 19). -/
def State.fillHalf (st : State) (rem : List (Nat × Option Byte)) (a : Nat) : Nat → List Byte × State
  | 0 => ([], st)
  | n + 1 =>
    let i := 63 - n
    match tget none rem (a + i) with
    | some b => let r := st.fillHalf rem a n; (b :: r.1, r.2)
    | none => let d := st.draw; let r := d.2.fillHalf rem a n; (d.1.truncate 8 :: r.1, r.2)

/-- Send the next 64-byte half that the gathered bytes of a REMOTE command reach, once its last vector has left the mint (log
19). -/
def State.drainRemote (st : State) (fn s : Nat) : State :=
  let c := st.core fn s
  match c.remote with
  | [] => st
  | (a, _) :: _ =>
    match (c.mint ++ c.mv).find? (fun x => x.num = c.remoteOf && x.conv && !x.tail) with
    | none => st
    | some x =>
      let h := a / 64 * 64
      match st.findGrant (coreHolder fn s) h 64 with
      | none =>
        let c := { c with remote := [] }
        st.putCore fn s (c.modCmd (classOf x.w.op) x.num (fun y => { y with
          status := if y.status = 0 then 0x0A else y.status, tail := decide (y.unacked = 0) }))
      | some g =>
        if (st.grantOf (coreHolder fn s) g).scrip = 0 then st
        else
          /- the output range of an MV that fails is undefined (R325) -/
          let f := st.fillHalf (if x.w.op = 4 && x.status = 0x0C then [] else c.remote) h 64
          let c := (f.2.core fn s).modCmd (classOf x.w.op) x.num (fun y => { y with unacked := y.unacked + 1 })
          let st := f.2.setCore fn s { c with remote := tclear h (h + 64) c.remote }
          st.sendDeposit fn s (st.owner fn) (coreHolder fn s) g h f.1 (.push fn s x.num)

/-- One beat of the drain (R191, R269): a vector is written to the store; a REMOTE command's bytes are gathered and, once
its last vector has left the mint, sent as deposits of 64-byte halves, ahead of the next command's. -/
def State.drainBeat (st : State) (fn s : Nat) : State :=
  let c := st.core fn s
  match c.drain with
  | some v =>
    let cls := if c.mint.any (fun x => x.num = v.num) then 1 else 2
    let x? := (c.queue cls).find? (fun x => x.num = v.num)
    let fin := x?.any (·.conv)
    if v.remote && !c.remote.isEmpty && c.remoteOf ≠ v.num then st.drainRemote fn s
    else if v.remote then
      let rem := v.bytes.foldl (fun m e => tput none m (v.addr + e.1) (some e.2)) c.remote
      let c := { c with drain := none, remote := rem, remoteOf := v.num }
      let c := if fin && rem.isEmpty then c.modCmd cls v.num (fun y => { y with tail := decide (y.unacked = 0) }) else c
      (st.putCore fn s c).add (Reg.GZC_MINT_VECTORS fn s) 63 0 1
    else
      let st := (byteRuns v.addr v.bytes).foldl (fun st r => st.coreWrite fn s r.1 r.2) st
      let c := { st.core fn s with drain := none }
      let c := if fin then c.modCmd cls v.num (fun y => { y with tail := true }) else c
      (st.putCore fn s c).add (Reg.GZC_MINT_VECTORS fn s) 63 0 1
  | none => st.drainRemote fn s

end Sys2Proof.Machine
end

