-- ==== Sys2Proof/Machine/Access.lean ====
section
/-! DEFINITION. Register access errors and who may access what (R8, R178, R183, R421, R427, R432): the checks that every
command sent by the host, a teller or an island shares. -/

namespace Sys2Proof.Machine

/-- The function an access is attributed to (R432): VF `n`, or 0 for PF0 and for every party that is not a function
(log 10). -/
def Who.func : Who → Nat
  | .vf n => n
  | _ => 0

/-- The offset of its BAR0 at which VF `n` sees the register at flat offset `off`: in its partition view (R426), or through
the lowest-numbered aperture that selects its field and quarter (R427, R17); the flat offset itself where neither shows
it. -/
def State.vfOffset (st : State) (n off : Nat) : Nat :=
  let p := n - 1
  let q := 0x100000 + 0x10000 * n
  if Reg.vfw n ≤ off then off - Reg.vfw n
  else if off < Reg.win 0 then
    if off / 8 = Reg.AXB_CFG_PART_BUILD p / 8 then 0x180 + off % 8
    else if off = Reg.PWR_PART_STATE p then 0x1000
    else if off / 8 = Reg.PWR_PART_POLICY p / 8 then 0x1008 + off % 8
    else if off / 8 = Reg.PWR_PART_SLACK p / 8 then 0x1010 + off % 8
    else if 0x10000 ≤ off && off < 0x14000 then 0x4000 + (off - 0x10000)
    else if q ≤ off && off < q + 0x4000 then 0x8000 + (off - q)
    else off
  else
    let fn := (off - Reg.win 0) / 0x40000
    let q := off % 0x40000 / 0x10000
    match (List.range 16).find? (fun i =>
        let a := st.rd (Reg.HST_VF_APER n i)
        0 < i && a.getLsbD 31 && bitsOf a 7 0 == fn && bitsOf a 9 8 == q) with
    | some i => i * 0x10000 + off % 0x10000
    | none => off

/-- Record, count and raise a register access error (R432, R443): `bar` 0, 2 or 4, `off` within the BAR. -/
def State.accErrAt (st : State) (who : Who) (reason : Nat) (write : Bool) (bar detail off : Nat) : State :=
  let f := Who.func who
  let v := f * 2 ^ 56 + reason * 2 ^ 48 + (if write then 2 ^ 47 else 0) + bar * 2 ^ 44 + detail % 16 * 2 ^ 40 + off % 2 ^ 40
  let st := ((st.wn Reg.HST_ACC_ERR v).addSat Reg.HST_ACC_COUNT 63 0 1).wn Reg.HST_ACC_TIME st.now
  let st := if f = 0 then st else (st.wn (Reg.HST_VF_ERR f) v).addSat (Reg.HST_VF_ERR_COUNT f) 63 0 1
  st.notice 0x28 (if f = 0 then 0xFF else f - 1) 0xFF 0xFF 0xFF v 0

/-- A register access error on BAR0 at flat offset `off`; its read data are 0xFF bytes (R432), and 0 for an empty slot
(R178). -/
def State.accErr (st : State) (who : Who) (reason : Nat) (write : Bool) (off : Nat) : State :=
  let o := match who with
    | .vf n => st.vfOffset n off
    | _ => off
  let st := if write then st else { st with reply := some (if reason = 2 then 0 else BitVec.allOnes 64) }
  st.accErrAt who reason write 0 0 o

/-- Why an access to a field's registers is not performed (R8, R421, R427, R451), if it is not. -/
def State.fieldReason (st : State) (who : Who) (fn : Nat) : Option Nat :=
  if st.brs.recovery then some 9
  else match who with
  | .vf n =>
    if n = 0 || 16 < n || !(st.part (n - 1)).defined || st.owner fn ≠ n - 1 then some 5
    else if st.powered fn then none else some 1
  | _ => if st.powered fn then none else some 1

/-- Why an access to a core slot's registers is not performed (R178). -/
def State.slotReason (st : State) (who : Who) (fn s : Nat) : Option Nat :=
  match st.fieldReason who fn with
  | some r => some r
  | none => if st.present fn s then none else some 2

/-- Whether a party is teller `s` of `fn` or its housekeeper, teller 3 (R183, R444). -/
def Who.tellerOf (who : Who) (fn s : Nat) : Bool := who == .teller fn s || who == .teller fn 3

/-- Whether a party is teller `s`, the housekeeper, or the VF of the partition that owns the field (R229, R280). -/
def State.tellerOrOwner (st : State) (who : Who) (fn s : Nat) : Bool :=
  Who.tellerOf who fn s || (match who with
    | .vf n => decide (0 < n) && st.owner fn == n - 1
    | _ => false)

/-- Perform a write to a register of slot `s`, unless a check refuses it; a party not permitted gives reason 3. -/
def State.slotWrite (st : State) (who : Who) (fn s off : Nat) (permitted : Bool) (f : State → State) : State :=
  match st.slotReason who fn s with
  | some r => st.accErr who r true off
  | none => if permitted then f st else st.accErr who 3 true off

/-- Perform a write to a register of a field, unless a check refuses it. -/
def State.fieldWrite (st : State) (who : Who) (fn off : Nat) (permitted : Bool) (f : State → State) : State :=
  match st.fieldReason who fn with
  | some r => st.accErr who r true off
  | none => if permitted then f st else st.accErr who 3 true off

/-- Give a read its data. -/
def State.answer (st : State) (n : Nat) : State := { st with reply := some (BitVec.ofNat 64 n) }

/-- PF0 or the VF of the partition that owns the field. -/
def State.hostOf (st : State) (who : Who) (fn : Nat) : Bool :=
  match who with
  | .pf0 => true
  | .vf n => decide (0 < n) && st.owner fn == n - 1
  | _ => false

end Sys2Proof.Machine
end

