-- ==== Sys2Proof/Machine/QueueOps.lean ====
section
/-! DEFINITION. Host rings (R492, R506-R508): the registers of a queue by its key (`p * 256 + i` for queue i of partition
p, `4096 + m` for management queue m), reading committed slots from host memory, doorbells, and the flush. -/

namespace Sys2Proof.Machine

def qReg (key part man : Nat) : Nat :=
  if 4096 ≤ key then Reg.QUE_M_BASE (key - 4096) + man
  else Reg.QUE_Q_BASE (key / 256) (key % 256) + part

def qBase (key : Nat) : Nat := qReg key 0 0
def qCfg (key : Nat) : Nat := qReg key 8 8
def qStatus (key : Nat) : Nat := qReg key 0xC 0xC
def qHead (key : Nat) : Nat := qReg key 0x10 0x10
def qTail (key : Nat) : Nat := qReg key 0x18 0x18

/-- The function that serves a queue (R434). -/
def qFunc (key : Nat) : Nat := if 4096 ≤ key then 0 else key / 256 + 1

/-- Whether the queue exists: management queues 0-15, and the queues of a defined partition (R490). -/
def State.qExists (st : State) (key : Nat) : Bool :=
  if 4096 ≤ key then decide (key < 4112)
  else (st.part (key / 256)).defined && decide (key % 256 < (st.part (key / 256)).queues)

def State.qEnabled (st : State) (key : Nat) : Bool := st.qExists key && st.rb (qCfg key) 31
def State.qSize (st : State) (key : Nat) : Nat := 2 ^ min 16 (st.rf (qCfg key) 4 0)
def State.qHeadN (st : State) (key : Nat) : Nat := st.rf (qHead key) 31 0
def State.qTailN (st : State) (key : Nat) : Nat := st.rf (qTail key) 31 0
def State.qEpoch (st : State) (key : Nat) : Nat := st.rf (qHead key) 47 32

/-- Difference of two 32-bit counts. -/
def cnt32 (a b : Nat) : Nat := (a + 2 ^ 32 - b % 2 ^ 32) % 2 ^ 32

/-- Most non-posted requests outstanding (R435); a module of STEP 0x10 issues no 10-bit tags (R543). -/
def State.tagLimit (st : State) : Nat := if (st.func 0).tag10 && st.rf Reg.AXB_REVISION 31 24 ≠ 0x10 then 768 else 256

/-- The lowest tag that no outstanding request uses. -/
def State.freeTag (st : State) : Nat :=
  ((List.range st.tagLimit).find? (fun t => !st.host.reads.any (fun r => r.tag = t))).getD 0

/-- Issue one read request of host memory (R419, R434). -/
def State.dmaRead (st : State) (f addr len : Nat) (what : ReadFor) : State :=
  let t := st.freeTag
  let r : DmaRead := { tag := t, func := f, addr := addr, len := len, what := what }
  let st := { st with host := { st.host with reads := st.host.reads ++ [r], lastFn := f } }
  st.emit (.dmaRead f t addr len)

/-- Abandon a read where `b` says so: it keeps its tag until its completion, which is discarded (R441, R508). -/
def DmaRead.abandonIf (r : DmaRead) (b : Bool) : DmaRead := if b then { r with what := .void } else r

/-- Whether a queue has committed slots that its function may ask for and has not yet asked for (R492). -/
def State.wantsSlots (st : State) (key : Nat) : Bool :=
  let left := cnt32 (st.qTailN key) (st.queue key).asked
  left ≠ 0 && left ≤ st.qSize key && st.canDma (qFunc key) && st.qEnabled key

/-- Whether a FETCH item has bytes that its function may ask for and has not yet asked for (R497). -/
def State.wantsBytes (st : State) (x : Started) : Bool :=
  x.item.op = 3 && !x.item.managed && x.acted && x.status.isNone && x.fail.isNone && decide (x.asked < x.item.u 0x38 4) &&
    st.canDma (x.item.part + 1)

/-- Whether function `f` may issue one more read request: a tag is free, and while another function waits `f` holds less than
half of them (R435). -/
def State.mayRead (st : State) (f : Nat) : Bool :=
  decide (st.host.reads.length < st.tagLimit) &&
    (decide (2 * (st.host.reads.filter (fun r => r.func = f)).length < st.tagLimit) ||
      !(st.host.queues.any (fun e => qFunc e.1 ≠ f && st.wantsSlots e.1) ||
        st.host.started.any (fun x => x.item.part + 1 ≠ f && st.wantsBytes x)))

/-- Ask for the committed slots not yet asked for (R492): requests of at most Max Read Request Size that stay within a
4 KiB page and within the ring, while the function may issue them. -/
def State.pump (st : State) (key : Nat) : Nat → State
  | 0 => st
  | fuel + 1 =>
    let q := st.queue key
    let f := qFunc key
    let left := cnt32 (st.qTailN key) q.asked
    if !st.wantsSlots key || !st.mayRead f then st
    else
      let pos := q.asked % st.qSize key
      let addr := st.rn (qBase key) + pos * 64
      let n := max 1 (min (min left (st.qSize key - pos)) (min ((st.func f).mrrs / 64) ((4096 - addr % 4096) / 64)))
      let st := st.dmaRead f addr (64 * n) (.ring key q.asked n)
      State.pump (st.setQueue key { q with asked := (q.asked + n) % 2 ^ 32 }) key fuel

/-- Doorbells are admitted by the partition's state (R500): the control queue while ON or RETAINED, a work queue while
ON, a management queue always. -/
def State.qAdmits (st : State) (key : Nat) : Bool :=
  if 4096 ≤ key then true
  else
    let s := st.partState (key / 256)
    s = 2 || (s = 3 && key % 256 = 0)

/-- Whether TAIL passes check 4 of R506. -/
def State.tailOk (st : State) (key tail : Nat) : Bool :=
  let h := st.qHeadN key
  decide (cnt32 (st.qTailN key) h ≤ cnt32 tail h ∧ cnt32 tail h ≤ st.qSize key)

/-- Take an accepted doorbell: TAIL is set, its arrival order is kept for the items that it commits (R452), and the new
slots are asked for. -/
def State.ring (st : State) (key tail : Nat) : State :=
  let q := st.queue key
  let more := decide (st.qTailN key ≠ tail)
  let st := st.wf (qTail key) 31 0 tail
  let st := if more then
      { st with host := { st.host with nextOrder := st.host.nextOrder + 1 } }.setQueue key
        { q with orders := q.orders ++ [(tail, st.host.nextOrder)] }
    else st
  st.pump key 64

/-- A doorbell write to a queue's page (R506), `page` its offset in BAR4. -/
def State.doorbell (st : State) (who : Who) (key size inPage value page : Nat) : State :=
  if size ≠ 8 || inPage ≠ 0 || !st.qEnabled key then st.accErrAt who 9 true 4 0 page
  else if !st.qAdmits key then st.accErrAt who 8 true 4 0 page
  else if nbits value 47 32 ≠ st.qEpoch key then
    let st := st.addSat (qStatus key) 31 16 1
    let st := st.accErrAt who 8 true 4 0 page
    let p := if 4096 ≤ key then 0xFF else key / 256
    st.notice 0x29 p 0xFF 0xFF 0xFF (if 4096 ≤ key then key - 4096 else key % 256) value
  else if st.rb (qStatus key) 0 then st.setQueue key { st.queue key with held := (st.queue key).held ++ [(who, value, page)] }
  else if !st.tailOk key (nbits value 31 0) then st.accErrAt who 8 true 4 0 page
  else st.ring key (nbits value 31 0)

/-- Cancel the wait of a queue or core slot at the tally unit (R515), from the waiter's field. -/
def State.cancelWait (st : State) (who tally : Nat) (expiry : Nat) : State :=
  let u := st.waiterUnit who
  st.send u.1 { kind := 0x0E, part := st.waiterPart who, srcUnit := u.2, tag := who, dst := unitDst st.anchor 8, a := tally, b := 1, d := expiry }

/-- Steps 1 and 2 of a queue flush (R508): HEAD moves to TAIL, the epoch advances, what was read and not started is
discarded. -/
def State.flushQueue (st : State) (key : Nat) : State :=
  let tail := st.qTailN key
  let st := st.setb (qStatus key) 0
  let st := st.wn (qHead key) (tail + (st.qEpoch key + 1) % 65536 * 2 ^ 32)
  let q := st.queue key
  let st := st.setQueue key { q with
    slots := [], failed := [], orders := [], asked := tail, waitSince := none, wake := none, expired := none,
    flushAt := some (st.now + 10000) }
  let st := st.setWaits (st.host.waits.filter (fun w => w.who ≠ key))
  { st with host := { st.host with reads := st.host.reads.map (fun (r : DmaRead) => r.abandonIf (match r.what with
      | .ring k _ _ => k == key
      | _ => false)) } }

/-- Step 4 of a queue flush; the doorbells with the new epoch that were held are acted on, in their order. -/
def State.flushQueueEnd (st : State) (key : Nat) : State :=
  let q := st.queue key
  let st := (st.clrb (qStatus key) 0).add (qStatus key) 15 8 1
  let st := st.setQueue key { q with flushAt := none, held := [] }
  q.held.foldl (fun st d => st.doorbell d.1 key 8 0 d.2.1 d.2.2) st

end Sys2Proof.Machine
end

