-- ==== Sys2Proof/Machine/Tree.lean ====
section
/-! DEFINITION. The state of the timebase nodes and of the mesh links that they clock (chapter 03): the timebase tree (R65),
the clocking mode of each link with its pause (R68, R69, R73), TBS_STATUS, TBS_OFFSET and TBS_MODULE (R84). -/

namespace Sys2Proof.Machine

def State.tbsState (st : State) (fn : Nat) : Nat := st.rf (Reg.TBS_STATUS fn) 2 0

/-- One level of the tree after another: field, depth, and port toward the parent plus one. -/
def State.tree (st : State) : Nat → Nat → List Nat → List (Nat × Nat × Nat) → List (Nat × Nat × Nat)
  | 0, _, _, seen => seen
  | fuel + 1, k, front, seen =>
    let next := Config.sites.filterMap (fun f =>
      if seen.any (fun e => e.1 = f) then none
      else
        let c := (List.range 4).filterMap (fun p => (Config.neighbour f p).bind (fun n =>
          if st.portUp f p && front.contains n then some (n, p) else none))
        (c.foldl (fun (a : Option (Nat × Nat)) x => match a with
          | none => some x
          | some y => if x.1 < y.1 then some x else some y) none).map (fun x => (f, k + 1, x.2 + 1)))
    if next.isEmpty then seen else State.tree st fuel (k + 1) (next.map (·.1)) (seen ++ next)

/-- Whether the link at port `p` of `fn` is paused: one of its ends retrains its links (R68 steps 2 to 4, R70, R73). -/
def State.linkPaused (st : State) (fn p : Nat) : Bool :=
  let n := (Config.neighbour fn p).getD fn
  decide (st.now < (st.field fn).retrainUntil ∨ st.now < (st.field n).retrainUntil)

/-- TBS_STATUS.LINK_MODE and MSH_PORTp.STATE of one port (R69, R73): mesochronous when both ends are LOCKED. -/
def State.portMode (st : State) (fn p : Nat) : State :=
  let n := (Config.neighbour fn p).getD fn
  let busy := st.linkPaused fn p
  let mode := if !st.portUp fn p then 0 else if busy then 3 else if st.tbsState fn = 2 && st.tbsState n = 2 then 1 else 2
  (st.wf (Reg.TBS_STATUS fn) (9 + 2 * p) (8 + 2 * p) mode).wf (Reg.MSH_PORT fn p) 63 62
    (if mode = 0 then 0 else if busy then 2 else 1)

/-- TBS_STATUS of every powered field and TBS_MODULE of the anchor (R84). -/
def State.tbsUpdate (st : State) : State :=
  let on := Config.sites.filter st.powered
  let t := st.tree 84 0 [st.anchor] [(st.anchor, 0, 0)]
  let st := on.foldl (fun st fn =>
    let r := Reg.TBS_STATUS fn
    let e := (t.find? (fun e => e.1 = fn)).getD (fn, 0, 0)
    let st := (((st.wf r 31 24 e.2.1).wf r 23 23 (if 13 ≤ e.2.1 then 1 else 0)).wf r 6 4 e.2.2).wf r 3 3
      (if fn = st.anchor then 1 else 0)
    (List.range 4).foldl (fun st p => st.portMode fn p) st) st
  let locked := (on.filter (fun fn => st.tbsState fn = 2)).length
  let r := Reg.TBS_MODULE st.anchor
  let st := (st.wf r 31 24 ((t.map (·.2.1)).foldl max 0)).wf r 23 16 locked
  let st := st.wf r 9 8 (if locked = on.length then 0 else if 0 < locked then 1 else 2)
  st.wf r 0 0 (if st.brs.indep then 1 else 0)

/-- The node of `fn` enters a state (R66 to R70). TBS_OFFSET changes with it (R84): 0 in the reference node and in a node
that is OFF or acquires, elsewhere what the node measures, which no rule gives: a free value (log 1). -/
def State.nodeEnter (st : State) (fn s : Nat) : State :=
  let st := st.wf (Reg.TBS_STATUS fn) 2 0 s
  if fn = st.anchor || s < 2 then st.wn (Reg.TBS_OFFSET fn) 0
  else
    let d := st.draw
    d.2.wn (Reg.TBS_OFFSET fn) (bitsOf d.1 31 0)

/-- The state of a node that follows its mode: FREE where the module runs independent, LOCKED in coupled mode (R63). -/
def State.nodeMode (st : State) : Nat := if st.brs.indep then 3 else 2

/-- Links whose retraining is over run in their mode again (R68 step 4, R70, R73). -/
def State.linksResume (st : State) : State :=
  let done := st.fields.filter (fun e => e.2.retrainUntil ≠ 0 && decide (e.2.retrainUntil ≤ st.now))
  if done.isEmpty then st
  else (done.foldl (fun st e => st.setField e.1 { st.field e.1 with retrainUntil := 0 }) st).tbsUpdate

/-- The rebuilding of the timebase tree after a failover is over: the nodes that it put into HOLDOVER run FREE again, the
reference node only with a valid TB_REFCLK (R62). -/
def State.treeRebuilt (st : State) : State :=
  match st.mesh.rebuildAt with
  | none => st
  | some t =>
    if st.now < t then st
    else
      let st := { st with mesh := { st.mesh with rebuildAt := none } }
      (Config.sites.foldl (fun st fn =>
        if st.powered fn && (st.field fn).joined && st.tbsState fn = 4 && (fn ≠ st.anchor || st.car.refClock) then
          st.nodeEnter fn 3
        else st) st).tbsUpdate

end Sys2Proof.Machine
end

