-- ==== Sys2Proof/Machine/Time.lean ====
section
/-! DEFINITION. The passing of wafer time: the stall registers count it (R218), and what ends after a time of its own ends
(the flush of a core, R200; the change of a cache share, R349; the flush of a host ring, R508). -/

namespace Sys2Proof.Machine

/-- End of a core flush (R200 step 5). -/
def State.coreFlushEnd (st : State) (fn s : Nat) : State :=
  let c := st.core fn s
  ((st.putCore fn s { c with flushAt := none }).add (Reg.GZC_FLUSHES fn s) 15 0 1).wf (Reg.GZC_FLUSHES fn s) 31 16 c.flushN

/-- Groups whose ungating has ended (R222). -/
def State.wakeGroups (st : State) (fn s : Nat) : State :=
  let c := st.core fn s
  let up := (c.waking.filter (fun e => decide (e.2 ≤ st.now))).map (·.1)
  st.putCore fn s { c with gated := c.gated.filter (fun g => !up.contains g),
                           waking := c.waking.filter (fun e => !up.contains e.1) }

/-- End of a cache-share change (R349 step 5): STEPS and DIRECT_KIB take the new values and BUSY clears. -/
def State.shareEnd (st : State) (fn s : Nat) : State :=
  let c := st.core fn s
  let r := Reg.STO_NSP_CFG fn s
  let st := (st.setCore fn s { c with shareAt := none }).wf r 2 0 c.shareTo
  ((st.wf r 23 12 (st.userKib fn s - 512 * c.shareTo)).clrb r 31).ssGoOn fn

/-- Raise the attention notice of an island: at most once per 10 µs, with the pulses counted so far (R582). -/
def State.attnNotice (st : State) (fn s : Nat) : State :=
  let st := st.setIsl fn s { st.island fn s with attnAt := some st.now, attnWait := false }
  st.notice 0x38 (st.owner fn) fn s 0xFF (fn * 256 + s) (st.rf (Reg.ISL_STATUS fn s) 63 32)

/-- Step boundary `t`: the pace unit latches the last values that reached the block before it, and the bursar's at their
common target boundary (R109, R110). -/
def State.latchPolicy (st : State) (fn t : Nat) : State :=
  let f := st.field fn
  let due := f.common.filter (fun c => decide (c.1 ≤ t))
  let pick (sets : List (Nat × Word)) (com : List (Option Word)) : Option Word :=
    (com.filterMap id).getLast?.or ((sets.find? (fun e => decide (e.1 < t))).map (·.2))
  let st := st.setField fn { f with
    polSets := f.polSets.filter (fun e => decide (t ≤ e.1)), slackSets := f.slackSets.filter (fun e => decide (t ≤ e.1)),
    common := f.common.filter (fun c => decide (t < c.1)) }
  let st := match pick f.polSets (due.map (·.2.1)) with
    | some v => st.wr (Reg.FLD_PACE_POLICY fn) v
    | none => st
  match pick f.slackSets (due.map (·.2.2)) with
  | some v => st.wr (Reg.FLD_PACE_SLACK fn) v
  | none => st

/-- A field whose loop does not step (in RETAIN, before ON, or held by R118) latches its policy all the same as the boundaries
pass (R109, R110). -/
def State.latchIdle (st : State) : State :=
  let t := st.now / Config.paceStepNs * Config.paceStepNs
  (st.fields.filter (fun e => !(e.2.power == .full && e.2.paceOn && !e.2.loopHeld) &&
      !(e.2.polSets.isEmpty && e.2.slackSets.isEmpty && e.2.common.isEmpty))).foldl
    (fun st e => st.latchPolicy e.1 t) st

/-- What has come to its end by the present wafer time. -/
def State.mature (st : State) : State :=
  let st := (st.cores.filter (fun e => e.2.flushAt.any (· ≤ st.now))).foldl
    (fun st e => st.coreFlushEnd (e.1 / 4) (e.1 % 4)) st
  let st := (st.cores.filter (fun e => e.2.waking.any (fun w => decide (w.2 ≤ st.now)))).foldl
    (fun st e => st.wakeGroups (e.1 / 4) (e.1 % 4)) st
  let st := (st.cores.filter (fun e => e.2.shareAt.any (· ≤ st.now))).foldl
    (fun st e => st.shareEnd (e.1 / 4) (e.1 % 4)) st
  let st := (st.isl.filter (fun e => e.2.attnWait && e.2.attnAt.all (· + 10000 ≤ st.now))).foldl
    (fun st e => st.attnNotice (e.1 / 4) (e.1 % 4)) st
  let st := st.linksResume.treeRebuilt.latchIdle
  (st.host.queues.filter (fun e => e.2.flushAt.any (· ≤ st.now))).foldl (fun st e => st.flushQueueEnd e.1) st

/-- Wafer time moves forward to `t` with no ungating ending before it: the stall registers of every core count the nanoseconds
that pass (R218). -/
def State.leg (st : State) (t : Nat) : State :=
  let d := t - st.now
  if d = 0 then st
  else
    let st := st.cores.foldl (fun st e =>
      let fn := e.1 / 4
      let s := e.1 % 4
      let st := match st.stallReg fn s e.2 with
        | some r => st.add r 63 0 d
        | none => st
      if st.mvStalls e.2 then st.add (Reg.GZC_MV_STALL fn s) 63 0 d else st) st
    { st with now := t }.mature

/-- The first end of an ungating after now and before `t` (R222). -/
def State.nextUngate (st : State) (t : Nat) : Option Nat :=
  ((st.cores.flatMap (fun e => e.2.waking.map (·.2))).filter (fun w => decide (st.now < w ∧ w < t))).min?

/-- Wafer time moves forward to `t`, from one end of an ungating to the next. -/
def State.legs (t : Nat) : Nat → State → State
  | 0, st => st.leg t
  | n + 1, st => match st.nextUngate t with
    | some w => State.legs t n (st.leg w)
    | none => st.leg t

/-- Wafer time moves forward to `t`. It never moves back (R66). -/
def State.advance (st : State) (t : Nat) : State := State.legs t 64 st

/-- Wait, if need be, until wafer time `due`. -/
def State.until (st : State) (due : Nat) : State := st.advance (max st.now due)

/-- What happens on an empty queue: one nanosecond of wafer time passes, if wafer time runs (log 3). -/
def State.idleTick (st : State) : State := if st.clock then st.advance (st.now + 1) else st

end Sys2Proof.Machine
end

