-- ==== Sys2Proof/Machine/CoreCmd.lean ====
section
/-! DEFINITION. The commands of a Gorzan core: submission (R183, R188, R189), issue (R184-R199), the latch window (R212-R214),
escape tables (R253), retirement (R182, R191), beats (R34), flush and resume (R186, R200), the gleaner's port (R280, R281),
the checksum diagnostic (R289, R290), and chaff and ramps (R119-R125). -/

namespace Sys2Proof.Machine

/-! ## Submission -/

/-- A write of GZC_CMD_W3 by a permitted party (R183): the command is dropped while the core is flushing (R189) or with a
full intake (R188), and otherwise enters the intake. -/
def State.submit (st : State) (fn s : Nat) (w : CmdWords) : State :=
  let c := st.core fn s
  let st := (((st.wr (Reg.GZC_CMD_W fn s 0) w.w0).wr (Reg.GZC_CMD_W fn s 1) w.w1).wr (Reg.GZC_CMD_W fn s 2) w.w2).wr
    (Reg.GZC_CMD_W fn s 3) w.w3
  if c.flushAt.isSome then st.setb (Reg.GZC_STATUS fn s) 7
  else if 32 ≤ c.intake.length then st.setb (Reg.GZC_STATUS fn s) 6
  else st.putCore fn s { c with intake := c.intake ++ [{ num := c.nextNum, w := w }], nextNum := c.nextNum + 1 }

/-- A submission of an opcode by teller `s`: the row of the table names the opcode. -/
def State.submitOp (st : State) (fn s op : Nat) (w : CmdWords) : State :=
  match st.slotReason (.teller fn s) fn s with
  | some r => st.accErr (.teller fn s) r true (Reg.GZC_CMD_W fn s 3)
  | none => st.submit fn s { w with w0 := withBits w.w0 7 0 op }

def execNop (fn s : Nat) (w : CmdWords) (st : State) : Out1 := .next (st.submitOp fn s 0x00 w)
def execLoadW (fn s : Nat) (w : CmdWords) (st : State) : Out1 := .next (st.submitOp fn s 0x01 w)
def execRun (fn s : Nat) (w : CmdWords) (st : State) : Out1 := .next (st.submitOp fn s 0x02 w)
def execMint (fn s : Nat) (w : CmdWords) (st : State) : Out1 := .next (st.submitOp fn s 0x03 w)
def execMv (fn s : Nat) (w : CmdWords) (st : State) : Out1 := .next (st.submitOp fn s 0x04 w)
def execPush (fn s : Nat) (w : CmdWords) (st : State) : Out1 := .next (st.submitOp fn s 0x05 w)
def execPaceMark (fn s : Nat) (w : CmdWords) (st : State) : Out1 := .next (st.submitOp fn s 0x08 w)
def execRampUp (fn s : Nat) (w : CmdWords) (st : State) : Out1 := .next (st.submitOp fn s 0x09 w)
def execSignal (fn s : Nat) (w : CmdWords) (st : State) : Out1 := .next (st.submitOp fn s 0x0A w)
def execWait (fn s : Nat) (w : CmdWords) (st : State) : Out1 := .next (st.submitOp fn s 0x0B w)

/-! ## Chaff and ramps -/

/-- Density and dwell of entry `i` of a field's ramp table (R124). -/
def State.rampEntry (st : State) (fn : Nat) (up : Bool) (i : Nat) : Nat × Nat :=
  let v := st.rf (if up then Reg.FLD_RAMP_UP fn i else Reg.FLD_RAMP_DOWN fn i) 15 0
  (v / 2048, v % 2048)

def State.rampCount (st : State) (fn : Nat) (up : Bool) : Nat :=
  if up then st.rf (Reg.FLD_RAMP_CTL fn) 12 8 else st.rf (Reg.FLD_RAMP_CTL fn) 4 0

def CoreSt.ramp (c : CoreSt) (f : Nat) : Ramp := tget {} c.ramps f
def CoreSt.setRamp (c : CoreSt) (f : Nat) (r : Ramp) : CoreSt := { c with ramps := tput {} c.ramps f r }

/-- The mean density of a feeder's last 64 real beat slots, rounded up to whole sixteenths (R119); a real beat slot is one in
which the feeder held a real token (log 22). -/
def Ramp.followed (r : Ramp) : Nat :=
  if r.hist.isEmpty then 16 else (16 * (r.hist.filter id).length + r.hist.length - 1) / r.hist.length

/-- The density of a feeder's activity in sixteenths: of its gap (R119), of its ramp entry (R122, R123), full with real tokens,
none while it has never been used. -/
def State.rampDensity (st : State) (fn : Nat) (r : Ramp) : Nat :=
  if r.phase = 0 then 16
  else if r.phase = 1 then if r.window / 65536 = 0 then r.followed else r.window / 65536
  else if r.phase = 3 && r.entry = 0 then 0
  else (st.rampEntry fn (r.phase = 4) r.entry).1

/-- One beat slot of a feeder passes; `used` tells whether a real or chaff token took it. The model counts activity in frames
of 16 slots (log 22). -/
def Ramp.tick (r : Ramp) (used : Bool) : Ramp :=
  if 15 ≤ r.slot then { r with slot := 0, busy := 0 } else { r with slot := r.slot + 1, busy := r.busy + (if used then 1 else 0) }

/-- A beat slot in which the feeder held a real token; `sent` tells whether it broadcast. A broadcast ends a gap, and the first
one of a feeder never used starts it without a ramp (log 22). -/
def Ramp.real (r : Ramp) (sent : Bool) : Ramp :=
  let r := { r.tick sent with hist := (sent :: r.hist).take 64 }
  if sent && (r.phase = 1 || (r.phase = 3 && r.entry = 0)) then { r with phase := 0, entry := 0 } else r

/-- Enter the ramp-up table at the first entry at or above density `d` (R123); the last entry ends it. -/
def State.rampUp (st : State) (fn d : Nat) (r : Ramp) : Ramp :=
  let n := st.rampCount fn true
  let i := ((List.range n).find? (fun i => d ≤ (st.rampEntry fn true i).1)).getD (n - 1)
  let r := { r with since := st.now, slot := 0, busy := 0 }
  if n ≤ i + 1 then { r with phase := 0, entry := 0 } else { r with phase := 4, entry := i }

/-- A feeder that ramps down or is ramped down follows the ramp-up table (R123); any other is unchanged. -/
def State.rampUpFeeder (st : State) (fn s f : Nat) : State :=
  let c := st.core fn s
  let r := c.ramp f
  if r.phase = 2 || (r.phase = 3 && r.entry ≠ 0) then
    st.setCore fn s (c.setRamp f (st.rampUp fn (st.rampDensity fn r) r))
  else st

/-- RAMP_UP: every feeder that is not busy with real tokens or ramping up already follows the ramp-up table (R123). -/
def State.rampUpIdle (st : State) (fn s f : Nat) : State :=
  let c := st.core fn s
  let r := c.ramp f
  if r.phase = 0 || r.phase = 4 then st else st.setCore fn s (c.setRamp f (st.rampUp fn (st.rampDensity fn r) r))

/-- Whether a feeder holds a real token to broadcast: an activation token at the head of a row's queue, or for a path
slice an MV with segments left (R119, R323). -/
def CoreSt.hasReal (c : CoreSt) (f : Nat) : Bool :=
  if f < 32 then
    match (c.row f).q with
    | .token _ _ _ :: _ => true
    | _ => false
  else c.mv.any (fun x => !x.conv && !x.streamed)

/-- Whether a weight-load token stands at the head of a row feeder's queue: it ends chaff in the row, and the latch beats are
no gap slots (R119, R121). -/
def CoreSt.loadHead (c : CoreSt) (f : Nat) : Bool :=
  if f < 32 then
    match (c.row f).q with
    | .load _ _ _ :: _ => true
    | _ => false
  else false

/-- Whether a feeder is quiesced and takes no chaff (R120, R219, R320): a row outside the running RUN's ROW_MASK, a path slice
whose position is quiesced or gated, or one that the MV leaves without a row, and what lies outside the shape. -/
def State.feederQuiet (st : State) (fn s f : Nat) : Bool :=
  let c := st.core fn s
  if f < 32 then c.rowQuiet (st.rows fn s) f
  else
    let pw := st.mvSlices fn s
    let i := f - 32
    let pos := st.groupsOf fn s (fun mv p _ => mv && p = i / 16)
    let spare := match c.mv.find? (fun x => !x.conv && !x.streamed), c.mvRun with
      | some x, some m => m.num = x.num && decide (x.w.nCount ≤ m.batch * pw + i)
      | _, _ => false
    decide (pw ≤ i) || spare || pos.any (fun g => c.gated.contains g || c.quiet.any (fun q => q.1 = g))

/-- CHAFF_GAP: a non-quiesced feeder that has broadcast and now holds no real token starts a gap under the settings in force
(R119, R126); a weight-load token at its head is no gap. -/
def execChaffGap (fn s feeder : Nat) (st : State) : Out1 :=
  let c := st.core fn s
  let r := c.ramp feeder
  .next (st.when (st.isFull fn && st.present fn s && r.phase = 0 && !c.loadHead feeder && !c.hasReal feeder && feeder < 96 &&
      !st.feederQuiet fn s feeder && !r.hist.isEmpty)
    (fun st => st.setCore fn s (c.setRamp feeder
      { r with phase := 1, since := st.now, window := st.rf (Reg.FLD_CHAFF_CTL fn s) 20 0, slot := 0, busy := 0 })))

/-- RAMP_DOWN_START: once the gap has lasted CHAFF_WINDOW the feeder enters the ramp-down table at the first entry at or
below its present density (R122). -/
def execRampDownStart (fn s feeder : Nat) (st : State) : Out1 :=
  let r := (st.core fn s).ramp feeder
  .next (st.when (r.phase = 1) (fun st =>
    let st := st.until (r.since + 10 * (r.window % 65536))
    let n := st.rampCount fn false
    let d := st.rampDensity fn r
    let i := ((List.range n).find? (fun i => (st.rampEntry fn false i).1 ≤ d)).getD (n - 1)
    st.setCore fn s ((st.core fn s).setRamp feeder
      { r with phase := if n ≤ i + 1 then 3 else 2, entry := i, since := st.now, slot := 0, busy := 0 })))

/-- RAMP_ENTRY_ADVANCE: when an entry's dwell has passed the feeder takes the next one; the last ramp-down entry is held
until work returns, and ramp-up ends at its last entry (R122, R123). -/
def execRampEntryAdvance (fn s feeder : Nat) (st : State) : Out1 :=
  let r := (st.core fn s).ramp feeder
  .next (st.when (r.phase = 2 || r.phase = 4) (fun st =>
    let up := r.phase = 4
    let st := st.until (r.since + 10 * (st.rampEntry fn up r.entry).2)
    let n := st.rampCount fn up
    let e := r.entry + 1
    let r' : Ramp := if n ≤ e + 1 then
        { r with phase := if up then 0 else 3, entry := if up then 0 else e, since := st.now, slot := 0, busy := 0 }
      else { r with entry := e, since := st.now, slot := 0, busy := 0 }
    st.setCore fn s ((st.core fn s).setRamp feeder r')))

/-- RAMP_UP_START: a real token at a ramping-down or ramped-down feeder starts ramp-up (R123). -/
def execRampUpStart (fn s feeder : Nat) (st : State) : Out1 :=
  .next (st.when ((st.core fn s).hasReal feeder) (fun st => st.rampUpFeeder fn s feeder))

/-- One beat slot of a feeder with no real token (R119-R123): a chaff beat while the density of its gap or ramp entry has room
in the present 16 slots; it is counted and changes nothing else (R120, R125). -/
def State.chaffBeat (st : State) (fn s f : Nat) : State :=
  let c := st.core fn s
  let r := c.ramp f
  let on := (r.phase = 2 || r.phase = 3 || r.phase = 4 ||
      (r.phase = 1 && decide (st.now < r.since + 10 * (r.window % 65536)))) &&
    decide (r.busy < st.rampDensity fn r) && !c.loadHead f && !st.feederQuiet fn s f
  let st := if r.phase = 0 || (r.phase = 3 && r.entry = 0) then st else st.setCore fn s (c.setRamp f (r.tick on))
  st.when on (fun st => st.add (Reg.FLD_CHAFF_COUNT fn s) 63 0 1)

/-- One beat slot of row feeder `r` (R119, R123, R206): a real token is broadcast at once, but for the slots that a ramp-up
entry's density leaves it; without one the slot may carry chaff. Slots of different rows make up one beat (log 22). -/
def State.rowSlot (st : State) (fn s r : Nat) : State :=
  let c := st.core fn s
  let c := if c.slotRows.contains r then { c with slotRows := [r], slotReal := false } else { c with slotRows := c.slotRows ++ [r] }
  let st := st.setCore fn s c
  if c.hasReal r then
    let st := st.rampUpFeeder fn s r
    let c := st.core fn s
    let x := c.ramp r
    let go := c.rowCan (st.cols fn s) st.now r && !(x.phase = 4 && decide (st.rampDensity fn x ≤ x.busy))
    let st := st.setCore fn s (c.setRamp r (x.real go))
    if go then st.rowBeat fn s r else st
  else st.chaffBeat fn s r

/-- One beat slot of the matrix-vector path, its slices in place of row feeders and segments in place of tokens (R323). -/
def State.mvSlot (st : State) (fn s : Nat) : State :=
  let slices := (List.range (st.mvSlices fn s)).map (· + 32)
  if (st.core fn s).hasReal 32 then
    let on := slices.filter (fun f => !st.feederQuiet fn s f)
    let st := on.foldl (fun st f => st.rampUpFeeder fn s f) st
    let can := st.mvCan fn s
    let full := on.any (fun f =>
      let x := (st.core fn s).ramp f
      x.phase = 4 && decide (st.rampDensity fn x ≤ x.busy))
    let go := can && !full
    let st := on.foldl (fun st f => st.setCore fn s ((st.core fn s).setRamp f (((st.core fn s).ramp f).real go))) st
    if can && full then st else st.mvBeat fn s
  else slices.foldl (fun st f => st.chaffBeat fn s f) st

/-! ## The control stage (R191, R195, R198) -/

/-- What the head of the control class starts by itself: a WAIT registers with the tally unit (R515), a SIGNAL whose
earlier commands have all retired is sent (R195, R514). -/
def State.ctrlHead (st : State) (fn s : Nat) : State :=
  let c := st.core fn s
  match c.ctrl with
  | [] => st
  | x :: _ =>
    if x.sent ≠ 0 then st
    else if x.w.op = 0x0B then
      let e := if x.w.timeout = 0 then none else some (st.now + 1000 * x.w.timeout)
      let st := st.putCore fn s (c.modCmd 4 x.num (fun y => { y with sent := 1, expiry := e }))
      st.send fn { kind := 0x0E, part := st.owner fn, srcUnit := s, tag := 8192 + fn * 4 + s,
                   dst := unitDst st.anchor 8, a := x.w.tally, c := x.w.value }
    else if x.w.op = 0x0A && c.earlierDone x.num then
      let tag := st.mesh.nextTag
      let st := st.putCore fn s (c.modCmd 4 x.num (fun y => { y with sent := 1 }))
      let st := st.track { holder := coreHolder fn s, grant := 64, tag := tag, units := 0, time := st.now, dst := 0,
                           job := .signal fn s x.num }
      st.send fn { kind := 0x0C, part := st.owner fn, srcUnit := s, tag := tag, dst := unitDst st.anchor 8,
                   a := x.w.tally, b := x.w.value }
    else st

/-! ## Retirement -/

/-- Make the entries that a RUN names free values: R252 leaves them undefined (log 1). -/
def State.freeEntries (st : State) (fn s bank : Nat) : List (Nat × Nat) → State
  | [] => st
  | (e, k) :: t =>
    let d := st.draw
    let c := d.2.core fn s
    State.freeEntries (d.2.setCore fn s { c with acc := tput 0 c.acc (accKey bank e k) (d.1.toNat % 2 ^ 48) }) fn s bank t

/-- Make the bytes of an MV's output range free values: R325 leaves the range of a failed MV undefined (log 1). -/
def State.freeBytes (st : State) : List Nat → State
  | [] => st
  | a :: t => let d := st.draw; State.freeBytes (d.2.setMem8 a (d.1.truncate 8)) t

/-- What a command does as it retires, beside being counted. -/
def State.retireEffect (st : State) (fn s cls : Nat) (x : Cmd) : State :=
  let c := st.core fn s
  match x.w.op with
  | 2 =>
    let st := st.setCore fn s { c with bankHold := if c.bankHold.contains x.w.bank then c.bankHold else x.w.bank :: c.bankHold }
    if x.status = 0x0D then
      st.freeEntries fn s x.w.bank ((List.range x.w.tokens).flatMap (fun i =>
        (List.range (st.cols fn s + 1)).map (fun k => (x.w.runFirst + i, k))))
    else st
  | 3 =>
    /- with no later RUN into it issued the bank is empty (R211), and its next ACCUM 0 RUN records its TSHIFT (R250) -/
    let later := c.lastRun.any (fun e => e.1 = x.w.bank && x.num < e.2)
    let st := st.setCore fn s (if later then c else { c with
      bankHold := c.bankHold.erase x.w.bank,
      bankEmpty := if c.bankEmpty.contains x.w.bank then c.bankEmpty else c.bankEmpty ++ [x.w.bank] })
    let st := if x.w.glean && x.status ≠ 0x0D then st.gleanBack fn s x.glean x.w.thresh else st
    match x.result with
    | some v => if x.w.thresh then st.wn (Reg.GZC_THRESH fn s) v else st
    | none => st
  | 4 =>
    let st := if x.w.glean && x.status ≠ 0x0D then st.gleanBack fn s x.glean false else st
    if x.status = 0x0C && !x.w.remote && x.post ≠ 2 then
      st.freeBytes ((List.range (x.w.nCount * (leAt x.desc 9 1 + 1))).map (x.w.oaddr + ·))
    else st
  | 8 =>
    let g := st.rf (Reg.FLD_PWR_STATE fn) 31 24
    ((tget [] st.brs.groups g)).foldl (fun st f =>
      st.send fn { kind := 8, part := st.owner fn, srcUnit := s, dst := unitDst f 9, a := g, b := x.w.frame, c := x.w.mark,
                   d := st.now }) st
  | 9 => (List.range (st.rows fn s) ++ (List.range (st.mvSlices fn s)).map (· + 32)).foldl (fun st f => st.rampUpIdle fn s f) st
  | _ => let _ := cls; st

/-- Retire the head of a class queue: it leaves the queue, is counted, takes effect, posts its record and may halt the
core (R182, R186). A record that finds the FIFO full keeps the command where it is (R187). -/
def State.retire (st : State) (fn s cls : Nat) : State :=
  let c := st.core fn s
  match c.queue cls with
  | [] => st
  | x :: rest =>
    let record := x.w.notify || x.status ≠ 0
    if !x.tail || (record && 64 ≤ c.retire.length) then st
    else
      let status := if x.status = 0 && x.first.isSome then 0x0C else x.status
      let record := record || status ≠ 0
      if record && 64 ≤ c.retire.length then st
      else
        let detail := if status = 0x0C && x.w.op = 2 then (x.failWin.getD 0) * 65536 + x.first.getD 0 else x.detail
        let c := { (c.setQueue cls rest) with
          params := c.params.filter (fun p => p.num ≠ x.num), vbuf := c.vbuf.filter (fun v => v.1 ≠ x.num) }
        let st := (st.setCore fn s c).add (Reg.GZC_RETIRED fn s) 63 0 1
        let st := st.retireEffect fn s cls { x with status := status }
        let st := if record then st.postRecord fn s x.w status else st
        let st := if status = 0 then st
          else if haltsCore x.w.op status then st.halt fn s x.w status detail else st.lastErr fn s x.w status detail
        let st := if cls = 0 || cls = 2 then st.requiet fn s else st
        (st.refresh fn s).ctrlHead fn s

/-- Whether the head of the control class may retire now (R191, R195): NOP and RAMP_UP at once, a pace mark once every
earlier command has retired, SIGNAL and WAIT once the tally unit has answered. -/
def CoreSt.ctrlReady (c : CoreSt) : Bool :=
  match c.ctrl with
  | [] => false
  | x :: _ => match x.w.op with
    | 0x0A => x.result.isSome
    | 0x0B => x.result.isSome
    | 0x08 => c.earlierDone x.num
    | _ => true

/-- Give the head of the control class its tail and status when it may retire: a signal refused outside the partition's
blocks ends with TALLY (R514), a wait refused ends with TALLY, a wait that timed out with WAIT_TIMEOUT (R198, R515). -/
def State.ctrlTail (st : State) (fn s : Nat) : State :=
  let c := st.core fn s
  match c.ctrl with
  | [] => st
  | x :: _ =>
    if c.ctrlReady then
      let status := match x.w.op, x.result with
        | 0x0A, some 3 => 0x06
        | 0x0B, some 2 => 0x06
        | 0x0B, some 1 => 0x08
        | _, _ => 0
      st.setCore fn s (c.modCmd 4 x.num (fun y => { y with tail := true, status := status, detail := if status = 0 then 0 else x.w.tally }))
    else st

/-- WAIT_TIMEOUT: when the timeout of the WAIT in progress expires, the waiter cancels its wait (R515, R198); a TWAKE
with a T_w no later than the expiry still satisfies it, which the tally unit's answer to the cancel settles. -/
def execWaitTimeout (fn s : Nat) (st : State) : Out1 :=
  match (st.core fn s).ctrl with
  | x :: _ =>
    match x.expiry with
    | some e =>
      if x.w.op = 0x0B && x.result.isNone && x.sent = 1 then
        let st := st.until e
        let st := st.setCore fn s ((st.core fn s).modCmd 4 x.num (fun y => { y with sent := 2 }))
        .next (st.cancelWait (8192 + fn * 4 + s) x.w.tally e)
      else .next st
    | none => .next st
  | [] => .next st

/-! ## Issue -/

/-- Accept the head command: it leaves the intake for its class queue (R191) with what it takes along at its issue. -/
def State.issueHead (st : State) (fn s : Nat) (x : Cmd) (rest : List Cmd) (desc : List Byte) : State :=
  let c := st.core fn s
  let cls := classOf x.w.op
  let ctl := Reg.ISL_CTL fn s
  let tapped := x.w.op = 2 || x.w.op = 3 || x.w.op = 4
  let x := { x with desc := desc, window := st.rf (Reg.GZC_CS_CTL fn s) 8 0, total := x.w.tokens,
                    pre := if x.w.op = 2 && x.w.rowMask ≠ 0 then st.rf ctl 3 2 else 0,
                    post := if x.w.op = 3 && !x.w.thresh || x.w.op = 4 then st.rf ctl 5 4 else 0 }
  let c := { (c.setQueue cls (c.queue cls ++ [x])) with intake := rest }
  let c := if x.w.op = 2 then { c with
      lines := [], bankHold := c.bankHold.erase x.w.bank,
      lastRun := (c.lastRun.filter (fun e => e.1 ≠ x.w.bank)) ++ [(x.w.bank, x.num)] } else c
  let st := (st.setCore fn s c).add (Reg.GZC_ISSUED fn s) 63 0 1
  let st := if cls = 0 || cls = 2 then (st.ungate fn s x).requiet fn s else st
  /- the island (R584, R595) -/
  let isl := st.island fn s
  let st := if tapped && isl.zero && !isl.rstLow then st.setIsl fn s { isl with zero := false } else st
  let st := if x.pre = 2 && !(st.island fn s).zero then
      let d := x.w.tokens + x.w.rowMask * 2 ^ 16 + x.w.kBase * 2 ^ 48 + x.w.descIx * 2 ^ 68 + x.w.abase * 2 ^ 84
      let y := st.island fn s
      st.setIsl fn s { y with outq := y.outq ++ [(List.range 16).map (fun i => d / 2 ^ (64 * i) % 2 ^ 64) ++ [0, 2 ^ 23 + x.w.tag * 2 ^ 24]] }
    else st
  (st.refresh fn s).ctrlHead fn s

/-- COMMAND_ISSUE: the head command of the intake issues when the ordering rules allow it and the intake's checks pass
(R184, R185, R195); a command that fails a check is refused and halts the core (R186). -/
def execCommandIssue (fn s : Nat) (st : State) : Out1 :=
  let c := st.core fn s
  match c.intake with
  | [] => .next st
  | x :: rest =>
    let cls := classOf x.w.op
    let busy := st.halted fn s || c.flushAt.isSome || c.held || c.unrepairable || c.shareAt.isSome ||
      st.rb (Reg.GZC_CS_STATUS fn s) 30
    let waits := c.ctrl.any (fun y => y.w.op = 0x0B)
    let first := x.w.barrier && !(c.feed.isEmpty && c.mint.isEmpty && c.mv.isEmpty && c.push.isEmpty && c.ctrl.isEmpty)
    if !st.isFull fn || !st.present fn s || busy || waits || first || 4 ≤ (c.queue cls).length then .next st
    else
      let k := st.intakeCheck fn s x.w
      match k.1 with
      | some (status, detail) =>
        if 64 ≤ c.retire.length then .next st
        else
          let st := k.2.2
          let st := st.setCore fn s { st.core fn s with haltHead := true }
          .next ((st.postRecord fn s x.w status).halt fn s x.w status detail)
      | none =>
        let st := k.2.2.issueHead fn s x rest k.2.1
        /- NOP and RAMP_UP retire as they issue (R191) -/
        .next (if x.w.op = 0 || x.w.op = 9 then (st.ctrlTail fn s).retire fn s 4 else st)

/-! ## The latch window -/

/-- The subscales that a LOAD_W puts in force: those of every group that has a row in its mask (R247, R248). `nib i` is
nibble i of the scale tensor. -/
def CoreSt.latchSubs (c : CoreSt) (rows cols : Nat) (w : CmdWords) (nib : Nat → Nat) : List (Nat × Nat) :=
  let l := lanesOf w.format
  let g := groupLen w.group
  let ng := rows * l / g
  let todo := (List.range rows).flatMap (fun r => (List.range (l / 32)).map (fun h => (r, h, (r * l + 32 * h) / g)))
  let hit := todo.filter (fun t => (bitList rows w.lwRows).any (fun r => r * l / g ≤ t.2.2 && t.2.2 ≤ (r * l + l - 1) / g))
  hit.foldl (fun a t => (List.range cols).foldl
    (fun a n => tput 0 a ((t.1 * 2 + t.2.1) * 64 + n) (nib (n * ng + t.2.2))) a) c.subs

/-- Nibble `i` of the subscales that follow a scale tensor's head (R247). -/
def nibbleAt (bs : List Byte) (i : Nat) : Nat :=
  let v := leAt bs (8 + i / 2) 1
  if i % 2 = 0 then v % 16 else v / 16

/-- Bytes of a scale tensor. -/
def scaleLen (rows cols : Nat) (w : CmdWords) : Nat := 8 + cols * (rows * lanesOf w.format / groupLen w.group) / 2

/-- The first byte of a scale tensor's head that R247 does not allow. -/
def scaleBad (bs : List Byte) : Option Nat :=
  let t := sext 8 (leAt bs 0 1)
  if t < -64 || 63 < t then some 0 else firstNonzero bs [1, 2, 3, 4, 5, 6, 7]

/-- Whether row `r` stands at the latch marker of LOAD_W `x`, its weight-load token before it where the mask has the row
(R212). -/
def CoreSt.atMark (c : CoreSt) (x : Cmd) (r : Nat) : Bool :=
  match x.w.lwRows.testBit r, (c.row r).q with
  | true, .load n _ _ :: .marker m :: _ => n == x.num && m == x.num
  | false, .marker n :: _ => n == x.num
  | _, _ => false

/-- LATCH_WINDOW: once every row's queue stands at the marker of the oldest LOAD_W not yet latched, the rows of its mask
latch their weights and the scales take effect (R212-R214, R247, R248, R250, R253, R261); the LOAD_W has then passed its
retirement point. The weights that tokens in the trees still need stay known (R213). -/
def execLatchWindow (fn s : Nat) (st : State) : Out1 :=
  let c := st.core fn s
  let rows := st.rows fn s
  match c.feed.find? (fun x => x.w.op = 1 && !x.tail) with
  | none => .next st
  | some x =>
    if !((List.range rows).all (fun r => c.atMark x r)) || st.now < x.gate then .next st
    else
      let head := x.head.getD []
      let bad := scaleBad head
      let ok := x.status = 0 && bad.isNone
      let status := if x.status ≠ 0 then x.status else if bad.isSome then 0x0D else 0
      let detail := if x.status ≠ 0 then x.detail else bad.getD 0
      let mask := x.w.lwRows
      let newRow (r : Nat) : RowSt :=
        let row := c.row r
        let w : Option RowW := match row.q with
          | .load _ w _ :: _ => if ok then some w else none
          | _ => if ok && row.w.any (fun v => v.fmt ≠ x.w.format) then none else row.w
        { row with q := row.q.drop (if mask.testBit r then 2 else 1), w := w }
      let subs := (List.range rows).flatMap (fun r => match (c.row r).q with
        | .load _ _ l :: _ => l
        | _ => [])
      let clash := ok && (List.range rows).any (fun r => !mask.testBit r && (c.row r).w.any (fun v => v.fmt ≠ x.w.format))
      let c1 := (List.range rows).foldl (fun (a : CoreSt) r => a.setRow r (newRow r)) c
      let tsh := sext 8 (leAt head 0 1)
      let whole := (List.range rows).all (fun r => (c1.row r).w.any (fun v => v.fmt = x.w.format))
      let c2 := if ok then { c1 with
          subs := subs.foldl (fun t e => tput 0 t e.1 e.2) c1.subs, lw := x.num, lwCmd := x.w, lwShift := tsh,
          old := (c.latched c.lw :: c.old).filter (fun o => c.toks.any (fun t => t.lw = o.num)),
          mixed := (c.mixed || clash) && !whole,
          escs := (c1.escs.filter (fun t => t.lw = x.num || c1.toks.any (fun k => k.lw = t.lw))) ++
            (if x.w.esc && x.w.escCount ≠ 0 then [] else [({ lw := x.num } : EscTab)]) }
        else c1
      let c3 := c2.modCmd 0 x.num (fun y => { y with status := status, detail := detail, tail := true })
      let st := st.putCore fn s c3
      let st := if ok then st.wn (Reg.GZC_WSTATE fn s) (x.w.escCount * 65536 + x.w.group * 4096 + (if x.w.esc then 2048 else 0) +
          x.w.format * 1024 + twos 8 tsh) else st
      .next (st.add (Reg.GZC_STALL_LATCH fn s) 63 0 (popN 32 mask))

/-- ESCAPE_TABLE_LOAD: the escape unit reads the list of the oldest LOAD_W that lacks its table, when a table is free
(R252, R253): one that tokens in the trees wait for, the one in force, or one in FEED. -/
def execEscapeTableLoad (fn s : Nat) (st : State) : Out1 :=
  let c := st.core fn s
  let need (n : Nat) (w : CmdWords) : Bool := w.esc && w.escCount ≠ 0 && (c.escTab n).isNone
  let todo : List (Nat × CmdWords) :=
    (c.old.reverse.filter (fun o => need o.num o.words)).map (fun o => (o.num, o.words)) ++
    (if c.lw ≠ 0 && need c.lw c.lwCmd && !c.feed.any (fun y => y.num = c.lw) then [(c.lw, c.lwCmd)] else []) ++
      (c.feed.filter (fun x => x.w.op = 1 && need x.num x.w)).map (fun x => (x.num, x.w))
  let live := c.escs.filter (fun t => c.lw ≤ t.lw || c.toks.any (fun k => k.lw = t.lw))
  match todo with
  | [] => .next st
  | (n, w) :: _ =>
    if 2 ≤ live.length || !st.isFull fn then .next st
    else
      let r := st.readEscs fn s w.escAddr (st.cols fn s) (min w.escCount 128) 0 none {}
      let c := r.2.core fn s
      let t : EscTab := { lw := n, entries := r.1.entries, bad := r.1.bad, poison := r.1.poison }
      .next ((r.2.putCore fn s { c with escs := live ++ [t] }).add (Reg.GZC_ESC_LOADED fn s) 63 0 (min w.escCount 128))

/-! ## Beats -/

/-- The island takes the oldest word of PF_OUT (R578, R583). -/
def State.pfOutBeat (st : State) (fn s : Nat) : State :=
  let x := st.island fn s
  match x.outq with
  | [] => st
  | w :: t => if x.rstLow then st else (st.setIsl fn s { x with outq := t }).emit (.island fn s 1 w)

/-- The island takes the oldest word of PM_OUT; a diverted command may retire when it has accepted its END vector (R578, R587,
R588). -/
def State.pmOutBeat (st : State) (fn s : Nat) : State :=
  let x := st.island fn s
  match x.pmq with
  | [] => st
  | w :: t =>
    if x.rstLow then st
    else
      let st := (st.setIsl fn s { x with pmq := t }).emit (.island fn s 2 w.words)
      match w.fin with
      | some num => st.putCore fn s ((st.core fn s).modCmd w.cls num (fun y => { y with tail := true }))
      | none => st

/-- BEAT: one handshake of a self-timed stage (R34), or of a tap with the island (R578, log 31): it acts only on what it holds,
and otherwise nothing changes. -/
def execBeat (fn s : Nat) (stage : Stage) (st : State) : Out1 :=
  let c := st.core fn s
  if !st.isFull fn || !st.present fn s || c.flushAt.isSome || c.held then .next st
  else .next (match stage with
    | .gen r => (st.genBeat fn s r).refresh fn s
    | .row r => if r < 32 then st.rowSlot fn s r else st
    | .tree k => st.treeBeat fn s k
    | .accum k => st.accumBeat fn s k
    | .param => st.paramBeat fn s
    | .mint => st.mintBeat fn s
    | .drain => st.drainBeat fn s
    | .mv => st.mvSlot fn s
    | .pfOut => st.pfOutBeat fn s
    | .pmOut => st.pmOutBeat fn s)

/-! ## Flush, resume, records -/

/-- A flush of the island's pre-feeder and post-mint queues (R596, R510). -/
def State.tapFlush (st : State) (fn s : Nat) : State :=
  let x := st.island fn s
  if x.rstLow then st
  else
    let st := st.pmDiscard fn s
    let st := st.setIsl fn s { st.island fn s with
      due := [], inq := [], outq := [], ended := none, inItem := false, resync := x.resync || x.inItem }
    let st := if x.inItem && !x.resync then st.pfResync fn s else st
    st.emit (.island fn s 3 [])

/-- Empty a core of its commands and tokens and of its weights and banks (R200 steps 1 to 4, R250, R275). A deposit
already injected completes on its route, and its answer returns its units. The retirement FIFO, the frozen checksum
record, the cache and the counters stay. -/
def CoreSt.emptied (c : CoreSt) : CoreSt :=
  { c with
    intake := [], feed := [], mint := [], mv := [], push := [], ctrl := [], haltHead := false, rows := [], lw := 0,
    lwShift := 0, old := [], mixed := false, escs := [], toks := [], lines := [], segs := [], acc := [], bankT := [],
    bankEmpty := [0, 1], bankHold := [], lastRun := [], mintPos := 0, params := [], drain := none, remote := [], thrKey := none,
    thrLen := 0, thrLive := none, vbuf := [], mvRun := none, mvBanks := [], win := {}, quiet := [], badReads := [] }

/-- Start a flush of a core slot (R200): everything is discarded, HALTED clears except in an unrepairable slot (R295), FLUSHING
shows until its end. -/
def State.flushCore (st : State) (fn s : Nat) : State :=
  let c := st.core fn s
  if c.flushAt.isSome then st
  else
    let n := c.intake.length + c.feed.length + c.mint.length + c.mv.length + c.push.length + c.ctrl.length
    let wait := c.ctrl.find? (fun x => x.w.op = 0x0B && x.sent = 1)
    let st := match wait with
      | some x => st.cancelWait (8192 + fn * 4 + s) x.w.tally st.now
      | none => st
    let st := st.tapFlush fn s
    let st := st.setCore fn s { c.emptied with flushAt := some (st.now + 20000), flushN := n }
    let st := if c.unrepairable then st else st.clrb (Reg.GZC_STATUS fn s) 2
    let st := st.wn (Reg.GZC_BANK_EXP fn s) 0
    (st.wn (Reg.GZC_THRESH fn s) 0).refresh fn s

/-- FLUSH: a write of GZC_CTL.FLUSH by teller `s` or the housekeeper (R183, R200); one written while FLUSHING is 1 has no
further effect. -/
def execFlush (who : Who) (fn s : Nat) (st : State) : Out1 :=
  .next (st.slotWrite who fn s (Reg.GZC_CTL fn s) (Who.tellerOf who fn s) (fun st => st.flushCore fn s))

/-- End HALTED (R186), except in an unrepairable slot (R295): the command that caused the halt leaves the intake if it still stands at its head. -/
def State.resumeCore (st : State) (fn s : Nat) : State :=
  let c := st.core fn s
  if !st.halted fn s || c.flushAt.isSome || c.unrepairable then st
  else (st.clrb (Reg.GZC_STATUS fn s) 2).putCore fn s
    { c with intake := if c.haltHead then c.intake.drop 1 else c.intake, haltHead := false }

/-- RESUME: a write of GZC_CTL.RESUME (R183, R186). -/
def execResume (who : Who) (fn s : Nat) (st : State) : Out1 :=
  .next (st.slotWrite who fn s (Reg.GZC_CTL fn s) (Who.tellerOf who fn s) (fun st => st.resumeCore fn s))

/-! ## Slice groups -/

/-- GROUP_GATE: a group quiesced for GATE_DELAY is rail-gated where GATE_EN was 1 when its quiescing started, at no more than
4 groups per 10 ns (R222, R229). -/
def execGroupGate (fn s group : Nat) (st : State) : Out1 :=
  match (st.core fn s).quiet.find? (fun q => q.1 = group) with
  | some (_, since, some delay) =>
    .next (st.when (st.isFull fn) (fun st =>
      let st := st.until (max (since + 1000 * delay) (((st.core fn s).gates[3]?.map (· + 10)).getD 0))
      let c := st.core fn s
      st.putCore fn s { c with quiet := c.quiet.filter (fun q => q.1 ≠ group), gates := (st.now :: c.gates).take 4,
                               gated := if c.gated.contains group then c.gated else c.gated ++ [group] }))
  | _ => .next st

/-! ## The gleaner's registers -/

/-- A clear of the gleaner starts (R280); the next beat of the mint's gleaner with no command recording carries it out
(`State.mintBeat`). -/
def State.gleanClear (st : State) (fn s : Nat) : State :=
  (st.setCore fn s { st.core fn s with clearing := true }).setb (Reg.GZC_GLEAN_CTL fn s) 9

/-- GLEAN_CLEAR: a write of GZC_GLEAN_CTL.CLEAR (R280). -/
def execGleanClear (who : Who) (fn s : Nat) (st : State) : Out1 :=
  .next (st.slotWrite who fn s (Reg.GZC_GLEAN_CTL fn s) (st.tellerOrOwner who fn s) (fun st => st.gleanClear fn s))

/-- The bin of the gleaner that INDEX selects (R281). -/
def State.gleanBin (st : State) (fn s : Nat) : Nat :=
  st.loadN (st.ctlBase fn s + 0x6000 + 8 * st.rf (Reg.GZC_GLEAN_INDEX fn s) 9 0) 8

/-- GLEAN_BIN_READ: the bin that INDEX selects is returned, and INDEX advances modulo 1,024 (R281). -/
def execGleanBinRead (who : Who) (fn s : Nat) (st : State) : Out1 :=
  match st.slotReason who fn s with
  | some r => .next (st.accErr who r false (Reg.GZC_GLEAN_BIN fn s))
  | none => .next ((st.answer (st.gleanBin fn s)).add (Reg.GZC_GLEAN_INDEX fn s) 9 0 1)

/-! ## The checksum diagnostic -/

/-- Write a verdict (R290): LOC_COL names the column for verdicts 1 and 2. -/
def State.csVerdict (st : State) (fn s verdict col : Nat) : State :=
  let r := Reg.GZC_CS_STATUS fn s
  ((st.wf r 26 24 verdict).wf r 15 8 col).setb r 29

/-- Steps 1 to 5 of the diagnostic on a frozen record (R289, R290). -/
def State.diagnose (st : State) (fn s : Nat) (f : Frozen) : State :=
  let rows := st.rows fn s
  let cols := st.cols fn s
  let lw := f.load
  let l := lanesOf lw.format
  let rec0 := st.coreRead fn s lw.saddr (scaleLen rows cols lw)
  let st := rec0.2.2
  let rdRows := bitList rows f.run.rowMask
  let step (a : State × CoreSt) (r : Nat) : State × CoreSt :=
    let rd := a.1.coreRead fn s (lw.waddr + r * rowPitch cols lw.format) (cols * 32 + 3 * l)
    (rd.2.2, a.2.setRow r { a.2.row r with w := some { fmt := lw.format, esc := lw.esc, codes := rd.1 } })
  let loaded := rdRows.foldl step (st, { subs := (st.core fn s).latchSubs rows cols lw (nibbleAt rec0.1) : CoreSt })
  let es := if lw.esc then loaded.1.readEscs fn s lw.escAddr cols lw.escCount 0 none {} else ({}, loaded.1)
  let st := es.2
  let tmp := loaded.2
  let x (r j : Nat) : Int := tget 0 f.xbar (r * 64 + j)
  let lo (r : Nat) : List Int := (List.range l).map (fun j => x r j % 2 ^ 15)
  let hi (r : Nat) : List Int := (List.range l).map (fun j => x r j / 2 ^ 15)
  let cmd : Cmd := { num := 0, w := f.run }
  let tok (v : Nat → List Int) : Tok := { num := 0, idx := 0, lw := 0, lanes := rdRows.map (fun r => (r, v r)) }
  let d (v : Nat → List Int) (k : Nat) : Int :=
    rdRows.foldl (fun a r => a + tmp.rowSum cols r k (v r)) 0 +
      (if k = cols then 0 else (corrections tmp.subs cmd (tok v) rows l k es.1.entries).1)
  let ref (k : Nat) : Nat := twos 48 (d lo k + 2 ^ 15 * d hi k)
  let on := runCols cols f.run
  let delta := on.filter (fun k => twos 48 ((tget 0 f.acc k : Nat) - (ref k : Int)) ≠ 0)
  let self := twos 48 ((ref cols : Int) - ((on.filter (· ≠ cols)).foldl (fun a k => a + ref k) 0 : Nat)) ≠ 0
  let verdict := match delta with
    | [] => if self then 3 else 5
    | [_] => if self then 2 else 1
    | _ => 4
  let st := st.wn (Reg.GZC_CS_DIAG fn s) (delta.foldl (fun a k => a + 2 ^ k) 0 + (if self then 2 ^ 33 else 0))
  let st := st.csVerdict fn s verdict (match delta with | [k] => k | _ => 0xFF)
  let c := st.core fn s
  st.putCore fn s { c.mapRows (fun x => { x with w := none }) with lw := 0, mixed := false }

/-- DIAG written, accepted on an idle core with a record and no verdict yet (R289); a LOAD_W that does not cover the RUN's
rows, or a window that a flush cut off, gives NO_DIAG. -/
def State.csDiag (st : State) (fn s : Nat) : State :=
  let c := st.core fn s
  let r := Reg.GZC_CS_STATUS fn s
  match c.frozen with
  | none => st
  | some f =>
    if !c.idle || c.flushAt.isSome || !st.rb r 31 || st.rb r 29 then st
    else if !f.complete || f.run.rowMask &&& f.load.lwRows ≠ f.run.rowMask then st.csVerdict fn s 6 0xFF
    else st.diagnose fn s f

/-- CS_DIAG: the housekeeper's DIAG write (R289). -/
def execCsDiag (who : Who) (fn s : Nat) (st : State) : Out1 :=
  .next (st.slotWrite who fn s (Reg.GZC_CS_CTL fn s) (who == .teller fn 3) (fun st => st.csDiag fn s))

/-- Remove the mismatch records of a slot, the verdict and DIAG_DONE (R288, R325). -/
def State.csClear (st : State) (fn s : Nat) : State :=
  let c := st.core fn s
  let st := st.setCore fn s { c with frozen := none }
  let st := st.wn (Reg.GZC_CS_STATUS fn s) 0xFF00
  let st := [Reg.GZC_CS_FIRST fn s, Reg.GZC_CS_RESID fn s, Reg.GZC_CS_DIAG fn s, Reg.GZC_MV_CS_FIRST fn s,
    Reg.GZC_MV_CS_RESID fn s].foldl (fun st r => st.wn r 0) st
  (st.wf (Reg.GZC_MV_STATUS fn s) 7 0 0).clrb (Reg.GZC_MV_STATUS fn s) 31

/-- CS_CLEAR: the housekeeper's CLEAR write (R288). -/
def execCsClear (who : Who) (fn s : Nat) (st : State) : Out1 :=
  .next (st.slotWrite who fn s (Reg.GZC_CS_CTL fn s) (who == .teller fn 3) (fun st => st.csClear fn s))

end Sys2Proof.Machine
end

