-- ==== Sys2Proof/Machine/ItemForm.lean ====
section
/-! DEFINITION. The layouts of queue items (R493, R495-R499, R509): which bytes an opcode defines in its queue, which byte of
an item breaks its layout, and the item that stands at the head of a ring (R492, R507). -/

namespace Sys2Proof.Machine

/-- Which table of opcodes serves a queue: 0 work items, 1 control items, 2 management items. -/
def queueKind (key : Nat) : Nat := if 4096 ≤ key then 2 else if key % 256 = 0 then 1 else 0

/-- The body fields (offset, length) that an opcode defines in its queue; `none` for an opcode that is not defined there. -/
def bodyFields (kind op : Nat) : Option (List (Nat × Nat)) :=
  match kind, op with
  | 0, 0x00 => some []
  | 0, 0x01 => some []
  | 0, 0x02 => some [(0x20, 2), (0x28, 8), (0x30, 8), (0x38, 4)]
  | 0, 0x03 => some [(0x20, 1), (0x28, 8), (0x30, 8), (0x38, 4)]
  | 0, 0x04 => some [(0x20, 1), (0x21, 1), (0x22, 2), (0x24, 4), (0x28, 2), (0x2A, 1), (0x2C, 2), (0x30, 8), (0x38, 8)]
  | 0, 0x05 => some [(0x20, 1)]
  | 0, 0x06 => some [(0x20, 1), (0x24, 4)]
  | 1, 0x00 => some []
  | 1, 0x20 => some []
  | 1, 0x21 => some []
  | 1, 0x22 => some []
  | 1, 0x23 => some []
  | 1, 0x24 => some [(0x28, 8), (0x30, 8)]
  | 1, 0x25 => some [(0x20, 3)]
  | 1, 0x26 => some [(0x20, 3), (0x24, 4), (0x28, 8)]
  | 2, 0x40 => some [(0x20, 1)]
  | 2, 0x41 => some [(0x20, 1), (0x28, 8), (0x30, 8)]
  | 2, 0x42 => some [(0x20, 1)]
  | 2, 0x43 => some [(0x20, 1)]
  | 2, 0x44 => some [(0x20, 1)]
  | 2, 0x45 => some [(0x20, 1)]
  | 2, 0x46 => some [(0x20, 1)]
  | 2, 0x47 => some [(0x20, 1)]
  | 2, 0x48 => some []
  | 2, 0x49 => some [(0x20, 1), (0x28, 8), (0x30, 8)]
  | 2, 0x4A => some [(0x20, 3)]
  | 2, 0x4B => some [(0x28, 8), (0x30, 8)]
  | 2, 0x4C => some [(0x20, 2)]
  | 2, 0x4D => some [(0x20, 2)]
  | 2, 0x4E => some []
  | _, _ => none

end Sys2Proof.Machine

namespace Sys2Proof
open Machine

/-- Offsets in `[a, b)` at which an item's byte is not 0. -/
def Item.nonzero (it : Item) (a b : Nat) : List Nat := (List.range' a (b - a)).filter (fun o => it.u o 1 ≠ 0)

/-- COUNT of a CORE item (R495). -/
def Item.cmdCount (it : Item) : Nat := it.u 0x1C 1 % 32

/-- Command `i` of a CORE item (R494). -/
def Item.cmd (it : Item) (i : Nat) : CmdWords :=
  let w (k : Nat) : Word := BitVec.ofNat 64 (it.u (0x20 + 32 * i + 8 * k) 8)
  ⟨w 0, w 1, w 2, w 3⟩

/-- Header bytes that break R493. -/
def Item.badHeader (it : Item) : List Nat :=
  let core := queueKind it.queue = 0 && it.op = 1
  let man := it.managed && decide (4 ≤ it.u 2 1)
  (if (bodyFields (queueKind it.queue) it.op).isNone then [0] else []) ++
  (if it.slots = 0 || 16 < it.slots then [1] else []) ++
  (if 16 ≤ it.u 2 1 || man then [2] else []) ++ it.nonzero 3 4 ++
  (if it.waitEn then (if 4 ≤ it.u 0xF 1 then [0xF] else []) else it.nonzero 8 0x10 ++ it.nonzero 0x18 0x1C) ++
  (if it.signalEn then (if 4 ≤ it.u 0x17 1 then [0x17] else []) else it.nonzero 0x10 0x18) ++
  (if core then
    (if it.cmdCount = 0 || 2 * it.slots - 1 < it.cmdCount || 32 ≤ it.u 0x1C 1 then [0x1C] else []) ++ it.nonzero 0x1D 0x20
   else it.nonzero 0x1C 0x20)

/-- Body bytes that an opcode does not define and that are not 0, and fields with a value that the layout does not allow
(R493, R498, R509). -/
def Item.badBody (it : Item) : List Nat :=
  let kind := queueKind it.queue
  let fields := if kind = 0 && it.op = 1 then [(0x20, 32 * it.cmdCount)] else (bodyFields kind it.op).getD []
  let copy := kind = 0 && (it.op = 2 || it.op = 3)
  let len := it.u 0x38 4
  let hk := it.u 0x2A 1
  (it.nonzero 0x20 (64 * it.slots)).filter (fun o => !fields.any (fun f => f.1 ≤ o && decide (o < f.1 + f.2))) ++
  (if copy && it.u 0x30 8 % 64 ≠ 0 then [0x30] else []) ++
  (if copy && (len % 64 ≠ 0 || len = 0 || 0x1000000 < len) then [0x38] else []) ++
  (if kind = 0 && it.op = 4 && hk ≠ 1 && hk ≠ 4 && hk ≠ 5 then [0x2A] else []) ++
  (if kind = 0 && it.op = 4 && hk ≠ 4 && it.u 0x38 8 ≠ 0 then [0x38] else []) ++
  (if kind = 2 && it.op = 0x41 && 2 ≤ it.u 0x20 1 then [0x20] else [])

/-- The lowest byte at which an item is malformed, if any. -/
def Item.malformed (it : Item) : Option Nat :=
  match it.badHeader ++ it.badBody with
  | [] => none
  | o :: t => some (t.foldl min o)

end Sys2Proof

namespace Sys2Proof.Machine

/-- What stands at the head of a ring: nothing that can be taken yet, slots whose read failed with the host address of the
failure, or a whole item. -/
inductive Head where
  | none
  | lost (slots addr : Nat)
  | item (it : Item)
deriving DecidableEq, Repr

/-- The host address of the slot that a count names (R492). -/
def State.slotAddr (st : State) (key n : Nat) : Nat := st.rn (qBase key) + n % st.qSize key * 64

/-- The head of a queue (R492, R507): an item is taken only when its slots lie within TAIL and have been read. -/
def State.qHeadItem (st : State) (key : Nat) : Head :=
  let h := st.qHeadN key
  let left := cnt32 (st.qTailN key) h
  let q := st.queue key
  let slot (n : Nat) : List Byte := tget [] q.slots n
  if left = 0 then .none
  else if q.failed.contains h then .lost 1 (st.slotAddr key h)
  else if slot h = [] then .none
  else
    let m := leAt (slot h) 1 1
    let m := if m = 0 || 16 < m then 1 else m
    let counts := (List.range m).map (fun i => (h + i) % 2 ^ 32)
    if left < m then .none
    else match counts.find? (fun n => q.failed.contains n) with
      | some n => .lost m (st.slotAddr key n)
      | none =>
        if counts.any (fun n => slot n = []) then .none
        else .item { queue := key, pos := h, epoch := st.qEpoch key, bytes := counts.flatMap slot }

/-- Whether a tally lies in a partition's blocks (R474). -/
def State.tallyOwned (st : State) (p t : Nat) : Bool := (st.part p).blocks.testBit (t / 32)

/-- The tally of an item that lies outside its partition's blocks, if any. -/
def State.foreignTally (st : State) (it : Item) : Option Nat :=
  if it.managed then none
  else if it.waitEn && !st.tallyOwned it.part it.waitTally then some it.waitTally
  else if it.signalEn && !st.tallyOwned it.part it.signalTally then some it.signalTally
  else none

/-- Register the wait of item `it` at the head of a queue, once (R501, R515). -/
def State.waitFor (st : State) (key : Nat) (it : Item) : State :=
  let q := st.queue key
  if it.waitEn && q.waitSince.isNone && it.malformed.isNone && (st.foreignTally it).isNone && !it.managed &&
      st.qEnabled key && !st.rb (qStatus key) 0 then
    let st := st.setQueue key { q with waitSince := some st.now }
    let u := st.waiterUnit key
    st.send u.1 { kind := 0x0E, part := key / 256, srcUnit := u.2, tag := key, dst := unitDst st.anchor 8,
                  a := it.waitTally, c := it.waitTarget }
  else st

/-- Register the wait of a queue's oldest unstarted item when it can be read (R501). -/
def State.waitAt (st : State) (key : Nat) : Head → State
  | .item it => st.waitFor key it
  | _ => st

def State.headWait (st : State) (key : Nat) : State := st.waitAt key (st.qHeadItem key)

/-- Take `m` slots from the head of a queue (R492); the next item becomes the oldest. -/
def State.consume (st : State) (key m : Nat) : State :=
  let h := st.qHeadN key
  let h' := (h + m) % 2 ^ 32
  let st := st.wf (qHead key) 31 0 h'
  let q := st.queue key
  let past (n : Nat) : Bool := decide (2 ^ 31 ≤ cnt32 n h')
  let st := st.setQueue key { q with
    slots := q.slots.filter (fun e => !past e.1), failed := q.failed.filter (fun n => !past n),
    orders := q.orders.filter (fun e => !(past e.1 || e.1 = h')), waitSince := none, wake := none, expired := none }
  st.headWait key

end Sys2Proof.Machine
end

