-- ==== Sys2Proof/Machine/Items.lean ====
section
/-! DEFINITION. Items that have been started (R452, R501-R504): their completion status, the completion records with
their rings, the signal and vector that follow a record, and the abandonment of items by faults and take-downs (R294,
R295, R483). -/

namespace Sys2Proof.Machine

/-! ## Started items -/

def State.item (st : State) (num : Nat) : Option Started := st.host.started.find? (fun x => x.num = num)

def State.modItem (st : State) (num : Nat) (f : Started → Started) : State :=
  { st with host := { st.host with started := st.host.started.map (fun x => if x.num = num then f x else x) } }

/-- Give a started item its completion status, unless it has one. -/
def State.endItem (st : State) (num status cmdStatus detail : Nat) : State :=
  let n := st.host.nextEnd
  let st := { st with host := { st.host with nextEnd := n + 1 } }
  st.modItem num (fun x => if x.status.isSome then x
    else { x with status := some status, cmdStatus := cmdStatus, detail := detail, ended := n })

/-- Items that a slot serves and that have no status yet. -/
def State.slotItems (st : State) (fn s : Nat) : List Started :=
  st.host.started.filter (fun x => x.fn = fn && x.slot = s && x.status.isNone)

/-- The effect of an item's own command, once: on the started item that the command names, with its opcode, when `ok` says
that its server can carry it out now. -/
def State.onItemIf (st : State) (it : Item) (op : Nat) (ok : Started → Bool) (f : Started → State → State) : Out1 :=
  match st.host.started.find? (fun x => x.item = it && !x.acted && x.status.isNone && it.op = op) with
  | none => .next st
  | some x => .next (if ok x then f x (st.modItem x.num (fun y => { y with acted := true })) else st)

/-- The effect of an item's own command, once. -/
def State.onItem (st : State) (it : Item) (op : Nat) (f : Started → State → State) : Out1 :=
  st.onItemIf it op (fun _ => true) f

/-- The partition that a partition command names: byte 0x20 of a management item, the queue's own otherwise (R499, R509). -/
def targetPart (it : Item) : Nat := if it.managed then it.u 0x20 1 else it.part

/-- End every item of a slot with a status (R294, R295, R483). -/
def State.abandonSlot (st : State) (fn s status : Nat) : State :=
  (st.slotItems fn s).foldl (fun st x => st.endItem x.num status 0 0) st

/-- FLD_TELLER_STATUSt.ITEMS: the items whose commands are in the core. -/
def State.tellerItems (st : State) (fn s : Nat) : State :=
  st.wf (Reg.FLD_TELLER_STATUS fn s) 47 40 ((st.slotItems fn s).filter (fun x => !x.cmds.isEmpty)).length

/-- Start an item: it takes the next start number, and the queue's HEAD moves past it (R492). -/
def State.startItem (st : State) (it : Item) (fn s : Nat) : Nat × State :=
  let num := st.host.nextNum
  (num, { st with host := { st.host with
    nextNum := num + 1, started := st.host.started ++ [{ num := num, item := it, fn := fn, slot := s }] } })

/-! ## Contexts and completion rings (R503, R504) -/

/-- The context of a queue: `p * 64 + c`, or `4096 + m` for a management queue, which has its own ring (R509). -/
def State.ctxOf (st : State) (queue : Nat) : Nat :=
  if 4096 ≤ queue then queue else queue / 256 * 64 + st.rf (qCfg queue) 21 16

def cqBase (c : Nat) : Nat := if 4096 ≤ c then Reg.QUE_M_CQ_BASE (c - 4096) else Reg.QUE_CTX_CQ_BASE (c / 64) (c % 64)
def cqTail (c : Nat) : Nat := if 4096 ≤ c then Reg.QUE_M_CQ_TAIL (c - 4096) else Reg.QUE_CTX_CQ_TAIL (c / 64) (c % 64)
def cqHead (c : Nat) : Nat := if 4096 ≤ c then Reg.QUE_M_CQ_HEAD (c - 4096) else Reg.QUE_CTX_CQ_HEAD (c / 64) (c % 64)
def cqFunc (c : Nat) : Nat := if 4096 ≤ c then 0 else c / 64 + 1

def State.cqEnabled (st : State) (c : Nat) : Bool :=
  if 4096 ≤ c then st.rb (Reg.QUE_M_CQ_CFG (c - 4096)) 31 else st.rb (Reg.QUE_CTX_CFG (c / 64) (c % 64)) 31

def State.cqSize (st : State) (c : Nat) : Nat :=
  2 ^ min 16 (if 4096 ≤ c then st.rf (Reg.QUE_M_CQ_CFG (c - 4096)) 4 0 else st.rf (Reg.QUE_CTX_CFG (c / 64) (c % 64)) 20 16)

def State.cqVector (st : State) (c : Nat) : Nat :=
  if 4096 ≤ c then st.rf (Reg.QUE_M_CQ_CFG (c - 4096)) 21 16 else st.rf (Reg.QUE_CTX_CFG (c / 64) (c % 64)) 11 8

/-- Whether the completion ring has space for one more record (R503). -/
def State.cqSpace (st : State) (c : Nat) : Bool :=
  decide (cnt32 (st.rf (cqTail c) 31 0) (st.rf (cqHead c) 31 0) < st.cqSize c)

/-- The completion record of an item (R503) but for PHASE. -/
def Started.record (x : Started) (time : Nat) : List Byte :=
  leBytes 4 x.item.tag ++ leBytes 1 (x.item.queue % 256) ++ leBytes 1 x.item.op ++ leBytes 1 (x.status.getD 0) ++
    leBytes 1 x.cmdStatus ++ leBytes 4 x.item.pos ++ leBytes 2 x.item.epoch ++ leBytes 2 0 ++ leBytes 8 time ++
    leBytes 8 x.detail

/-- Write one record into a completion ring that has space, with its PHASE (R503). -/
def State.cqPut (st : State) (c : Nat) (bytes : List Byte) : State :=
  let n := st.rf (cqTail c) 31 0
  let size := st.cqSize c
  let bytes := bytes.set 0xE (BitVec.ofNat 8 ((n / size + 1) % 2))
  (st.dmaWrite (cqFunc c) (st.rn (cqBase c) + n % size * 32) bytes false).wf (cqTail c) 31 0 (n + 1)

/-- The field and unit that signal at an item's completion: the serving slot, or the bursar's field. -/
def State.itemUnit (st : State) (x : Started) : Nat × Nat := if x.fn < 100 then (x.fn, x.slot) else (st.anchor, 4)

/-- What follows an item's record (R502): the tally signal of an item that is DONE, then the vector; then its context's
count, and the STOP policy (R504). -/
def State.afterRecord (st : State) (x : Started) (c : Nat) : State :=
  let status := x.status.getD 0
  let st := { st with host := { st.host with started := st.host.started.filter (fun y => y.num ≠ x.num) } }
  let st := if x.item.signalEn && status = 0 && c < 4096 then
      let u := st.itemUnit x
      let tag := st.mesh.nextTag
      let st := st.track { holder := coreHolder u.1 u.2, grant := 64, tag := tag, units := 0, time := st.now, dst := 0,
                           job := .item x.num }
      st.send u.1 { kind := 0x0C, part := c / 64, srcUnit := u.2, tag := tag, dst := unitDst st.anchor 8,
                    a := x.item.signalTally, b := x.item.signalValue }
    else st
  let st := if x.item.event then st.msix (cqFunc c) (st.cqVector c) else st
  if 4096 ≤ c then st
  else
    let p := c / 64
    let i := c % 64
    let st := st.add (Reg.QUE_CTX_DONE p i) 63 0 1
    if status ≠ 0 && st.rb (Reg.QUE_CTX_CFG p i) 0 && st.rf (Reg.QUE_CTX_STATE p i) 1 0 = 1 then
      let e := Reg.QUE_CTX_ERR p i
      let st := ((st.wf e 63 32 x.item.tag).wf e 31 24 (x.item.queue % 256)).wf e 23 16 status
      let st := st.wf (Reg.QUE_CTX_STATE p i) 1 0 2
      st.notice 0x2E p 0xFF 0xFF 0xFF i (st.rn e)
    else st

/-- Complete an item that has its status (R502): its record is written now, waits for space in its ring or for a function
that may write (R434), or is discarded and counted where the context is no longer enabled (R441, R519). -/
def State.completeItem (st : State) (x : Started) : State :=
  let c := st.ctxOf x.item.queue
  let gone := { st with host := { st.host with started := st.host.started.filter (fun y => y.num ≠ x.num) } }
  if !st.cqEnabled c then
    if 4096 ≤ c then gone.add Reg.PF0_QUE_PART_LOST 63 0 1 else gone.add (Reg.QUE_PART_LOST (c / 64)) 63 0 1
  else if st.host.waiting.any (fun w => w.num = x.num) then st
  else if st.cqSpace c && st.canDma (cqFunc c) && !st.host.waiting.any (fun w => w.ctx = c) then
    (st.cqPut c (x.record st.now)).afterRecord x c
  else
    let full := !st.cqSpace c
    let st := { st with host := { st.host with
      waiting := st.host.waiting ++ [{ ctx := c, bytes := x.record st.now, num := x.num }] } }
    if 4096 ≤ c || !full then st else st.addSat (Reg.QUE_CTX_ERR (c / 64) (c % 64)) 15 0 1

/-- Write the records that wait for space in a completion ring, oldest first, while it has space (R503). -/
def State.drainWaiting (st : State) (c : Nat) : Nat → State
  | 0 => st
  | fuel + 1 =>
    match st.host.waiting.find? (fun w => w.ctx = c) with
    | none => st
    | some w =>
      if st.cqSpace c && st.cqEnabled c && st.canDma (cqFunc c) then
        let st := { st with host := { st.host with waiting := st.host.waiting.filter (fun y => y.num ≠ w.num) } }
        let st := st.cqPut c w.bytes
        let st := match st.item w.num with
          | some x => st.afterRecord x c
          | none => st
        State.drainWaiting st c fuel
      else st

/-- Whether an item's completion record is written next: management commands complete in queue order, the items of a core
slot in the order in which their last commands retired. -/
def State.completeNext (st : State) (x : Started) : Bool :=
  let waits (y : Started) : Bool := st.host.waiting.any (fun w => w.num = y.num)
  x.status.isSome && !waits x &&
    (if x.item.managed then !st.host.started.any (fun y => y.item.queue = x.item.queue && y.num < x.num && !waits y)
     else if x.fn < 100 then !st.host.started.any (fun y =>
        y.fn = x.fn && y.slot = x.slot && y.status.isSome && y.ended < x.ended && !waits y)
     else true)

/-- Close the copy window of a COPY_OUT item and take back its grant (R496). -/
def State.copyClose (st : State) (x : Started) : State :=
  match x.copyWin with
  | none => st
  | some w =>
    let p := x.item.part
    let h := coreHolder x.fn x.slot
    let y := st.part p
    let st := st.setPart p { y with copyWins := y.copyWins.filter (fun e => e.1 ≠ w) }
    let gs := (List.range 64).filter (fun g =>
      let gr := st.grantOf h g
      gr.state ≠ 0 && addrFn gr.base = 0xE0 + p && gr.window = w && gr.ownerSlot = 5)
    gs.foldl (fun st g => st.setGrant h g {}) st

/-- Post the records of the work items of partition `p` that have their status, in the order in which a core slot completes
them (R452, R508). -/
def State.postItems (st : State) (p : Nat) : Nat → State
  | 0 => st
  | fuel + 1 =>
    match st.host.started.find? (fun x => !x.item.managed && x.item.part = p && x.fn < 100 && st.completeNext x) with
    | none => st
    | some x => State.postItems ((st.copyClose x).completeItem x) p fuel

/-- Discard the records that wait for a context that is no longer enabled (R441, R519). -/
def State.dropWaiting (st : State) (c : Nat) : State :=
  let gone := st.host.waiting.filter (fun w => w.ctx = c)
  let st := { st with host := { st.host with
    waiting := st.host.waiting.filter (fun w => w.ctx ≠ c),
    started := st.host.started.filter (fun x => !gone.any (fun w => w.num = x.num)) } }
  if 4096 ≤ c then st.add Reg.PF0_QUE_PART_LOST 63 0 gone.length
  else st.add (Reg.QUE_PART_LOST (c / 64)) 63 0 gone.length

end Sys2Proof.Machine
end

