-- ==== Sys2Proof/Machine/HostDma.lean ====
section
/-! DEFINITION. The endpoint's reads of host memory (R434-R436): the FETCH items that it carries out (R497), and what is
asked for again when a tag, a function or scrip becomes free. -/

namespace Sys2Proof.Machine

/-! ## FETCH (R497) -/

def Item.fetchLen (it : Item) : Nat := it.u 0x38 4
def Item.fetchDst (it : Item) : Nat := it.u 0x28 8
def Item.fetchAddr (it : Item) : Nat := it.u 0x30 8

/-- Whether a read or a deposit of a FETCH item is outstanding. -/
def State.fetchOut (st : State) (num : Nat) : Bool :=
  st.host.reads.any (fun r => match r.what with
    | .fetch n _ _ => n = num
    | _ => false) ||
  st.mesh.sent.any (fun s => match s.job with
    | .fetch n => n = num
    | _ => false)

/-- Fail a FETCH item: nothing more of it is read or sent; its first failure stands. -/
def State.fetchFail (st : State) (num status detail : Nat) : State :=
  st.modItem num (fun y => { y with buf := [], fail := y.fail.or (some (status, detail)) })

/-- End a FETCH item once every deposit has been answered, or once it has failed and nothing of it is outstanding. -/
def State.fetchSettle (st : State) (num : Nat) : State :=
  match st.item num with
  | none => st
  | some x =>
    if st.fetchOut num then st
    else match x.fail with
      | some (s, d) => st.endItem num s 0 d
      | none => if Item.fetchLen x.item ≤ x.answered then st.endItem num 0 0 0 else st

/-- Ask the host for the bytes of a FETCH item not yet asked for: requests of at most Max Read Request Size within a 4 KiB
page, while tags are free and the function may issue requests (R419, R434, R435). -/
def State.fetchAsk (st : State) (num : Nat) : Nat → State
  | 0 => st
  | fuel + 1 =>
    match st.item num with
    | none => st
    | some x =>
      let f := x.item.part + 1
      let len := Item.fetchLen x.item
      if x.fail.isSome || len ≤ x.asked || !st.canDma f || !st.mayRead f then st
      else
        let a := Item.fetchAddr x.item + x.asked
        let n := max 1 (min (len - x.asked) (min (st.func f).mrrs (4096 - a % 4096)))
        let st := st.dmaRead f a n (.fetch num x.asked n)
        State.fetchAsk (st.modItem num (fun y => { y with asked := y.asked + n })) num fuel

/-- Deposit what a FETCH item has read, in messages of at most 2,048 bytes, while the grant has scrip (R383, R497). A grant
that is not VALID or does not hold the whole range refuses the item, with a DETAIL that the spec does not give (log 1). -/
def State.fetchSend (st : State) (num : Nat) : Nat → State
  | 0 => st
  | fuel + 1 =>
    match st.item num with
    | none => st
    | some x =>
      match x.buf with
      | [] => st
      | (o, bs) :: rest =>
        let h := vfHolder (x.item.part + 1)
        let g := x.item.u 0x20 1
        let gr := st.grantOf h g
        let n := min bs.length (min 2048 (64 * gr.total))
        if gr.scrip * 64 < n || n = 0 then st
        else
          let left := if bs.length ≤ n then rest else (o + n, bs.drop n) :: rest
          let st := st.modItem num (fun y => { y with buf := left })
          let st := st.sendDeposit st.anchor 5 x.item.part h g (Item.fetchDst x.item + o) (bs.take n) (.fetch num)
          State.fetchSend st num fuel

/-- Whether the grant of a FETCH item serves it: VALID, over the whole range, with a destination that deposits may have. -/
def State.fetchGrantOk (st : State) (x : Started) : Bool :=
  let g := x.item.u 0x20 1
  let gr := st.grantOf (vfHolder (x.item.part + 1)) g
  decide (g < 64) && gr.state = 1 && Item.fetchDst x.item % 64 = 0 &&
    inRange gr.base gr.size (Item.fetchDst x.item) (Item.fetchLen x.item)

/-- Carry a FETCH item on as far as its grant and its data let it go. -/
def State.fetchMove (st : State) (num : Nat) : State :=
  match st.item num with
  | none => st
  | some x =>
    if !x.acted || x.status.isSome || x.item.op ≠ 3 then st
    else
      let st := if x.fail.isSome || st.fetchGrantOk x then st
        else
          let d := st.draw
          d.2.fetchFail num 0xC d.1.toNat
      (st.fetchSend num 8192).fetchSettle num

/-! ## The DMA engine (R435) -/

/-- The next request of function `f`: for its rings first, then for its FETCH items. -/
def State.dmaOne (st : State) (f : Nat) : State :=
  match st.host.queues.find? (fun e => qFunc e.1 = f && st.wantsSlots e.1) with
  | some e => st.pump e.1 1
  | none =>
    match st.host.started.find? (fun x => x.item.part + 1 = f && st.wantsBytes x) with
    | some x => st.fetchAsk x.num 1
    | none => st

/-- Whether function `f` has a request that it may issue now. -/
def State.dmaWants (st : State) (f : Nat) : Bool :=
  st.mayRead f && (st.host.queues.any (fun e => qFunc e.1 = f && st.wantsSlots e.1) ||
    st.host.started.any (fun x => x.item.part + 1 = f && st.wantsBytes x))

/-- One unit of 4 KiB of function `f`. -/
def State.dmaUnit (st : State) (f : Nat) : Nat → State
  | 0 => st
  | n + 1 => State.dmaUnit (st.dmaOne f) f n

/-- The functions with pending work ask in turn, 4 KiB each, after the one served last (R435). -/
def State.dmaRounds (st : State) : Nat → State
  | 0 => st
  | fuel + 1 =>
    match ((List.range 17).map (fun i => (st.host.lastFn + 1 + i) % 17)).find? (fun f => st.dmaWants f) with
    | none => st
    | some f => State.dmaRounds (st.dmaUnit f (max 1 (4096 / max 1 (st.func f).mrrs))) fuel

/-- Carry a FETCH item on as far as it can go now, and ask for what is still needed. -/
def State.fetchPump (st : State) (num : Nat) : State := (st.fetchMove num).dmaRounds 768

/-- A deposit of a FETCH item has been answered: its bytes count, or its reason fails the item. -/
def State.fetchAnswer (st : State) (num units : Nat) (res : Option Nat) : State :=
  let st := st.modItem num (fun y => { y with answered := y.answered + 64 * units })
  let st := match res with
    | some r => st.fetchFail num 0xC r
    | none => st
  st.fetchPump num

/-! ## VF BAR2 (R428) -/

/-- The granule list of VF `n`: the granules of its partition, as fn * 12 + g, ascending. -/
def State.granuleList (st : State) (n : Nat) : List Nat :=
  (st.brs.carve.filter (fun e => st.owner (e.1 / 12) = n - 1)).map (·.1)

/-! ## What may go on -/

/-- Every FETCH item goes on as far as it can, and every queue and FETCH item of the module asks for what it still needs. -/
def State.dmaPump (st : State) : State :=
  (st.host.started.foldl (fun (st : State) (x : Started) =>
    if x.item.op = 3 && !x.item.managed then st.fetchMove x.num else st) st).dmaRounds 768

/-- Every completion ring of a function writes the records that wait for it (R503, R434). -/
def State.drainFunc (st : State) (f : Nat) : State :=
  let cs := (st.host.waiting.filter (fun w => cqFunc w.ctx = f)).map (·.ctx)
  cs.foldl (fun (st : State) (c : Nat) => st.drainWaiting c 65536) st

/-- A read of host memory has delivered bytes (R436): ring slots enter their queue, FETCH data its buffer. -/
def State.readData (st : State) (r : DmaRead) (bs : List Byte) : State :=
  let st := if r.what = .void then st else st.add Reg.HST_DMA_RD 63 0 bs.length
  match r.what with
  | .void => st
  | .ring key count _ =>
    let q := st.queue key
    let slots := (List.range (bs.length / 64)).foldl (fun (t : List (Nat × List Byte)) i =>
      tput [] t ((count + i) % 2 ^ 32) (bytesAt bs (64 * i) 64)) q.slots
    (st.setQueue key { q with slots := slots }).headWait key
  | .fetch num o _ =>
    let st := st.modItem num (fun y => if y.fail.isSome then y else { y with buf := tput [] y.buf o bs })
    st.fetchPump num

/-- A read of host memory has failed: the ring slots it was to deliver are lost, or the FETCH item ends with DMA and the
host address (R436, R503). -/
def State.readFailed (st : State) (r : DmaRead) : State :=
  match r.what with
  | .void => st
  | .ring key count n =>
    let q := st.queue key
    st.setQueue key { q with failed := q.failed ++ (List.range n).map (fun i => (count + i) % 2 ^ 32) }
  | .fetch num _ _ => (st.fetchFail num 8 r.addr).fetchPump num

end Sys2Proof.Machine
end

