-- ==== Sys2Proof/Machine/Ports.lean ====
section
/-! DEFINITION. What Kevenlink ports and sensor ports do for other families: opening a window (R380, R381), frames and
control units of a link with its retry and credits (R398-R409), taking a link down (R412, R413), and the outputs, records,
flush and stop of a sensor port (R556-R567). -/

namespace Sys2Proof.Machine

/-! ## Opening a window (R380, R381) -/

/-- Open window `w` of a slot or of a sensor port's output route: an OPEN one of the same index is closed first; two
leases are recorded; GEN advances; a GRANT goes to the holder. `false` when the lease table has no two free entries. -/
def State.openWindow (st : State) (fn slot w base size scrip mode hkind holder peerDst : Nat) : State × Bool :=
  let k := ownerKey fn slot
  let p := st.owner fn
  let st := if (st.window k w).state = 1 then
      let st := st.closeWindow fn slot w
      st.releaseWindow k w
    else st
  let res := fn * 65536 + slot * 256 + w
  let a := st.grantLease 3 p hkind holder res
  match a.1 with
  | none => (st, false)
  | some l =>
    let b := a.2.grantLease 1 p hkind holder res
    match b.1 with
    | none => (st, false)
    | some l2 =>
      let st2 := b.2
      let old := st2.window k w
      let clash := (List.range 64).any (fun i =>
        let y := st2.window k i
        i ≠ w && y.state = 1 && rangesMeet y.base y.size base size)
      let st := st2.setWindow k w
        { base := base, size := size, scrip := scrip, mode := mode, state := 1, gen := (old.gen + 1) % 65536,
          hkind := hkind, holder := holder, lease := l, poolLease := l2, peerDst := peerDst }
      let st := if clash && slot < 4 then st.setb (Reg.MSH_WIN_STATUS fn slot) 63 else st
      let u := st.holderUnit hkind holder
      let tag := st.mesh.nextTag
      let st := st.track { holder := 5000, grant := 64, tag := tag, units := 0, time := st.now, dst := 0, job := .opened k w }
      (st.send fn { kind := 4, part := p, srcUnit := if slot < 4 then slot else 7, tag := tag, dst := unitDst u.1 u.2,
                    window := w, wgen := (old.gen + 1) % 65536, a := base, b := size, c := scrip, d := mode }, true)

/-! ## Kevenlink: registers and states (R390, R396) -/

def State.kvlPort (st : State) (p : Nat) : KvlSt := tget {} st.kvl p
def State.setKvl (st : State) (p : Nat) (x : KvlSt) : State := { st with kvl := tput {} st.kvl p x }

/-- The partition that owns a Kevenlink port in the active build, or 0xFF (R472, R477). -/
def State.kvlOwner (st : State) (p : Nat) : Nat :=
  if st.brs.kvlOwned.any (fun e => e.1 = p) then st.owner (Config.kvlField p) else 0xFF

/-- Whether a port may carry traffic: owned, its field FULL, its partition ON (R390). -/
def State.kvlAllowed (st : State) (p : Nat) : Bool :=
  p < 8 && st.kvlOwner p < 16 && st.isFull (Config.kvlField p) && st.partState (st.kvlOwner p) == 2

/-- Enter a state of R396; KVL_STATUS and KVL_DOWN_TIME are written together (R417). -/
def State.kvlEnter (st : State) (p s : Nat) : State :=
  (st.setKvl p { st.kvlPort p with since := st.now }).wf (Reg.KVL_STATUS (Config.kvlField p)) 2 0 s

/-- Credits available per class (R404): the peer's IDENT credits plus its FREED count minus the credits taken. -/
def KvlSt.ctrlLeft (x : KvlSt) : Nat := x.peerCtrl + x.freedCtrl - x.takenCtrl
def KvlSt.dataLeft (x : KvlSt) : Nat := x.peerData + x.freedData - x.takenData

/-- Replace a port's state; KVL_CREDIT follows. -/
def State.putKvl (st : State) (p : Nat) (x : KvlSt) : State :=
  (st.setKvl p x).wn (Reg.KVL_CREDIT (Config.kvlField p)) (x.dataLeft * 2 ^ 32 + x.ctrlLeft)

/-- Send a control unit (R399). -/
def State.kvlUnit (st : State) (p kind arg : Nat) : State := st.emit (.kvlUnit p kind arg)

/-- Credits that a frame costs: 1 CTRL credit, or 1 + LEN DATA credits (R404). -/
def msgCredits (m : Msg) : Nat := if m.kind = 1 then 1 + m.len else 1

/-- Bytes of a frame: 3 units, or 3 + 2 LEN, of 32 bytes (R400). -/
def msgBytes (m : Msg) : Nat := 32 * (3 + 2 * m.len)

/-! ## Kevenlink: sending (R401, R402, R404) -/

/-- The message header on the wire (R401): the fields that a kind does not use are 0. -/
def wireForm (m : Msg) : Msg :=
  let win := m.kind = 1 || m.kind = 4 || m.kind = 5 || m.kind = 6
  let ab := m.kind = 4 || m.kind = 0x0C
  { kind := m.kind, len := if m.kind = 1 then m.len else 0, srcUnit := 6, tag := m.tag,
    dst := if m.kind = 1 || m.kind = 4 then m.dst else 0, window := if win then m.window else 0,
    wgen := if win then m.wgen else 0, status := if m.kind = 3 || m.kind = 0x0D then m.status else 0,
    units := m.units, a := if ab then m.a else 0, b := if ab then m.b else 0, c := if m.kind = 4 then m.c else 0,
    d := if m.kind = 4 then m.d else 0, data := if m.kind = 1 then m.data else [], poison := m.kind = 1 && m.poison }

/-- Send a frame for the first time: it takes its credits, the next SEQ and a place in the replay buffer. -/
def State.kvlSend (st : State) (p : Nat) (m : Msg) : State :=
  let x := st.kvlPort p
  let wire := wireForm m
  let f : KvlFrame := { seq := x.txSeq, msg := wire }
  let x := { x with
    txSeq := (x.txSeq + 1) % 4096, lackAdv := if x.replay.isEmpty then st.now else x.lackAdv,
    replay := x.replay ++ [f], takenCtrl := if m.kind = 1 then x.takenCtrl else x.takenCtrl + 1,
    takenData := if m.kind = 1 then x.takenData + msgCredits m else x.takenData }
  let st := (st.putKvl p x).emit (.kvlFrame p f.seq wire)
  st.wf (Reg.KVL_FRAMES (Config.kvlField p)) 31 0 (st.rf (Reg.KVL_FRAMES (Config.kvlField p)) 31 0 + 1)

/-- Whether a frame may be sent now: ACTIVE, credits for its class, fewer than 2,048 frames unacknowledged, and room in
the replay buffer of 128 KiB. -/
def State.kvlReady (st : State) (p : Nat) (m : Msg) : Bool :=
  let x := st.kvlPort p
  st.kvlState p = 5 && decide (x.replay.length < 2048) &&
    decide ((x.replay.map (fun f => msgBytes f.msg)).sum + msgBytes m ≤ 131072) &&
    (if m.kind = 1 then decide (msgCredits m ≤ x.dataLeft) else decide (1 ≤ x.ctrlLeft))

/-- Send what waits, in order within each class, while it may be sent. -/
def State.kvlPump (st : State) (p : Nat) : Nat → State
  | 0 => st
  | fuel + 1 =>
    let q := (st.kvlPort p).outq
    let head (data : Bool) : Option Msg := (q.find? (fun m => (m.kind = 1) = data)).filter (fun m => st.kvlReady p m)
    match (head false).or (head true) with
    | none => st
    | some m =>
      let st := st.setKvl p { st.kvlPort p with outq := q.erase m }
      State.kvlPump (st.kvlSend p m) p fuel

/-- Hand a message to a port for the peer. -/
def State.kvlQueue (st : State) (p : Nat) (m : Msg) : State :=
  (st.setKvl p { st.kvlPort p with outq := (st.kvlPort p).outq ++ [m] }).kvlPump p 64

/-- The lowest free index of an outbound tag table (R407, R409). -/
def State.kvlFreeTag (st : State) (p : Nat) : Option Nat :=
  (List.range 1024).find? (fun i => !(st.kvlPort p).outTags.any (fun t => t.idx = i))

def State.kvlAddTag (st : State) (p : Nat) (t : KvlTag) : State :=
  st.setKvl p { st.kvlPort p with outTags := (st.kvlPort p).outTags ++ [t] }

/-- A remote-grant slot; KVL_RGRANTr shows it (R417). -/
def State.rgrant (st : State) (p r : Nat) : RGrant := tget {} (st.kvlPort p).rgrants r
def State.setRgrant (st : State) (p r : Nat) (g : RGrant) : State :=
  st.setKvl p { st.kvlPort p with rgrants := tput {} (st.kvlPort p).rgrants r g }

/-- Answer a deposit that a port does not take. -/
def State.nakTo (st : State) (fn unit : Nat) (m : Msg) (status : Nat) : State :=
  st.send fn { kind := 3, part := m.part, srcUnit := unit, tag := m.tag, dst := unitDst m.srcFn m.srcUnit,
               window := m.window, wgen := m.wgen, status := status, units := m.len }

/-- Send a LACK (R399, R403). -/
def State.kvlLack (st : State) (p : Nat) : State :=
  let x := st.kvlPort p
  (st.setKvl p { x with sinceLack := 0, lackAt := st.now }).kvlUnit p 1
    (if x.rxAny then (x.rxNext + 4095) % 4096 else 0xFFFF)

/-- Send LNAK(NEXT) (R403). -/
def State.kvlLnak (st : State) (p : Nat) : State :=
  let x := st.kvlPort p
  (st.setKvl p { x with lnakAt := some st.now, discard := true }).kvlUnit p 2 x.rxNext

/-- Count a discarded frame (KVL_RETRY), and ask for it again unless an LNAK is outstanding (R403). -/
def State.kvlDiscard (st : State) (p : Nat) : State :=
  let st := st.addSat (Reg.KVL_RETRY (Config.kvlField p)) 63 32 1
  if (st.kvlPort p).lnakAt.isSome then st else st.kvlLnak p

/-- Free receive credits and send CREDIT (R404). -/
def State.kvlFree (st : State) (p : Nat) (m : Msg) : State :=
  let x := st.kvlPort p
  let x := if m.kind = 1 then { x with myData := (x.myData + msgCredits m) % 2 ^ 32 }
    else { x with myCtrl := (x.myCtrl + 1) % 2 ^ 32 }
  (st.setKvl p x).kvlUnit p 3 (x.myCtrl + x.myData * 2 ^ 32)

/-- Count a refusal of R410. -/
def State.kvlRefused (st : State) (p : Nat) : State :=
  let fn := Config.kvlField p
  (st.addSat (Reg.KVL_ERRORS fn) 63 48 1).setb (Reg.KVL_EVENT fn) 3

/-- Free a remote-grant slot whose close is complete: nothing in flight (R407). -/
def State.rgrantSettle (st : State) (p r : Nat) : State :=
  let g := st.rgrant p r
  if g.state = 2 && g.inflight = 0 then st.setRgrant p r {} else st

/-! ## Kevenlink: the link goes down (R412, R413) -/

/-- Tell the holder of a remote-grant slot that its grant is closed. -/
def State.rgrantClose (st : State) (p r : Nat) : State :=
  let g := st.rgrant p r
  st.send (Config.kvlField p) { kind := 5, part := st.kvlOwner p, srcUnit := 6, dst := unitDst g.holderFn g.holderSlot,
                                window := r, wgen := g.wgen }

/-- Whether a tracked message is a peer's, relayed by port `p` and to be answered; one from before a link reset, whose answer
is dropped, has no peer's tag (R413). -/
def Sent.relayOf (p : Nat) (x : Sent) : Bool :=
  match x.job with
  | .relay q t => q = p && decide (t < 65536)
  | _ => false

/-- The messages of a peer that the port has passed into the mesh and that are not yet answered: its inbound tag table
(R409). -/
def State.relays (st : State) (p : Nat) : Nat := (st.mesh.sent.filter (fun s => s.relayOf p)).length

/-- Put a message of the peer into the mesh under a tag of the port (R407, R408); its answer goes back with the peer's tag. A
deposit is a use of the leases of its window, and a signal of the lease of its tally block, until it is answered (R304, R411). -/
def State.kvlInject (st : State) (p : Nat) (m : Msg) : State :=
  let tag := st.mesh.nextTag
  let use : Grant := if m.kind = 1 then
    st.windowUse { m with srcFn := Config.kvlField p, srcUnit := 6, part := st.kvlOwner p } else {}
  let st := st.track { holder := 5000, grant := 64 + if m.kind = 0x0C then m.a / 32 else 0, tag := tag, units := m.units,
                       time := st.now, dst := m.dst, job := .relay p m.tag, use := use }
  let st := (st.grantLeases use).foldl (fun st i => st.leaseUse i true) st
  let st := if m.kind = 0x0C then (st.blockLeases p (m.a / 32)).foldl (fun st i => st.leaseUse i true) st else st
  st.send (Config.kvlField p) { m with part := st.kvlOwner p, srcUnit := 6, tag := tag }

/-- Pass an accepted deposit on (R408), or refuse one that names a field outside the port's partition (R410); its credits
are freed (R404). -/
def State.kvlPassData (st : State) (p : Nat) (m : Msg) : State :=
  let st := st.kvlFree p m
  if st.kvlOwner p < 16 && st.owner (addrFn m.dst) = st.kvlOwner p then st.kvlInject p m
  else (st.kvlRefused p).kvlQueue p { kind := 3, tag := m.tag, status := 7, units := m.len }

/-- Pass the deposits that wait for a place in the inbound tag table (R409). -/
def State.kvlUnhold (st : State) (p : Nat) : Nat → State
  | 0 => st
  | fuel + 1 =>
    let x := st.kvlPort p
    match x.held with
    | [] => st
    | m :: t =>
      if 1024 ≤ st.relays p then st
      else State.kvlUnhold ((st.setKvl p { x with held := t }).kvlPassData p m) p fuel

/-- Take an ACTIVE link down for a cause: RESET, everything in transfer discarded, outbound messages answered with NAK
STATUS 6, remote grants closed, the peer's leases quarantined, PEER_LOST recorded. -/
def State.kvlDown (st : State) (p cause : Nat) : State :=
  let fn := Config.kvlField p
  if st.kvlState p ≠ 5 then st
  else
    let x := st.kvlPort p
    let r := Reg.KVL_STATUS fn
    let st := ((st.wf r 31 28 cause).add r 47 32 1).wn (Reg.KVL_DOWN_TIME fn) st.now
    let st := (st.setb (Reg.KVL_EVENT fn) 1).kvlUnit p 5 cause
    let st := (x.outTags.filter (fun t => t.kind ≠ 4)).foldl (fun st t =>
      st.send fn { kind := 3, part := st.kvlOwner p, srcUnit := 6, tag := t.tag, dst := unitDst t.fn t.unit,
                   window := if t.slot < 64 then t.slot else 0, status := 6, units := t.units }) st
    let st := (x.rgrants.filter (fun e => e.2.state ≠ 0)).foldl (fun st e => st.rgrantClose p e.1) st
    let st := st.putKvl p { since := st.now }
    /- answers of inbound messages still in the mesh are dropped (step 3) -/
    let st := { st with mesh := { st.mesh with
      sent := st.mesh.sent.map (fun (s : Sent) => if s.relayOf p then { s with job := .relay p 65536 } else s) } }
    let st := st.wf r 2 0 6
    let st := st.quarantineAll 0 (fun l => l.hkind = 4 && l.holder = p)
    let st := st.fault 0x19 0 (st.kvlOwner p) fn 0xFF p p 0
    st.notice 0x2D (st.kvlOwner p) fn 0xFF p p 0

/-- Bring a link to DISABLED from any state: cause 7 from ACTIVE, silently while training (R390, R413). -/
def State.kvlLeave (st : State) (p : Nat) : State :=
  if st.kvlState p = 5 then st.kvlDown p 7
  else if st.kvlState p = 6 then st
  else st.kvlEnter p 0

/-! ## Sensor ports: layout (R547, R548, R552, R559) -/

def State.snpPort (st : State) (n : Nat) : SnpSt := tget {} st.snp n
def State.setSnp (st : State) (n : Nat) (x : SnpSt) : State := { st with snp := tput {} st.snp n x }
def SnpSt.inp (x : SnpSt) (r : Nat) : SnpIn := tget {} x.ins r
def SnpSt.setIn (x : SnpSt) (r : Nat) (y : SnpIn) : SnpSt := { x with ins := tput {} x.ins r y }
def SnpSt.outp (x : SnpSt) (r : Nat) : SnpOutR := tget {} x.outs r
def SnpSt.setOut (x : SnpSt) (r : Nat) (y : SnpOutR) : SnpSt := { x with outs := tput {} x.outs r y }
def SnpSt.slot (x : SnpSt) (s : Nat) : SnpSlot := tget {} x.slots s
def SnpSt.setSlot (x : SnpSt) (s : Nat) (y : SnpSlot) : SnpSt := { x with slots := tput {} x.slots s y }

/-- Register `f` of port `n`: its field and its half. -/
def snpReg (f : Nat → Nat → Nat) (n : Nat) : Nat := f (Config.snpField n) (n % 2)
def snpReg2 (f : Nat → Nat → Nat → Nat) (n i : Nat) : Nat := f (Config.snpField n) (n % 2) i

def State.snpState (st : State) (n : Nat) : Nat := st.rf (snpReg Reg.SNP_STATUS n) 2 0
def State.snpEnter (st : State) (n s : Nat) : State := st.wf (snpReg Reg.SNP_STATUS n) 2 0 s

/-- The partition that owns a sensor port, or 0xFF (R477). -/
def State.snpOwner (st : State) (n : Nat) : Nat :=
  if st.brs.snpOwned.contains n then st.owner (Config.snpField n) else 0xFF

/-- Bits of a DW or SW code. -/
def widthCode (c : Nat) : Nat := [16, 20, 24, 32].getD c 32

/-- Bytes of a sample by PACK (R554). -/
def packBytes (pack : Nat) : Nat := [2, 3, 4, 4].getD pack 4

/-- Slots of a mask, ascending. -/
def maskSlots (mask : Nat) : List Nat := (List.range 32).filter (fun i => mask.testBit i)

/-- G, channels and bytes a sample of a route word (R552, R559). -/
def routeG (w : Word) : Nat := bitsOf w 39 34 + 1
def routeC (w : Word) : Nat := (maskSlots (bitsOf w 31 0)).length
def routeB (w : Word) : Nat := packBytes (bitsOf w 33 32)

/-- Bytes of an input record (R552). -/
def inBytes (w : Word) : Nat := 64 * ((16 + routeG w * routeC w * routeB w + 63) / 64)

/-- Bytes of an output record (R559). -/
def outBytes (w : Word) : Nat := 64 * ((routeG w * routeC w * routeB w + 63) / 64)

/-- N and LAG of an output route. -/
def routeN (w : Word) : Nat := bitsOf w 49 42
def routeLag (w : Word) : Nat := bitsOf w 57 50

/-- First wafer address of output route `r`'s half of the buffer of port `n` (R559). -/
def snpBuf (n r : Nat) : Nat := sbufBase (Config.snpField n) (n % 2) + r * 0x8000

/-- Slot code of output route `r` in lease resources (R380). -/
def snpSlot (n r : Nat) : Nat := 0x20 + 2 * (n % 2) + r

/-- Window index of output route `r` (log 24). -/
def snpWin (n r : Nat) : Nat := 2 * (n % 2) + r

/-- Raise a sensor-port notice (R568). -/
def State.snpNotice (st : State) (n cls d1 : Nat) : State :=
  st.notice cls (st.snpOwner n) (Config.snpField n) 0xFF n n d1

/-- Return units of an output route's window to its holder (R559). -/
def State.snpReturn (st : State) (n r units : Nat) : State :=
  let fn := Config.snpField n
  let k := ownerKey fn (snpSlot n r)
  let w := st.window k (snpWin n r)
  if w.state = 1 && 0 < units then
    let u := st.holderUnit w.hkind w.holder
    (st.setWindow k (snpWin n r) { w with outstanding := w.outstanding - units }).send fn
      { kind := 6, part := st.snpOwner n, srcUnit := 7, dst := unitDst u.1 u.2, window := snpWin n r,
        wgen := w.gen, units := units }
  else st

/-- Discard the queued output records of both routes and return their units (R565, R566). -/
def State.snpDropOut (st : State) (n : Nat) : State :=
  (List.range 2).foldl (fun st r =>
    let x := st.snpPort n
    let o := x.outp r
    let units := (st.window (ownerKey (Config.snpField n) (snpSlot n r)) (snpWin n r)).outstanding
    let st := st.setSnp n (x.setOut r { o with present := [], fill := [], base := o.next, first := none, came := none })
    st.snpReturn n r units) st

/-- Flush both input routes as stream queues (R510, R566): what is inside a record enters RESYNC. -/
def State.snpFlushIn (st : State) (n : Nat) : State :=
  (List.range 2).foldl (fun st r =>
    let x := st.snpPort n
    let i := x.inp r
    if i.frames.isEmpty then st.setSnp n (x.setIn r { i with closed := [], gap := i.gap || !i.closed.isEmpty })
    else
      let st := st.setSnp n (x.setIn r { i with
        closed := [], frames := [], resync := true, gap := true, skip := routeG i.route - i.frames.length })
      let c := snpReg Reg.SNP_RESYNC n
      let st := (st.addSat c (32 * r + 31) (32 * r) 1).setb (snpReg Reg.SNP_EVENT n) 8
      st.notice 0x2C (st.snpOwner n) (Config.snpField n) 0xFF n (2 * n + r) (st.rf c (32 * r + 31) (32 * r))) st

/-- Give an output slot a new setting to be applied at its zero crossing (R561): a second change keeps the first one's
timeout; PENDING shows it. -/
def State.snpChange (st : State) (n s : Nat) (f : SnpSet → SnpSet) : State :=
  let x := st.snpPort n
  let y := x.slot s
  let base := match y.pend with
    | some p => p.1
    | none => y.cur
  let since := match y.pend with
    | some p => p.2
    | none => st.now
  (st.setSnp n (x.setSlot s { y with pend := some (f base, since) })).setb (snpReg2 Reg.SNP_OGAIN n s) 31

/-- Put a slot's pending setting into force. -/
def State.snpApply (st : State) (n s : Nat) : State :=
  let x := st.snpPort n
  let y := x.slot s
  match y.pend with
  | none => st
  | some p =>
    let st := st.setSnp n (x.setSlot s { y with cur := p.1, pend := none })
    st.wn (snpReg2 Reg.SNP_OGAIN n s) (p.1.gain + if p.1.mute then 65536 else 0)

/-- The slots that an output route plays or is to play. -/
def SnpSt.busySlots (x : SnpSt) : List Nat :=
  (List.range 32).filter (fun s => (x.slot s).cur.src < 2 || (x.slot s).pend.any (fun p => p.1.src < 2))

/-- Begin to stop a port (R564, R567): every output slot receives a change to output 0. -/
def State.snpMute (st : State) (n : Nat) : State :=
  (st.snpPort n).busySlots.foldl (fun st s => st.snpChange n s (fun y => { y with src := 2 })) st

/-- Close a port's output windows (R387). -/
def State.snpCloseWindows (st : State) (n : Nat) : State :=
  (List.range 2).foldl (fun st r => st.closeWindow (Config.snpField n) (snpSlot n r) (snpWin n r)) st

/-- Every output slot is silent: its source goes where `f` sends it and its last samples are 0. -/
def SnpSt.silence (x : SnpSt) (f : SnpSet → SnpSet) : SnpSt :=
  { x with slots := x.slots.foldl (fun (t : List (Nat × SnpSlot)) e =>
      tput {} t e.1 { e.2 with cur := f e.2.cur, last := 0, hold := 0 }) [] }

/-- Enter STOPPED (R564). -/
def State.snpStopped (st : State) (n : Nat) : State :=
  let st := st.snpCloseWindows n
  let st := (List.range 32).foldl (fun (st : State) s => st.snpApply n s) st
  let x := (st.snpPort n).silence (fun y => { y with src := 2 })
  (st.setSnp n { x with live := false, cur := [], bad := 0, outs := [] }).snpEnter n 0

/-- A port whose partition leaves ON, or whose lease is revoked (R567): it stops depositing and signalling, closes its output
windows, mutes its outputs and stops. -/
def State.snpDownPort (st : State) (n : Nat) : State :=
  let st := st.snpFlushIn n
  let st := st.setSnp n { st.snpPort n with mute := true }
  match st.snpState n with
  | 0 => st
  | 2 => ((st.snpMute n).snpCloseWindows n).snpEnter n 3
  | 3 => st.snpCloseWindows n
  | _ => st.snpStopped n

/-- Clock loss (R565): the port is LOST. Pending settings apply, so a port that was STOPPING has settled and goes on to
STOPPED (log 30). -/
def State.snpLost (st : State) (n cause : Nat) : State :=
  let was := st.snpState n
  if was = 0 || was = 4 then st
  else
    let x := st.snpPort n
    let x := (List.range 2).foldl (fun (x : SnpSt) r =>
      x.setIn r { x.inp r with frames := [], gap := true, restart := true, skip := 0 }) x
    let st := st.setSnp n { x with live := false, bad := 0 }
    let st := st.snpDropOut n
    let st := (List.range 32).foldl (fun (st : State) s => st.snpApply n s) st
    let st := st.setSnp n ((st.snpPort n).silence id)
    let r := snpReg Reg.SNP_STATUS n
    let st := (((st.snpEnter n 4).wf r 5 3 cause).wf r 23 15 0).addSat (snpReg Reg.SNP_LOSSES n) 63 0 1
    let st := (st.setb (snpReg Reg.SNP_EVENT n) 0).snpNotice n 0x30 (cause * 256)
    if was = 3 then st.snpStopped n else st

/-- A record of an output route comes too late: it is discarded and its units return (R559). -/
def State.snpLate (st : State) (n r units : Nat) : State :=
  let st := (st.addSat (snpReg Reg.SNP_LATE n) (32 * r + 31) (32 * r) 1).setb (snpReg Reg.SNP_EVENT n) 5
  (st.snpReturn n r units).snpNotice n 0x32 (3 + 256 * r)

/-- A deposit written into an output route's buffer (R559): bytes count towards the record at that place; a record that
is whole is present, or late when its due frame has begun. -/
def State.snpArrive (st : State) (n r off len : Nat) : State :=
  let w := st.rd (snpReg2 Reg.SNP_OROUTE n r)
  let rb := outBytes w
  let x := st.snpPort n
  let o := x.outp r
  if rb = 0 || routeN w = 0 then st
  else
    let i := off / rb
    let have' := tget 0 o.fill i + len
    if have' < rb then st.setSnp n (x.setOut r { o with fill := tput 0 o.fill i have' })
    else
      let j := o.next + (i + routeN w - o.next % routeN w) % routeN w
      let o := { o with fill := tput 0 o.fill i 0, next := j + 1 }
      let late := match o.first with
        | some f => decide (f + (j - o.base) * routeG w ≤ x.frameNo)
        | none => false
      if late then (st.setSnp n (x.setOut r o)).snpLate n r (rb / 64)
      else st.setSnp n (x.setOut r { o with present := o.present ++ [(j, st.now)] })

/-- Send what the scrip of an input route's grant allows of its closed records, as deposits of at most 32 data flits
(R383, R556); a record without a VALID grant waits (log 30). -/
def State.snpPump (st : State) (n r : Nat) : Nat → State
  | 0 => st
  | fuel + 1 =>
    let x := st.snpPort n
    let i := x.inp r
    match i.closed with
    | [] => st
    | e :: t =>
      let h := snpHolder n r
      let g := st.grantOf h 0
      let rb := e.bytes.length
      let chunk := (e.bytes.drop e.sent).take 2048
      if g.state ≠ 1 || g.size < rb || g.scrip < chunk.length / 64 then st
      else
        let dst := g.base + e.k % (g.size / rb) * rb + e.sent
        let e' : SnpRec := { e with sent := e.sent + chunk.length, unacked := e.unacked + 1 }
        let i := if e'.sent < rb then { i with closed := e' :: t } else { i with closed := t, flight := i.flight ++ [e'] }
        let st := st.setSnp n (x.setIn r i)
        State.snpPump (st.sendDeposit (Config.snpField n) 7 (st.snpOwner n) h 0 dst chunk (.record n r e.k)) n r fuel

/-- Records of every sensor port that waited for scrip go on (R557). -/
def State.snpPumpAll (st : State) : State :=
  (List.range 16).foldl (fun (st : State) q =>
    if ((st.snpPort (q / 2)).inp (q % 2)).closed.isEmpty then st else st.snpPump (q / 2) (q % 2) 48) st

end Sys2Proof.Machine
end

