-- ==== Sys2Proof/Machine/Store.lean ====
section
/-! DEFINITION. The commands of the stores (chapter 14): the change of a cache share (R349), the patrol scrubber (R356),
clearing the conflict counters (R358), and the write-back of a granule's lines (R344). -/

namespace Sys2Proof.Machine

/-- Write back and invalidate every line of a slot's cache (R349 steps 2 and 3, R350): dirty lines are counted. -/
def State.cacheEmpty (st : State) (fn s : Nat) : State :=
  let c := st.core fn s
  let d := (c.cache.filter (fun e => e.2.dirty)).length
  let st := (st.setCore fn s { c with cache := [], plru := [] }).add (Reg.STO_CACHE_WB fn s) 63 0 d
  st.wf (Reg.STO_CACHE_DIRTY fn s) 31 0 0

/-- Write back every dirty line of a slot's cache and keep the lines (R350). -/
def State.cacheClean (st : State) (fn s : Nat) : State :=
  let c := st.core fn s
  let d := (c.cache.filter (fun e => e.2.dirty)).length
  let st := st.setCore fn s { c with
    cache := c.cache.foldl (fun (t : List (Nat × CacheLine)) e => tput {} t e.1 { e.2 with dirty := false }) [] }
  (st.add (Reg.STO_CACHE_WB fn s) 63 0 d).wf (Reg.STO_CACHE_DIRTY fn s) 31 0 0

/-- Write back and invalidate the lines that slot `s` holds of granule `g` (R344). -/
def State.cacheDropGranule (st : State) (fn s g : Nat) : State :=
  let c := st.core fn s
  let mine (e : Nat × CacheLine) : Bool := e.2.line / 131072 = g
  let d := (c.cache.filter (fun e => mine e && e.2.dirty)).length
  let st := st.setCore fn s { c with cache := c.cache.filter (fun e => !mine e) }
  (st.add (Reg.STO_CACHE_WB fn s) 63 0 d).wf (Reg.STO_CACHE_DIRTY fn s) 31 0 (st.rf (Reg.STO_CACHE_DIRTY fn s) 31 0 - d)

/-- State of memory object `i` of a partition (R505): base, size, field, slot, state. -/
structure Obj where
  base : Nat
  size : Nat
  fn : Nat
  slot : Nat
  state : Nat
deriving DecidableEq, Repr

def State.obj (st : State) (p i : Nat) : Obj :=
  let w := st.rn (Reg.QUE_OBJ p (4 * i + 1))
  { base := st.rn (Reg.QUE_OBJ p (4 * i)), size := nbits w 31 0, fn := nbits w 39 32, slot := nbits w 47 40,
    state := nbits w 55 48 }

def State.setObj (st : State) (p i : Nat) (o : Obj) : State :=
  (st.wn (Reg.QUE_OBJ p (4 * i)) o.base).wn (Reg.QUE_OBJ p (4 * i + 1))
    (o.size + o.fn * 2 ^ 32 + o.slot * 2 ^ 40 + o.state * 2 ^ 48)

/-- Every valid object of a partition that lies in slot `s` of `fn` and meets a range becomes stale (R505). -/
def State.staleObjs (st : State) (p fn s a n : Nat) : State :=
  (List.range 64).foldl (fun st i =>
    let o := st.obj p i
    if o.state = 1 && o.fn = fn && o.slot = s && rangesMeet o.base o.size a n then st.setObj p i { o with state := 2 } else st) st

/-- A write of STO_NSP_CFG: REFUSED is cleared, and a new STEPS starts a change of the cache share (R349). The duration of the
change, a count of beats, is taken as one ns a beat (log 23). -/
def State.shareChange (st : State) (fn s value : Nat) : State :=
  let cfg := Reg.STO_NSP_CFG fn s
  let st := if nbit value 30 then st.clrb cfg 30 else st
  let new := nbits value 2 0
  let old := st.rf cfg 2 0
  if new = old then st
  else
    let near := nearBase fn s
    let edge (k : Nat) : Nat := near + (st.userKib fn s - 512 * k) * 1024
    let lo := edge (max old new)
    let hi := edge (min old new)
    let clash := (List.range 64).any (fun w =>
      let x := st.window (ownerKey fn s) w
      x.state ≠ 0 && rangesMeet x.base x.size lo (hi - lo))
    if !(st.core fn s).idle || st.rb cfg 31 || 4 < new || clash then st.setb cfg 30
    else
      let d := ((st.core fn s).cache.filter (fun e => e.2.dirty)).length
      let n := (d + 1) / 2 + 14 + 2 + 256 * (max old new - min old new)
      let st := (st.cacheEmpty fn s).zeroRange lo hi
      let st := if old < new then st.staleObjs (st.owner fn) fn s lo (hi - lo) else st
      let c := st.core fn s
      (st.setCore fn s { c with shareAt := some (st.now + n), shareTo := new }).setb cfg 31

/-- CACHE_SHARE_CHANGE: a write of STO_NSP_CFG.STEPS (R349, R357). -/
def execCacheShareChange (who : Who) (fn s value : Nat) (st : State) : Out1 :=
  .next (st.slotWrite who fn s (Reg.STO_NSP_CFG fn s) (st.tellerOrOwner who fn s) (fun st => st.shareChange fn s value))

/-- The conflict and gap counters of a slot become zero (R358). -/
def State.clearConf (st : State) (fn s : Nat) : State :=
  let st := (List.range 16).foldl (fun st b => (st.wn (Reg.STO_NSP_CONF_W fn s b) 0).wn (Reg.STO_NSP_CONF_N fn s b) 0) st
  st.wn (Reg.STO_NSP_GAPS fn s) 0

/-- Who may write STO_NSP_CTL and STO_PATROL_CTL (R357). -/
def State.storeWriter (st : State) (who : Who) (fn : Nat) : Bool := who == .teller fn 3 || st.hostOf who fn

/-- CLEAR_CONFLICTS: a write of STO_NSP_CTL.CLEAR_CONF (R357, R358). -/
def execClearConflicts (who : Who) (fn s : Nat) (st : State) : Out1 :=
  .next (st.slotWrite who fn s (Reg.STO_NSP_CTL fn s) (st.storeWriter who fn) (fun st => st.clearConf fn s))

/-! ## Patrol (R356) -/

/-- The line of a field that patrol reads when it stands at offset `o`, and whether it begins a new pass to get there: past
granules that no partition owns, past the near scratchpad of an empty slot, which is not powered, and past the cache region of
a core whose BUSY is 1. None where the field has nothing to read. -/
def State.patrolAt (st : State) (fn : Nat) : Nat → Nat → Bool → Option (Nat × Bool)
  | 0, _, _ => none
  | fuel + 1, o, w =>
    if o < 0xC000000 then
      if st.granPart fn (o / 0x1000000) = 0xFF then
        State.patrolAt st fn fuel (if o / 0x1000000 = 11 then 0x100000000 else (o / 0x1000000 + 1) * 0x1000000) w
      else some (o, w)
    else if 0x101000000 ≤ o then State.patrolAt st fn fuel 0 true
    else
      let s := (o - 0x100000000) / 0x400000
      let i := (o - 0x100000000) % 0x400000
      let top := st.userKib fn s * 1024
      if !st.present fn s then State.patrolAt st fn fuel (0x100000000 + (s + 1) * 0x400000) w
      else if st.rb (Reg.STO_NSP_CFG fn s) 31 && decide (st.directLen fn s ≤ i ∧ i < top) then
        some (0x100000000 + s * 0x400000 + top, w)
      else some (o, w)

/-- Record each uncorrectable word of a line (R356). -/
def State.patrolWords (st : State) (fn a : Nat) : Nat → State
  | 0 => st
  | n + 1 =>
    let r := st.checkWords 1 (a / 8)
    let st := match r.2 with
      | some b =>
        let slot := if isNear b then (addrOff b - 0x100000000) / 0x400000 else 0xFF
        r.1.fault 0x08 0 (st.owner fn) fn slot 0xFF b 0xFFFF
      | none => r.1
    State.patrolWords st fn (a + 8) n

/-- PATROL_READ: the scrubber reads the next line at its rate, corrects or records, and moves on (R356). -/
def execPatrolRead (fn : Nat) (st : State) : Out1 :=
  let ctl := Reg.STO_PATROL_CTL fn
  .next (st.when (st.isFull fn && st.rb ctl 31 && st.rf ctl 5 0 ≠ 0) (fun st =>
    let st := st.until ((st.field fn).patrolAt + 1000 / st.rf ctl 5 0)
    let st := st.setField fn { st.field fn with patrolAt := st.now }
    let pos := addrOff (st.rf (Reg.STO_PATROL_STATUS fn) 47 0)
    match st.patrolAt fn 40 pos false with
    | none => st
    | some (o, again) =>
      let st := if again then st.add (Reg.STO_PATROL_STATUS fn) 63 48 1 else st
      let st := st.patrolWords fn (fn * 2 ^ 40 + o) 16
      let o' := if o + 128 = 0x101000000 then 0 else if o + 128 = 0xC000000 then 0x100000000 else o + 128
      let st := if o + 128 = 0x101000000 then st.add (Reg.STO_PATROL_STATUS fn) 63 48 1 else st
      st.wf (Reg.STO_PATROL_STATUS fn) 47 0 (fn * 2 ^ 40 + o')))

/-! ## The narrow view (R332, R335, R345, R351) -/

/-- The slot whose store a narrow access of teller `t` of `fn` at wafer address `a` reaches: its own, and for the housekeeper
every slot's; the near scratchpad but for the cache region, and the granules that the core holds. -/
def State.narrowSlot (st : State) (fn t a : Nat) : Option Nat :=
  let o := addrOff a
  let s := if isNear a then (o - 0x100000000) / 0x400000 else if o < 0xC000000 then st.granSlot fn (o / 0x1000000) else 4
  let i := o - 0x100000000 - s * 0x400000
  let cached := isNear a && decide (st.directLen fn s ≤ i ∧ i < st.userKib fn s * 1024)
  if a / 2 ^ 40 = fn && a % 8 = 0 && s < 4 && (s = t || t = 3) && st.isFull fn && st.present fn s && !cached then some s
  else none

/-- While the cache share of its slot changes, a narrow access to a granule waits (R349 step 1). -/
def State.narrowWait (st : State) (fn s a : Nat) : State :=
  match (st.core fn s).shareAt with
  | some t => if isNear a then st else st.until t
  | none => st

/-- Whether an address lies in the gleaner bins, which only the gleaner writes (R262). -/
def State.gleanAddr (st : State) (fn s a : Nat) : Bool :=
  decide (st.ctlBase fn s + 0x6000 ≤ a ∧ a < st.ctlBase fn s + 0x8000)

/-- A narrow write of teller `t`: it is performed before the teller's later submissions and reads (R335). -/
def State.narrowStore (st : State) (fn t a value : Nat) : State :=
  match st.narrowSlot fn t a with
  | none => st
  | some s =>
    if st.gleanAddr fn s a then st
    else (st.narrowWait fn s a).coreWrite fn s a (leBytes 8 value)

/-- A narrow read of teller `t`. Poison returns no data; at the core teller of the slot it ends the item that it serves, the
one it started last, with STORE_ECC, and the housekeeper records it (R355, R455; log 52). -/
def State.narrowLoad (st : State) (fn t a : Nat) : State :=
  match st.narrowSlot fn t a with
  | none => { st with reply := none }
  | some s =>
    let r := (st.narrowWait fn s a).narrowRead fn s a
    match r.2.1 with
    | none => { r.2.2 with reply := some (BitVec.ofNat 64 (leNat r.1)) }
    | some p =>
      let st := { r.2.2 with reply := none }
      if s ≠ t then st
      else match (st.slotItems fn s).getLast? with
        | some x => (st.endItem x.num 9 0 p).fault 0x08 1 (st.owner fn) fn s t p (x.num % 65536)
        | none => st.fault 0x08 1 (st.owner fn) fn s t p 0xFFFF

end Sys2Proof.Machine
end

