-- ==== Sys2Proof/Machine/Mesh.lean ====
section
/-! DEFINITION. The mesh (chapter 15): routing of one hop (R360, R366, R621) with buffers, credits, channels and order (R360-R362), replay
of a link (R363), the deposit port with
its tests (R384, R385), answers to senders (R383-R386), grants and closes (R381, R387), and the messages of a PUSH
(R383). -/

namespace Sys2Proof.Machine

/-! ## Routing (R360, R366) -/

/-- The bank that a message is routed with. -/
def bankOf (m : Msg) : Nat := if m.gen then 1 else 0

/-- Whether an override entry matches a message of destination `d` that came in by `inp` (R369). -/
def ovrHit (e : Word) (d part inp : Nat) : Bool :=
  e.getLsbD 31 && decide (bitsOf e 7 0 ≤ d ∧ d ≤ bitsOf e 15 8) &&
    (bitsOf e 23 16 == 0xFF || bitsOf e 23 16 == part) && (bitsOf e 26 24 == 0 || bitsOf e 26 24 == inp + 1)

/-- The output port that a router selects: 4 local, an override's port, or the port of the default order. -/
def State.pickPort (st : State) (fn inp : Nat) (m : Msg) : Nat :=
  let d := st.msgField m
  if d = fn then 4
  else
    let e? := (List.range 64).find? (fun i =>
      (st.field fn).routes && ovrHit (tget 0 st.mesh.ovr ((fn * 2 + bankOf m) * 64 + i)) d m.part inp)
    match e? with
    | some i => bitsOf (tget 0 st.mesh.ovr ((fn * 2 + bankOf m) * 64 + i)) 30 28 - 1
    | none => defaultPort m.yx fn d

/-- The lane that a message enters at port `inp` of router `fn`, if it finds one (R360): the module lane, the home lane, or
a transit lane whose reservation stands (R302, R375, R376). A router that has not loaded its route entries carries the
module lane only (R151). -/
def State.laneOf (st : State) (fn inp : Nat) (m : Msg) : Option Nat :=
  if m.part = 0xFE then some 0
  else if !(st.field fn).routes then none
  else if st.owner fn = m.part then some 1
  else
    match (List.range 24).find? (fun i =>
      let e := tget 0 st.mesh.transit ((fn * 2 + bankOf m) * 24 + i)
      e ≠ 0 && bitsOf e 7 0 == m.part && bitsOf e 10 8 == inp + 1) with
    | none => none
    | some i =>
      let lane := bitsOf (tget 0 st.mesh.transit ((fn * 2 + bankOf m) * 24 + i)) 18 16
      if (st.heldLease 2 (fn * 65536 + (inp + 1) * 256 + lane)).any (fun l => l.holder = m.part) then some lane else none

/-- Whether a deposit is held in its DATA buffers: under a cache-share change (R349), while the endpoint may not write host
memory (R434), or while a port's tag table is full (R409). -/
def State.depositHeld (st : State) (m : Msg) : Bool :=
  let f := addrFn m.dst
  if 0xE0 ≤ f then !st.canDma (f - 0xE0 + 1)
  else if 0xC0 ≤ f then (st.kvlFreeTag (f - 0xC0)).isNone
  else
    let o := addrOff m.dst
    decide (o < 0xC000000) && (st.core f (st.granSlot f (o / 0x1000000))).shareAt.isSome

/-! ## Flits, buffers and credits (R360-R362) -/

/-- Two spans in the same lane of the same input port. -/
def Span.here (a b : Span) : Bool := a.fn == b.fn && a.inp == b.inp && a.lane == b.lane

/-- Where a message's flits stand, from its head back. -/
def Flight.spans (f : Flight) : List Span := { fn := f.loc, inp := f.inp, lane := f.lane, n := f.here } :: f.trail

/-- A flight whose flits stand as `l` says. -/
def Flight.place (f : Flight) (l : List Span) : Flight :=
  match l with
  | [] => f
  | a :: t => { f with loc := a.fn, inp := a.inp, lane := a.lane, here := a.n,
                       trail := (t.reverse.dropWhile (fun b => b.n = 0)).reverse }

/-- Credits that the buffer of message `m` in lane `b` has left (R361). -/
def State.credits (st : State) (m : Msg) (b : Span) : Nat :=
  m.depth - (((st.mesh.flights.filter (fun g => g.msg.sameClass m)).flatMap (·.spans)).filter (·.here b)).foldl
    (fun a c => a + c.n) 0

/-- Whether some message still has flits to bring into the buffer of `m` in lane `b`: until its tail has passed, no other
message enters. -/
def State.taken (st : State) (m : Msg) (b : Span) : Bool :=
  st.mesh.flights.any (fun g => g.msg.sameClass m && ((g.spans.dropWhile (fun c => !c.here b)).drop 1).any (fun c => c.n ≠ 0))

/-- Whether the head of flight `i` is the first in its buffer: earlier flits leave a buffer first (R362). -/
def State.leads (st : State) (i : Nat) (f : Flight) : Bool :=
  let b : Span := { fn := f.loc, inp := f.inp, lane := f.lane, n := 0 }
  st.mesh.flights.zipIdx.all (fun e => e.2 = i || !e.1.msg.sameClass f.msg ||
    !(e.1.trail.any (·.here b) || (decide (e.2 < i) && ({ b with fn := e.1.loc, inp := e.1.inp, lane := e.1.lane } : Span).here b)))

/-- Count flits through output port `p` of router `fn` (R388). -/
def State.countFlits (st : State) (fn p n : Nat) : State := if n = 0 then st else st.add (Reg.MSH_FLITS fn p) 63 0 n

/-- The flits behind a span close up into it and into one another, as far as links are up and not paused and credits are
left; `got` is how many have just left the first span. -/
def State.pull (st : State) (m : Msg) : Nat → Span → List Span → State × List Span
  | _, a, [] => (st, [a])
  | got, a, b :: t =>
    let p := (a.inp + 2) % 4
    let k := if st.portUp b.fn p && !st.linkPaused b.fn p then min (st.credits m a + got) b.n else 0
    let r := State.pull (st.countFlits b.fn p k) m k { b with n := b.n - k } t
    (r.1, { a with n := a.n + k } :: r.2)

/-- Flight `i` closes up where it stands. -/
def State.closeUp (st : State) (i : Nat) (f : Flight) : State :=
  let r := st.pull f.msg 0 { fn := f.loc, inp := f.inp, lane := f.lane, n := f.here } f.trail
  { r.1 with mesh := { r.1.mesh with flights := r.1.mesh.flights.set i (f.place r.2) } }

/-- Every flit of a message that follows its head crosses the links of its trail. -/
def State.drawIn (st : State) : List Span → State
  | a :: b :: t => State.drawIn (st.countFlits b.fn ((a.inp + 2) % 4) ((b :: t).foldl (fun n c => n + c.n) 0)) (b :: t)
  | _ => st

/-- Whether every link between the flits of a message satisfies `ok`. -/
def Flight.links (f : Flight) (ok : Nat → Nat → Bool) : Bool :=
  (f.spans.zip f.trail).all (fun e => ok e.2.fn ((e.1.inp + 2) % 4))

/-- Discard a message's flits at router `fn` (MSH_DROPPED). -/
def State.dropMsg (st : State) (fn : Nat) (m : Msg) : State := st.add (Reg.MSH_DROPPED fn) 63 0 m.flits

/-- Every router discards the flits of a message that it holds, router `off` without counting them. -/
def State.dropFlits (st : State) (f : Flight) (off : Nat := 0xFF) : State :=
  (f.spans.filter (fun b => b.fn ≠ off)).foldl (fun st b => st.add (Reg.MSH_DROPPED b.fn) 63 0 b.n) st

/-- Take flight `i` out of the mesh. -/
def State.leaveMesh (st : State) (i : Nat) : State :=
  { st with mesh := { st.mesh with flights := st.mesh.flights.eraseIdx i } }

/-- A message on its next hop: the router it enters, its port and lane there. -/
def State.nextSpan (st : State) (f : Flight) : Option Span :=
  let p := st.pickPort f.loc f.inp f.msg
  (Config.neighbour f.loc p).bind (fun n =>
    (st.laneOf n ((p + 2) % 4) f.msg).map (fun lane => { fn := n, inp := (p + 2) % 4, lane := lane, n := 0 }))

/-- Whether the head of flight `i` may cross into the lane `b` that it enters next: it leads its buffer, and the buffer it
enters has a credit and no message half in it (R361). -/
def State.mayCross (st : State) (i : Nat) (f : Flight) (b : Span) : Bool :=
  st.leads i f && decide (0 < st.credits f.msg b) && !st.taken f.msg b

/-- Whether lane `lane` is the next that the channel of output port `p` at `fn` serves, of those that hold a flit and a credit:
round-robin after the lane served last (R361). -/
def State.turn (st : State) (fn p channel lane : Nat) : Bool :=
  let last := tget 7 st.mesh.served ((fn * 4 + p) * 4 + channel)
  let far (l : Nat) : Nat := (l + 7 - last) % 8
  let ready := st.mesh.flights.zipIdx.filterMap (fun e =>
    if e.1.loc = fn && e.1.msg.channel = channel && st.pickPort fn e.1.inp e.1.msg = p then
      (st.nextSpan e.1).bind (fun b => if st.mayCross e.2 e.1 b then some b.lane else none)
    else none)
  ready.all (fun l => decide (far lane ≤ far l))

/-- The head of flight `i` crosses the link into lane `b`, and the flits behind it close up. -/
def State.cross (st : State) (i : Nat) (f : Flight) (b : Span) : State :=
  let p := (b.inp + 2) % 4
  let behind : Span := { fn := f.loc, inp := f.inp, lane := f.lane, n := f.here - 1 }
  let st := (st.leaveMesh i).countFlits f.loc p 1
  let r := st.pull f.msg 0 { b with n := 1 } (behind :: f.trail)
  let g := ({ f with hops := f.hops + 1 }).place r.2
  { r.1 with mesh := { r.1.mesh with
      flights := r.1.mesh.flights ++ [g],
      served := tput 7 r.1.mesh.served ((f.loc * 4 + p) * 4 + f.msg.channel) b.lane } }

/-- Flight `i` is discarded where its head stands, its flits drawn in (R9, R364, R366, R621). -/
def State.discard (st : State) (i : Nat) (f : Flight) : State := ((st.leaveMesh i).drawIn f.spans).dropMsg f.loc f.msg

/-- Flight `i` leaves by the local port of its destination (R366): a CTRL flit at once, a deposit unless it is held in its
buffers (R349, R361) or a link of its trail is paused. -/
def State.eject (st : State) (i : Nat) (f : Flight) : State :=
  if st.leads i f && f.links (fun fn p => !st.linkPaused fn p) && !(f.msg.kind = 1 && st.depositHeld f.msg) then
    let st := ((st.leaveMesh i).drawIn f.spans).add (Reg.MSH_FLITS f.loc 4) 63 0 f.msg.flits
    { st with mesh := { st.mesh with arrived := st.mesh.arrived ++ [f.msg] } }
  else st.closeUp i f

/-- Flight `i` is forwarded through output port `p` (R360, R361, R621); it waits where its link is paused (R73), while it has
no credit, and while the channel serves another lane. -/
def State.forwardHead (st : State) (i : Nat) (f : Flight) (p : Nat) : State :=
  if !st.portUp f.loc p then st.discard i f
  else if st.linkPaused f.loc p || !st.leads i f then st.closeUp i f
  else
    match st.nextSpan f with
    | none =>
      /- no lane at the router it would enter (R360) -/
      let n := (Config.neighbour f.loc p).getD f.loc
      (((st.leaveMesh i).drawIn f.spans).countFlits f.loc p f.msg.flits).dropMsg n f.msg
    | some b => if st.mayCross i f b && st.turn f.loc p f.msg.channel b.lane then st.cross i f b else st.closeUp i f

/-- MSH_ROUTE_STATUS.DRAIN of every router: the old-bit messages it holds while a commit drains (R373). -/
def State.drainCounts (st : State) : State :=
  match st.mesh.commit with
  | none => st
  | some c =>
    if c.phase = 2 then
      Config.sites.foldl (fun st fn =>
        let n := (st.mesh.flights.filter (fun f => f.spans.any (·.fn = fn) && f.msg.gen ≠ st.genBit)).length
        if (st.field fn).routes then st.wf (Reg.MSH_ROUTE_STATUS fn) 47 32 n else st) st
    else st

/-- MESSAGE_ROUTE: message `i` of those in flight is forwarded by the router where its head stands, or ejected, or
discarded (R9, R360-R362, R366, R621). One that a link has gone down within is lost, each router discarding its flits
(R364). -/
def execMessageRoute (i : Nat) (st : State) : Out1 :=
  match st.mesh.flights[i]? with
  | none => .next st
  | some f =>
    let p := st.pickPort f.loc f.inp f.msg
    .next (if !f.links st.portUp then (st.leaveMesh i).dropFlits f
      else if 40 < f.hops then st.discard i f
      else if p = 4 then st.eject i f
      else st.forwardHead i f p).drainCounts

/-- LINK_REPLAY: the sender resends a channel's flits from the failed one; the replay is counted (R363). -/
def execLinkReplay (fn port : Nat) (st : State) : Out1 :=
  .next (st.when (decide (port < 4) && st.portUp fn port) (fun st => st.add (Reg.MSH_PORT fn port) 31 0 1))

/-! ## Answers to senders -/

/-- What waits for a PUSH, or for a REMOTE command: its tail passes once nothing is left to send and every message has
been answered (R191). -/
def State.pushSettle (st : State) (fn s num : Nat) : State :=
  let c := st.core fn s
  let done (cls : Nat) (y : Cmd) : Cmd :=
    if y.num = num && y.unacked = 0 && (if cls = 3 then y.status ≠ 0 || decide (y.w.length ≤ y.sent)
      else y.conv && (c.remoteOf ≠ num || c.remote.isEmpty))
    then { y with tail := true } else y
  st.putCore fn s { c with push := c.push.map (done 3), mint := c.mint.map (fun y => if y.w.remote then done 1 y else y),
                           mv := c.mv.map (fun y => if y.w.remote then done 2 y else y) }

/-- End a PUSH or REMOTE command with a status: nothing more of it is sent (R385). -/
def State.pushRefuse (st : State) (fn s num status detail : Nat) : State :=
  let c := st.core fn s
  let f (y : Cmd) : Cmd := if y.num = num && y.status = 0 then { y with status := status, detail := detail } else y
  let mine := c.mint.any (fun y => y.num = num) || c.mv.any (fun y => y.num = num)
  (st.setCore fn s { c with push := c.push.map f, mint := c.mint.map f, mv := c.mv.map f,
                            remote := if mine && c.remoteOf = num then [] else c.remote }).pushSettle fn s num

/-- Signal the tally of a sensor port's input route: value k + 1 (R558). -/
def State.snpSignal (st : State) (port r k : Nat) : State :=
  let fn := Config.snpField port
  let w := ((st.snpPort port).inp r).route
  if w.getLsbD 41 then
    let tag := st.mesh.nextTag
    let st := st.track { holder := snpHolder port r, grant := 64, tag := tag, units := 0, time := st.now, dst := 0,
                         job := .snpSignal port }
    st.send fn { kind := 0x0C, part := st.snpOwner port, srcUnit := 7, tag := tag, dst := unitDst st.anchor 8,
                 a := bitsOf w 51 42, b := k + 1 }
  else st

/-- Take away records of a route that are wholly answered: a record without refusal is signalled, one with a refusal
leaves a GAP (R558); a port that was revoked or taken down signals nothing (R567). -/
def State.snpSettle (st : State) (port r : Nat) : State :=
  let x := st.snpPort port
  let i := x.inp r
  let done := i.flight.filter (fun e => e.unacked = 0)
  let i := { i with flight := i.flight.filter (fun e => e.unacked ≠ 0), gap := i.gap || done.any (·.refused) }
  let st := st.setSnp port (x.setIn r i)
  (done.filter (fun e => !e.refused && !x.mute)).foldl (fun st e => st.snpSignal port r e.k) st

/-- The deposit of one message of an input record has been answered; a record with a refusal is sent no further. -/
def State.snpAnswer (st : State) (port r k : Nat) (bad : Bool) : State :=
  let x := st.snpPort port
  let i := x.inp r
  let f (e : SnpRec) : SnpRec := if e.k = k then { e with unacked := e.unacked - 1, refused := e.refused || bad } else e
  let closed := i.closed.map f
  (st.setSnp port (x.setIn r { i with
    flight := i.flight.map f ++ closed.filter (·.refused), closed := closed.filter (fun e => !e.refused) })).snpSettle port r

/-- The item whose push a refused message belonged to keeps the reason, where it is a COPY_OUT (R503). -/
def State.copyRefused (st : State) (fn s num reason : Nat) : State :=
  match (st.core fn s).push.find? (fun y => y.num = num && y.status = 0) with
  | none => st
  | some y =>
    match (st.slotItems fn s).find? (fun x => x.num % 65536 = y.w.tag && x.copyWin.isSome) with
    | some x => st.modItem x.num (fun z => { z with detail := reason })
    | none => st

/-- A posted write of VF `n` was refused by its owner (R429): reason 7 with the NAK's STATUS. A write given up without an
answer is not recorded. -/
def State.bar2Refused (st : State) (n dst status : Nat) : State :=
  if status = 0xFF then st
  else
    let g := (st.granuleList n).findIdx (fun k => granBase (k / 12) (k % 12) = dst / 0x1000000 * 0x1000000)
    (st.accErrAt (.vf n) 7 true 2 status (g * 0x1000000 + dst % 0x1000000)).addSat (Reg.HST_VF_BAR2 n) 31 0 1

/-- A message has been answered or given up: `res` is none for an ACK, and the reason otherwise (0xFF for a timeout). -/
def State.jobDone (st : State) (x : Sent) (res : Option Nat) (units : Nat) : State :=
  match x.job with
  | .push fn s num =>
    let c := st.core fn s
    let f (y : Cmd) : Cmd := if y.num = num then { y with unacked := y.unacked - 1 } else y
    let st := st.setCore fn s { c with push := c.push.map f, mint := c.mint.map f, mv := c.mv.map f }
    let st := match res with
      | some r => st.copyRefused fn s num r
      | none => st
    match res with
    | none => st.pushSettle fn s num
    | some 9 => st.pushRefuse fn s num 0x04 (x.dst / 65536 % 2 ^ 32)
    | some _ => st.pushRefuse fn s num 0x0A 0
  | .fetch num => st.fetchAnswer num x.units res
  | .record port r k => st.snpAnswer port r k res.isSome
  | .relay p tag =>
    if tag < 65536 && st.kvlState p = 5 then
      (st.kvlQueue p { kind := if res.isNone then 2 else 3, tag := tag, status := res.getD 0, units := units }).kvlUnhold p 1024
    else st
  | .bar2 n => match res with
    | some r => st.bar2Refused n x.dst r
    | none => st
  | .opened k w =>
    let fn := k / 64
    let slot := k % 64
    let it := st.host.started.find? (fun y => y.fn = fn && y.slot = slot && y.item.op = 4 && y.item.u 0x20 1 = w && y.status.isNone && y.acted)
    match res with
    | none => match it with
      | some y => st.endItem y.num 0 0 0
      | none => st
    | some _ =>
      let st := match it with
        | some y => st.endItem y.num 0x0B 0 w
        | none => st
      let e := st.window k w
      if e.state = 1 then (st.setWindow k w { e with state := 0, closing := true, due := st.now }).settleWindow k w else st
  | _ => st

/-- The message that an answer names, if this module sent it and still waits for the answer. -/
def State.sentOf (st : State) (tag : Nat) : Option Sent := st.mesh.sent.find? (fun x => x.tag = tag)

def State.dropSent (st : State) (tag : Nat) : State :=
  { st with mesh := { st.mesh with sent := st.mesh.sent.filter (fun x => x.tag ≠ tag) } }

/-- Return units to the grant that a message used, unless it is STALE or gone (R384, R386). -/
def State.returnUnits (st : State) (x : Sent) (units : Nat) : State :=
  let g := st.grantOf x.holder x.grant
  if x.grant < 64 && g.state = 1 && g.same x.use then st.setGrant x.holder x.grant { g with scrip := g.scrip + units } else st

/-- An ACK or NAK from a Kevenlink peer (R407): back to the local sender with the original TAG and window r. -/
def State.kvlAnswer (st : State) (p : Nat) (m : Msg) : State :=
  let x := st.kvlPort p
  match x.outTags.find? (fun t => t.idx = m.tag) with
  | none => st
  | some t =>
    let w := if t.kind = 4 then t.units else if t.slot < 64 then t.slot else 0
    let st := st.setKvl p { x with outTags := x.outTags.filter (fun e => e.idx ≠ t.idx) }
    let st := if t.slot < 64 && t.kind = 1 then
        let g := st.rgrant p t.slot
        (st.setRgrant p t.slot { g with inflight := g.inflight - 1 }).rgrantSettle p t.slot
      else st
    st.send (Config.kvlField p) {
      kind := m.kind, part := st.kvlOwner p, srcUnit := 6, tag := t.tag,
      dst := unitDst t.fn t.unit, window := w, status := m.status, units := m.units }

/-- Act on an ACK (`bad` false) or a NAK that has reached its sender (R384, R385). -/
def State.answered (st : State) (m : Msg) (bad : Bool) : State :=
  match st.sentOf m.tag with
  | none => st
  | some x =>
    let mine := (st.grantOf x.holder x.grant).same x.use
    let st := st.dropSent m.tag
    let st := (if x.grant < 64 then st.returnUnits x m.units else st).endUse x.use
    let st := if bad && x.grant < 64 && mine && (m.status = 1 || m.status = 2 || m.status = 6) then
        st.setGrant x.holder x.grant {} else st
    /- a refused GRANT of the peer frees its remote-grant slot (R407, R381) -/
    let st := match x.job with
      | .relay p _ => if bad && m.status = 8 then st.setRgrant p m.window {} else st
      | _ => st
    st.jobDone x (if bad then some m.status else none) m.units

/-- Whether `a` comes before `b` at their destination: one lane, class and channel between one source and one destination,
within one generation (R362). -/
def Msg.sameStream (a b : Msg) : Bool :=
  a.sameClass b && a.part == b.part && a.srcFn == b.srcFn && a.gen == b.gen && a.dstFn == b.dstFn &&
    (a.kind == 1 || a.dstUnit == b.dstUnit)

/-- Whether a message has been ejected at its destination and is the first of its stream there (R362). -/
def State.atDest (st : State) (m : Msg) : Bool :=
  (st.mesh.arrived.find? (fun x => Msg.sameStream x m)) == some m

/-- Perform a command on a message that has been ejected at its destination, in the order of its stream; any other message is
not there. -/
def State.onArrived (st : State) (m : Msg) (f : State → State) : Out1 :=
  .next (st.when (st.atDest m) (fun st => f (st.takeArrived m)))

/-- ACK: units return to the sender's grant and its message is complete (R384). -/
def execAck (m : Msg) (st : State) : Out1 :=
  if m.kind = 2 then st.onArrived m (fun st => (st.answered m false).snpPumpAll) else .next st

/-- The field whose MSH_CTL.ACK_TIMEOUT bounds a message: its sender's. -/
def State.sentField (st : State) (x : Sent) : Nat :=
  match x.job with
  | .push fn _ _ => fn
  | .island fn _ _ => fn
  | .record p _ _ => Config.snpField p
  | _ => st.anchor

/-- ACK_TIMEOUT: no answer within ACK_TIMEOUT µs makes the grant STALE and ends the sender's PUSH or transfer (R386). -/
def execAckTimeout (tag : Nat) (st : State) : Out1 :=
  match st.sentOf tag with
  | none => .next st
  | some x =>
    if 64 ≤ x.grant then .next st
    else
      let fn := st.sentField x
      let st := st.until (x.time + 1000 * st.rf (Reg.MSH_CTL fn) 15 0)
      let g := st.grantOf x.holder x.grant
      let st := st.dropSent tag
      let st := if g.state = 1 && g.same x.use then st.setGrant x.holder x.grant { g with state := 2 } else st
      let st := st.endUse x.use
      let st := if x.holder < 400 then
          st.addSat (Reg.MSH_GRANT_STATUS (x.holder / 4) (x.holder % 4)) 31 0 1 else st
      .next (st.jobDone x (some 0xFF) 0)

/-! ## The deposit port (R384, R385) -/

/-- Answer a deposit from its owner's side. -/
def State.depositReply (st : State) (fn unit : Nat) (m : Msg) (kind status units : Nat) : State :=
  st.send fn { kind := kind, part := m.part, srcUnit := unit, tag := m.tag, dst := unitDst m.srcFn m.srcUnit,
               window := m.window, wgen := m.wgen, status := status, units := units }

/-- The first test of R384 that fails, as the reason of R385, if any. -/
def State.depositFault (st : State) (w : Window) (m : Msg) : Option Nat :=
  if w.state = 2 then some 6
  else if w.state ≠ 1 then some 1
  else if m.wgen ≠ w.gen then some 2
  else if !inRange w.base w.size m.dst (64 * m.len) then some 3
  else if !st.isHolder w m then some 4
  else if w.scrip < w.outstanding + m.len then some 5
  else none

/-- A deposit into a store or a sensor port's output buffer whose window table has key `k`. -/
def State.depositAt (st : State) (fn slot : Nat) (m : Msg) : State :=
  let k := ownerKey fn slot
  let n := 64 * m.len
  let w := st.matchWindow k m
  let x := st.window k w
  let unit := if slot < 4 then slot else 7
  match st.depositFault x m with
  | some r =>
    let st := st.setWindow k w { x with refused := satN 32 (x.refused + 1) }
    let st := if slot < 4 then st.addSat (Reg.MSH_WIN_STATUS fn slot) 31 0 1 else st
    st.depositReply fn unit m 3 r m.len
  | none =>
    let units := if x.mode = 0 then m.len else 0
    let st := st.setWindow k w { x with outstanding := x.outstanding + m.len - units, deposited := x.deposited + n }
    /- the owner's cache is looked up: a hit makes the cached line dirty, a miss leaves the cache as it is (R348) -/
    let st := if slot < 4 && !isNear m.dst then
        let steps := st.rf (Reg.STO_NSP_CFG fn slot) 2 0
        (List.range ((n + 127) / 128 + 1)).foldl (fun st i =>
          let l := addrOff m.dst / 128 + i
          let c := st.core fn slot
          if steps = 0 || decide (addrOff m.dst + n ≤ l * 128) then st
          else if c.cache.any (fun e => e.2.line = l) then st.cacheTouch fn slot l true
          else st.add (Reg.STO_CACHE_MISSES fn slot) 63 0 1) st
      else st
    let st := st.store m.dst m.data
    let st := if 4 ≤ slot then
        let port := ((List.range 8).find? (fun q => Config.snpField q = fn && q % 2 = (slot - 0x20) / 2)).getD 8
        st.snpArrive port (slot % 2) (m.dst - x.base) n
      else st
    st.depositReply fn unit m 2 0 units

/-- A deposit into a copy window (R496): written to host memory as the VF's DMA writes, poison as EP (R436). -/
def State.depositCopy (st : State) (m : Msg) : State :=
  let p := addrFn m.dst - 0xE0
  let w := m.dst / 2 ^ 34 % 64
  let off := m.dst % 2 ^ 34
  match (st.part p).copyWins.find? (fun e => e.1 = w) with
  | none => st.depositReply st.anchor 5 m 3 1 m.len
  | some (_, addr, len, num, _) =>
    let who := st.item num
    let r := if m.wgen ≠ 0 then some 2
      else if len < off + 64 * m.len then some 3
      else if !who.any (fun y => y.fn = m.srcFn && y.slot = m.srcUnit) then some 4
      else if 512 < m.len then some 5 else none
    match r with
    | some r => st.depositReply st.anchor 5 m 3 r m.len
    | none => (st.dmaWrite (p + 1) (addr + off) m.data m.poison true).depositReply st.anchor 5 m 2 0 m.len

/-- A deposit into the remote aperture of port `p` (R406, R407): tested against the remote-grant slot, rewritten, and sent
to the peer under a tag of the port. -/
def State.depositRemote (st : State) (p : Nat) (m : Msg) : State :=
  let r := m.dst / 2 ^ 24 % 65536
  let off := m.dst % 2 ^ 24
  let fn := Config.kvlField p
  let g := st.rgrant p r
  let bad := if 64 ≤ r || g.state = 0 then some 1
    else if m.wgen ≠ g.wgen then some 2
    else if g.size < off + 64 * m.len then some 3
    else if g.holderFn ≠ m.srcFn || g.holderSlot ≠ m.srcUnit then some 4 else none
  match bad, st.kvlFreeTag p with
  | some s, _ => st.depositReply fn 6 m 3 s m.len
  | none, none => st
  | none, some t =>
    let st := st.kvlAddTag p { idx := t, kind := 1, tag := m.tag, fn := m.srcFn, unit := m.srcUnit, slot := r, units := m.len }
    let st := st.setRgrant p r { g with inflight := g.inflight + 1, sent := g.sent + 64 * m.len }
    st.kvlQueue p { m with dst := g.peerBase + off, window := g.peerWindow, tag := t }

/-- DEPOSIT: a deposit that has reached its destination is tested, written and answered (R384, R385). -/
def execDeposit (m : Msg) (st : State) : Out1 :=
  if m.kind ≠ 1 || st.depositHeld m then .next st
  else st.onArrived m (fun st =>
    let f := addrFn m.dst
    let o := addrOff m.dst
    if 0xE0 ≤ f then st.depositCopy m
    else if 0xC0 ≤ f then st.depositRemote (f - 0xC0) m
    else if isNear m.dst then st.depositAt f ((o - 0x100000000) / 0x400000) m
    else if o < 0xC000000 then
      let s := st.granSlot f (o / 0x1000000)
      if s = 0xFF then st.depositReply f 4 m 3 1 m.len else st.depositAt f s m
    else st.depositAt f (0x20 + (o - 0x900000000) / 0x8000) m)

/-! ## Grants, closes and scrip (R381, R384, R387) -/

/-- Key of the grant table of a unit that holds grants: a core slot, a VF of the message's partition, an input route of a
sensor port (R556). -/
def unitHolder (fn unit part : Nat) : Option Nat :=
  if unit < 4 then some (coreHolder fn unit)
  else if unit = 5 then some (vfHolder (part + 1))
  else if 16 ≤ unit && unit < 20 then
    ((List.range 8).find? (fun q => Config.snpField q = fn && q % 2 = (unit - 16) / 2)).map (fun q => snpHolder q (unit % 2))
  else none

/-- Number of entries of a grant table. -/
def grantCount (h : Nat) : Nat := if 3000 ≤ h then 1 else 64

/-- The owner's slot code that a GRANT carries into its holder's entry: a sensor port's output route is known by its
buffer (R380). -/
def grantSlot (m : Msg) : Nat := if m.srcUnit = 7 then 0x20 + (addrOff m.a - 0x900000000) / 0x8000 else m.srcUnit

/-- A GRANT that has reached Kevenlink port `p` goes to the peer under a tag of its own, beside those of the outbound tag table
(R407, R408). The WIN_OPEN item completes, for the peer answers only a refusal, which then closes the window (R381). -/
def State.grantToPeer (st : State) (p : Nat) (m : Msg) : State :=
  let x := st.kvlPort p
  let mine (t : KvlTag) : Bool := t.kind = 4 && t.fn = m.srcFn && t.unit = m.srcUnit && t.units = m.window
  let t := ((x.outTags.find? mine).map (·.idx)).getD
    (((List.range (x.outTags.length + 1)).find? (fun i => !x.outTags.any (fun e => e.idx = 1024 + i))).getD 0 + 1024)
  let st := st.setKvl p { x with outTags := x.outTags.filter (fun e => !mine e) ++
    [{ idx := t, kind := 4, tag := m.tag, fn := m.srcFn, unit := m.srcUnit, slot := 64, units := m.window }] }
  let peer := (st.window (ownerKey m.srcFn (grantSlot m)) m.window).peerDst
  let st := st.kvlQueue p { m with dst := peer, tag := t }
  match st.sentOf m.tag with
  | some e => st.jobDone e none 0
  | none => st

/-- A CLOSE that has reached Kevenlink port `p` goes to the peer; its GRANT awaits no answer any more (R408). -/
def State.closeToPeer (st : State) (p : Nat) (m : Msg) : State :=
  let x := st.kvlPort p
  let mine (t : KvlTag) : Bool := t.kind = 4 && t.fn = m.srcFn && t.unit = m.srcUnit && t.units = m.window
  let tags := (x.outTags.filter mine).map (·.tag)
  let st := st.setKvl p { x with outTags := x.outTags.filter (fun e => !mine e) }
  let st := tags.foldl (fun st t => st.dropSent t) st
  st.kvlQueue p m

/-- GRANT: the holder sets up a VALID grant entry, or answers with a NAK of reason 8 (R381); a Kevenlink port sends it to the
peer (R408). -/
def execGrant (m : Msg) (st : State) : Out1 :=
  if m.kind ≠ 4 then .next st
  else st.onArrived m (fun st =>
    let fn := m.dstFn
    if m.dstUnit = 6 then st.grantToPeer (Config.kvlPort fn) m
    else
      match unitHolder fn m.dstUnit m.part with
      | none => st.nakTo fn (m.dstUnit % 16) m 8
      | some h =>
        match (List.range (grantCount h)).find? (fun g => (st.grantOf h g).state = 0) with
        | none => st.nakTo fn m.dstUnit m 8
        | some g =>
          let clash := (List.range 64).any (fun i =>
            let y := st.grantOf h i
            y.state = 1 && rangesMeet y.base y.size m.a m.b)
          let st := st.setGrant h g { base := m.a, size := m.b, scrip := m.c, total := m.c, state := 1, window := m.window,
                                      wgen := m.wgen, ownerFn := m.srcFn, ownerSlot := grantSlot m, mode := m.d }
          let st := if clash && h < 400 then st.setb (Reg.MSH_GRANT_STATUS (h / 4) (h % 4)) 63 else st
          match st.sentOf m.tag with
          | some e => if m.srcUnit = 6 then st.dropSent m.tag else (st.dropSent m.tag).jobDone e none 0
          | none => st)

/-- The grants of a table that a CLOSE or SCRIP from an owner names. -/
def State.grantsOfWindow (st : State) (h : Nat) (m : Msg) : List Nat :=
  (List.range 64).filter (fun g =>
    let x := st.grantOf h g
    x.state ≠ 0 && x.ownerFn = m.srcFn && x.window = m.window && (x.ownerSlot = m.srcUnit || (m.srcUnit = 7 && decide (0x20 ≤ x.ownerSlot))))

/-- CLOSE: the holder's grant becomes NONE (R387); a Kevenlink port sends it to the peer (R408). -/
def execClose (m : Msg) (st : State) : Out1 :=
  if m.kind ≠ 5 then .next st
  else st.onArrived m (fun st =>
    if m.dstUnit = 6 then st.closeToPeer (Config.kvlPort m.dstFn) m
    else
      match unitHolder m.dstFn m.dstUnit m.part with
      | none => st
      | some h => (st.grantsOfWindow h m).foldl (fun st g => st.setGrant h g {}) st |>.dmaPump)

/-- SCRIP: units return to the holder's grant (R384); a Kevenlink port sends it to the peer. -/
def execScrip (m : Msg) (st : State) : Out1 :=
  if m.kind ≠ 6 then .next st
  else st.onArrived m (fun st =>
    if m.dstUnit = 6 then st.kvlQueue (Config.kvlPort m.dstFn) m
    else
      match unitHolder m.dstFn m.dstUnit m.part with
      | none => st
      | some h => (st.grantsOfWindow h m).foldl (fun st g =>
          let x := st.grantOf h g
          if x.state = 1 && x.wgen = m.wgen then st.setGrant h g { x with scrip := x.scrip + m.units } else st) st |>.dmaPump.snpPumpAll)

/-- WINDOW_LEASE_RELEASE: at the drain bound after a close the bursar releases the window's leases plainly (R387). -/
def execWindowLeaseRelease (ownerKey w : Nat) (st : State) : Out1 :=
  .next (st.when (st.window ownerKey w).closing (fun st =>
    (st.until (st.window ownerKey w).due).releaseWindow ownerKey w))

/-! ## PUSH (R383) -/

/-- The grant that a PUSH uses: the one it has used so far while that is VALID (R387), else the one that R382 finds. -/
def State.pushGrant (st : State) (fn s : Nat) (x : Cmd) : Option Nat :=
  match x.grant with
  | none => st.findGrant (coreHolder fn s) x.w.dst x.w.length
  | some u => (List.range 64).find? (fun g =>
      let y := st.grantOf (coreHolder fn s) g
      y.state = 1 && y.same u)

/-- PUSH_MESSAGE: the drain takes the next message's units from the grant, reads its bytes and injects it; a PUSH whose
grant is gone, whose DST is no multiple of 64, or that reads poison, ends (R355, R383, R387). -/
def execPushMessage (fn s : Nat) (st : State) : Out1 :=
  let c := st.core fn s
  match c.push with
  | [] => .next st
  | x :: _ =>
    if !st.isFull fn || c.flushAt.isSome || x.status ≠ 0 || x.w.length ≤ x.sent then .next (st.pushSettle fn s x.num)
    else if x.w.dst % 64 ≠ 0 then .next (st.pushRefuse fn s x.num 0x0A 0)
    else
      let h := coreHolder fn s
      match st.pushGrant fn s x with
      | none => .next (st.pushRefuse fn s x.num 0x0A 0)
      | some g =>
        let gr := st.grantOf h g
        let n := min (min (x.w.length - x.sent) (2048 - x.sent % 2048)) (64 * gr.total)
        if gr.scrip < n / 64 || n = 0 then .next st
        else
          let r := st.coreRead fn s (x.w.src + x.sent) n
          let copy := decide (0xE0 ≤ addrFn x.w.dst)
          let st := r.2.2
          match r.2.1, copy with
          | some a, false => .next (st.pushRefuse fn s x.num 0x0B (a / 65536 % 2 ^ 32))
          | bad, _ =>
            let cmd (y : Cmd) : Cmd := { y with sent := y.sent + n, unacked := y.unacked + 1, grant := some gr }
            let st := st.putCore fn s ((st.core fn s).modCmd 3 x.num cmd)
            let st := st.sendDeposit fn s (st.owner fn) h g (x.w.dst + x.sent) r.1 (.push fn s x.num) bad.isSome
            .next (match bad with
              | some a => st.pushRefuse fn s x.num 0x0B (a / 65536 % 2 ^ 32)
              | none => st)

end Sys2Proof.Machine
end

