-- ==== Sys2Proof/Machine/Host.lean ====
section
/-! DEFINITION. The host endpoint (chapter 17): where an access of a function lands (R426, R427), VF BAR2 (R428-R430),
doorbells (R431, R506), resets of functions and of the endpoint (R439-R442), MSI-X (R437), and what arrives on the link
(R433, R436). -/

namespace Sys2Proof.Machine

/-! ## Where an access lands (R426, R427) -/

/-- The flat offset that an access at offset `off` of the party's register space reaches, or the reason why it reaches none:
`off` is an offset of VF BAR0 for a VF and of PF0 BAR0 for every other party. -/
def State.resolve (st : State) (who : Who) (off : Nat) : Nat × Option Nat :=
  match who with
  | .vf n =>
    let p := n - 1
    let o := off % 0x10000
    let defined := decide (1 ≤ n ∧ n ≤ 16) && (st.part p).defined
    if 0x10000 ≤ off then
      let a := st.rd (Reg.HST_VF_APER n (off / 0x10000))
      let fn := bitsOf a 7 0
      let q := bitsOf a 9 8
      if !defined then (off, some 5)
      else if !a.getLsbD 31 then (off, some 6)
      else if st.owner fn ≠ p then (off, some 5)
      else if q = 1 then (off, some 9)
      else (Reg.win fn + q * 0x10000 + o, none)
    else if o / 4 = 0x2000 / 4 then (Reg.HST_VF_STATE n, none)
    else if !defined then (off, some 5)
    else if o < 8 then (o, none)
    else if 0x100 ≤ o && o < 0x104 then (Reg.AXB_CFG_STATUS, none)
    else if 0x180 ≤ o && o < 0x188 then (Reg.AXB_CFG_PART_BUILD p + o % 8, none)
    else if 0x1000 ≤ o && o < 0x1004 then (Reg.PWR_PART_STATE p, none)
    else if 0x1008 ≤ o && o < 0x1010 then (Reg.PWR_PART_POLICY p + o % 8, none)
    else if 0x1010 ≤ o && o < 0x1018 then (Reg.PWR_PART_SLACK p + o % 8, none)
    else if 0x2000 ≤ o && o < 0x4000 then (Reg.vfw n + o, none)
    else if 0x4000 ≤ o && o < 0x8000 then
      if st.tallyOwned p ((o - 0x4000) / 16) then (0x10000 + (o - 0x4000), none) else (off, some 5)
    else if 0x8000 ≤ o && o < 0xC000 then (0x100000 + 0x10000 * n + (o - 0x8000), none)
    else if 0xC000 ≤ o then (Reg.vfw n + o, none)
    else (off, some 9)
  | _ => (off, none)

/-! ## VF BAR2 (R428-R430) -/

/-- A write that BAR2 refuses: reason 7, counted (R429). -/
def State.bar2Refuse (st : State) (n off : Nat) : State :=
  (st.accErrAt (.vf n) 7 true 2 0 off).addSat (Reg.HST_VF_BAR2 n) 31 0 1

/-- BAR2_WRITE: a posted write of VF `n` becomes one deposit when it is whole flits in one granule of the list and its grant
has the scrip; otherwise it is discarded whole (R429). -/
def execBar2Write (n off : Nat) (data : List Byte) (st : State) : Out1 :=
  let l := st.granuleList n
  let len := data.length
  let k := l.getD (off / 0x1000000) 0
  let dst := granBase (k / 12) (k % 12) + off % 0x1000000
  .next (if !st.vfUp n || data = [] then st
    else if !(st.part (n - 1)).defined then st.accErrAt (.vf n) 5 true 2 0 off
    else if off % 64 ≠ 0 || len % 64 ≠ 0 || l.length ≤ off / 0x1000000 || 0x1000000 < off % 0x1000000 + len ||
        2 ^ st.host.bar2Log < off + len then st.bar2Refuse n off
    else match st.findGrant (vfHolder n) dst len with
      | none => st.bar2Refuse n off
      | some g =>
        if (st.grantOf (vfHolder n) g).scrip < len / 64 then st.bar2Refuse n off
        else st.sendDeposit st.anchor 5 (n - 1) (vfHolder n) g dst data (.bar2 n))

/-- BAR2_READ: a read completes with 0xFF bytes and is counted (R430); through a VF of no partition it is a register access
error (R421). -/
def execBar2Read (n off _len : Nat) (st : State) : Out1 :=
  .next (if !st.vfUp n then st
    else
      let st := { st with reply := some (BitVec.allOnes 64) }
      if !(st.part (n - 1)).defined then st.accErrAt (.vf n) 5 false 2 0 off
      else st.addSat (Reg.HST_VF_BAR2 n) 63 32 1)

/-! ## Doorbells (R431, R506) -/

/-- Whether a BAR2 write of VF `n` has neither been answered nor become STALE with its grant (R431). -/
def State.bar2Pending (st : State) (n : Nat) : Bool :=
  st.mesh.sent.any (fun s => match s.job with
    | .bar2 m => m = n && !((st.grantOf s.holder s.grant).state = 2 && (st.grantOf s.holder s.grant).same s.use)
    | _ => false)

/-- DOORBELL: a write of `size` bytes at offset `off` of BAR4 (R506). One of a size or alignment that R14 forbids is an
Unsupported Request and changes nothing. A VF's doorbell waits behind its deposits (R431). -/
def execDoorbell (who : Who) (off size value : Nat) (st : State) : Out1 :=
  let page := off / 4096
  .next (if (size ≠ 4 && size ≠ 8) || off % size ≠ 0 || !st.host.linkUp then st
    else match who with
    | .pf0 => if page < 16 then st.doorbell who (4096 + page) size (off % 4096) value off else st
    | .vf n =>
      if !st.vfUp n || 256 ≤ page then st
      else if !(st.part (n - 1)).defined then st.accErrAt who 5 true 4 0 off
      else if size = 8 && off % 4096 = 0 && (st.bar2Pending n || st.host.heldDb.any (fun e => e.1 = n)) then
        { st with host := { st.host with heldDb := st.host.heldDb ++ [(n, page, value)] } }
      else st.doorbell who ((n - 1) * 256 + page) size (off % 4096) value off
    | _ => st)

/-- DOORBELL_FORWARD: the oldest held doorbell of VF `n` is acted on once its earlier deposits are resolved (R431). -/
def execDoorbellForward (n : Nat) (st : State) : Out1 :=
  .next (if st.bar2Pending n then st
    else match st.host.heldDb.find? (fun e => e.1 = n) with
    | none => st
    | some e =>
      let st := { st with host := { st.host with heldDb := st.host.heldDb.erase e } }
      st.doorbell (.vf n) ((n - 1) * 256 + e.2.1) 8 0 e.2.2 (e.2.1 * 4096))

/-! ## Function resets (R441, R442) -/

/-- Forget the rings of the queues with keys in `[lo, hi)`: what was read of them, their reads and their waits. -/
def State.dropRings (st : State) (lo hi : Nat) : State :=
  let st := st.setWaits (st.host.waits.filter (fun w => !(decide (lo ≤ w.who ∧ w.who < hi))))
  { st with host := { st.host with
    queues := tclear lo hi st.host.queues,
    reads := st.host.reads.map (fun (r : DmaRead) => r.abandonIf (match r.what with
      | .ring k _ _ => decide (lo ≤ k ∧ k < hi)
      | _ => false)) } }

/-- Clear a function's event ring and routing table in force; the counts of records lost stay (R519). -/
def State.dropEvents (st : State) (f : Nat) : State :=
  { st with host := { st.host with
    evtRoute := tclear (f * 64) (f * 64 + 64) st.host.evtRoute, evtOwed := tput 0 st.host.evtOwed f 0 } }

/-- Bus mastering and interrupts are disabled by a function-level reset; sizes and tags stay (log 8). -/
def State.flrConfig (st : State) (f : Nat) : State :=
  let c : FuncCfg := { st.func f with busMaster := false, msixEnable := false, funcMask := false, d3hot := false }
  { st with host := { st.host with funcs := tput FuncCfg.init st.host.funcs f c } }

/-- What a reset of VF `n` does (R441): its registers, rings, grants and copy windows are cleared, its leases quarantined, its
DMA abandoned. The bindings of its queues belong to the partition and stay; so do the counts of R519. -/
def State.vfReset (st : State) (n : Nat) : State :=
  let p := n - 1
  let keep := [Reg.QUE_EVT_LOST p, Reg.QUE_PART_LOST p] ++ (List.range 256).map (fun q => Reg.QUE_Q_BIND p q)
  let st := (List.range (st.part p).contexts).foldl (fun (st : State) c => st.dropWaiting (p * 64 + c)) st
  let old := keep.map (fun r => (r, st.rd r))
  let st := st.resetRegs (Reg.vfw n) (Reg.vfw n + 0x100000)
  let st := st.resetRegs (Reg.QUE_Q_BASE p 0) (Reg.QUE_Q_BASE p 0 + 0x10000)
  let st := old.foldl (fun (st : State) e => st.wr e.1 e.2) st
  let st := ((st.dropRings (p * 256) (p * 256 + 256)).dropEvents n).flrConfig n
  let h := vfHolder n
  let st := { (st.dropRequester (.vf n)) with
    mesh := { st.mesh with grants := tclear (h * 64) (h * 64 + 64) st.mesh.grants },
    host := { st.host with
      heldDb := st.host.heldDb.filter (fun e => e.1 ≠ n), reads := st.host.reads.map (fun (r : DmaRead) => r.abandonIf (decide (r.func = n))) } }
  let st := st.setPart p { st.part p with copyWins := [] }
  (st.quarantineAll 0 (fun l => l.hkind = 5 && l.holder = n)).dmaPump

/-- VF_FLR: a function-level reset of VF `n` (R441). -/
def execVfFlr (n : Nat) (st : State) : Out1 := .next (st.when (st.vfUp n) (fun st => st.vfReset n))

/-- What a reset of PF0 does (R442): the management rings, PF0's event ring and its MSI-X are cleared, and every VF is reset
and disabled. The records of management commands still in progress are discarded when they complete (R519). -/
def State.pf0Reset (st : State) : State :=
  let lost := [(Reg.PF0_QUE_EVT_LOST, st.rd Reg.PF0_QUE_EVT_LOST)]
  let st := (List.range 16).foldl (fun (st : State) m => st.dropWaiting (4096 + m)) st
  let part := st.rd Reg.PF0_QUE_PART_LOST
  let st := st.resetRegs 0x4000 0x6000
  let st := st.resetRegs 0x100000 0x110000
  let st := ((lost.foldl (fun (st : State) e => st.wr e.1 e.2) st).wr Reg.PF0_QUE_PART_LOST part)
  let st := ((st.dropRings 4096 4112).dropEvents 0).flrConfig 0
  let st := { (st.dropRequester .pf0) with
    host := { st.host with reads := st.host.reads.map (fun (r : DmaRead) => r.abandonIf (decide (r.func = 0))) } }
  let st := (List.range 16).foldl (fun (st : State) i => st.vfReset (i + 1)) st
  { st with host := { st.host with vfEnable := false } }

/-- PF0_FLR (R442). -/
def execPf0Flr (st : State) : Out1 := .next (st.when st.host.linkUp (fun st => st.pf0Reset))

/-- The endpoint loses its link or is reset: as a reset of PF0, and the whole configuration space returns to its reset value
(R442). -/
def State.endpointDown (st : State) : State :=
  let st := st.pf0Reset
  let st := (st.wf Reg.HST_LINK 11 8 0).wf Reg.HST_LINK 4 0 0
  { st with host := { st.host with linkUp := false, funcs := [], numVfs := 0, bar2Log := 34, reads := [], heldDb := [] } }

/-- PERST: PERST_N goes low (R442, R599). -/
def execPerst (st : State) : Out1 :=
  .next (st.when (!st.host.perst) (fun st =>
    let st := st.endpointDown
    { st with host := { st.host with perst := true } }))

/-- HOST_LINK_DOWN (R442). -/
def execHostLinkDown (st : State) : Out1 := .next (st.when st.host.linkUp (fun st => st.endpointDown))

/-- HOST_LINK_UP: with PERST_N high the active anchor's endpoint trains, and once PF_READY is set the host has configured the
functions as the operands say (R439, steps 3 to 7). -/
def execHostLinkUp (speed width : Nat) (funcs : List (Nat × FuncCfg)) (vfEnable : Bool) (numVfs bar2Log : Nat)
    (st : State) : Out1 :=
  .next (st.when (st.powered st.anchor && !st.host.linkUp && st.rb Reg.HST_READY 0) (fun st =>
    let r := Reg.HST_LINK
    let st := (((st.wf r 31 24 st.anchor).add r 23 16 1).wf r 11 8 speed).wf r 4 0 width
    let fs := funcs.foldl (fun t e => if e.1 ≤ 16 then tput FuncCfg.init t e.1 e.2 else t) []
    { st with host := { st.host with
      linkUp := true, perst := false, funcs := fs, vfEnable := vfEnable, numVfs := min 16 numVfs,
      bar2Log := max 30 (min 34 bar2Log) } }))

/-! ## Readiness of vectors, and arrivals (R433, R436, R437) -/

/-- MSIX_PENDING_SEND: the host changes the configuration of a function; a pending vector is sent when every condition of
R437 has cleared, and work that waited for the function goes on (R434). -/
def execMsixPendingSend (func vector : Nat) (cfg : FuncCfg) (st : State) : Out1 :=
  .next (st.when (st.host.linkUp && (func = 0 || st.vfUp func)) (fun st =>
    let st := { st with host := { st.host with funcs := tput FuncCfg.init st.host.funcs func cfg } }
    let st := if vector < vectorsOf func && st.rb (msixPba func) vector then st.msix func vector else st
    st.dmaPump.drainFunc func))

/-- The read that a tag names, if it is outstanding. -/
def State.readOf (st : State) (tag : Nat) : Option DmaRead := st.host.reads.find? (fun r => r.tag = tag)

/-- A read request is no longer outstanding: its tag is free. -/
def State.dropRead (st : State) (tag : Nat) : State :=
  { st with host := { st.host with reads := st.host.reads.filter (fun r => r.tag ≠ tag) } }

/-- Count a poisoned TLP, or one that fails its ECRC (HST_POISON). -/
def State.poisonCount (st : State) (ecrc : Bool) : State :=
  if ecrc then st.addSat Reg.HST_POISON 31 0 1 else st.addSat Reg.HST_POISON 63 32 1

/-- POISONED_TLP: the TLP is discarded and counted, and the read that it answered fails (R436). -/
def execPoisonedTlp (ecrc : Bool) (tag : Nat) (st : State) : Out1 :=
  .next (st.when st.host.linkUp (fun st =>
    let st := st.poisonCount ecrc
    match st.readOf tag with
    | none => st
    | some r => ((st.dropRead tag).readFailed r).dmaPump))

/-- COMPLETION_TLP: data of a read enters its ring or its FETCH item; a completion may bring the first part of what was asked
and leave the rest outstanding. UR, CA and poison fail the read; a completion that no request waits for is discarded
(R436, R441). -/
def execCompletionTlp (tag status : Nat) (poisoned : Bool) (data : List Byte) (st : State) : Out1 :=
  match st.readOf tag with
  | none => .next st
  | some r =>
    .next (if poisoned then (((st.poisonCount false).dropRead tag).readFailed r).dmaPump
      else if status ≠ 0 then ((st.dropRead tag).readFailed r).dmaPump
      else if data.length < r.len then
        let n := data.length / 64 * 64
        if n = 0 then st
        else
          let rest : DmaRead := { r with
            addr := r.addr + n, len := r.len - n,
            what := match r.what with
              | .ring k c s => .ring k ((c + n / 64) % 2 ^ 32) (s - n / 64)
              | .fetch i o l => .fetch i (o + n) (l - n)
              | .void => .void }
          let st := { st with host := { st.host with
            reads := st.host.reads.map (fun (x : DmaRead) => if x.tag = tag then rest else x) } }
          st.readData r (data.take n)
      else ((st.dropRead tag).readData r (data.take r.len)).dmaPump)

/-- REGISTER_READ_TIMEOUT: a field has not answered a host's read within 100 µs: the read completes with 0xFF bytes under
reason 10 (R433). It concerns reads that reach a field at all. -/
def execRegisterReadTimeout (who : Who) (off : Nat) (st : State) : Out1 :=
  let x := st.resolve who off
  let fn := (x.1 - Reg.win 0) / 0x40000
  let host := match who with
    | .pf0 => true
    | .vf n => st.vfUp n
    | _ => false
  .next (st.when (host && st.host.linkUp && x.2.isNone && Reg.win 0 ≤ x.1 && x.1 < Reg.win 100 && (st.fieldReason who fn).isNone)
    (fun st =>
      let st := { st.until (st.now + 100000) with reply := some (BitVec.allOnes 64) }
      st.accErrAt who 10 false 0 0 off))

end Sys2Proof.Machine
end

