-- ==== Sys2Proof/Machine/Kevenlink.lean ====
section
/-! DEFINITION. Kevenlink (chapter 16): the training states (R396, R397), control units (R398, R399), frames with their retry
and credits (R400-R405), windows across the link (R406-R410), and what takes a link down (R412, R413). What a lane receiver
finds out (signal, lock, lane order, codeword errors, CRC verdicts) is an operand of the command (log 2). -/

namespace Sys2Proof.Machine

/-! ## Access -/

/-- Why a write of a KVL_ register of a port is not performed (R416). -/
def State.kvlReason (st : State) (who : Who) (p : Nat) : Option Nat :=
  match st.fieldReason who (Config.kvlField p) with
  | some r => some r
  | none => if st.hostOf who (Config.kvlField p) || who == .bursar then none else some 3

/-! ## Training (R396, R397) -/

/-- ENABLE is written 1 (R396): the port leaves DISABLED where R390 allows the link. -/
def State.kvlEnable (st : State) (p : Nat) : State :=
  let st := st.setb (Reg.KVL_CTL (Config.kvlField p)) 0
  if st.kvlAllowed p && st.kvlState p = 0 then st.kvlEnter p 1 else st

/-- KVL_ENABLE_WRITE (R396, R416). -/
def execKvlEnableWrite (who : Who) (port : Nat) (st : State) : Out1 :=
  match st.kvlReason who port with
  | some r => .next (st.accErr who r true (Reg.KVL_CTL (Config.kvlField port)))
  | none => .next (st.kvlEnable port)

/-- SIGNAL_DETECTED: DETECT to LOCK, unless the port waits after three failures (R396, R397). -/
def execSignalDetected (port : Nat) (st : State) : Out1 :=
  .next (st.when (decide (port < 8) && st.kvlState port = 1 && (st.kvlPort port).backoff.isNone) (fun st => st.kvlEnter port 2))

/-- LEVEL_LOCK: LOCK to ALIGN within its bound (R396). -/
def execLevelLock (port : Nat) (st : State) : Out1 :=
  .next (st.when (decide (port < 8) && st.kvlState port = 2 && decide (st.now ≤ (st.kvlPort port).since + 2000000))
    (fun st => st.kvlEnter port 3))

/-- CODEWORD_LOCK: ALIGN to IDENT within its bound; lane order and polarity are reported (R392, R395, R396). -/
def execCodewordLock (port laneMap polarity : Nat) (st : State) : Out1 :=
  .next (st.when (decide (port < 8) && st.kvlState port = 3 && decide (st.now ≤ (st.kvlPort port).since + 1000000)) (fun st =>
    let st := st.setKvl port { st.kvlPort port with seen := false, peerSeen := false, sentSeen := false, identAt := st.now }
    let r := Reg.KVL_STATUS (Config.kvlField port)
    ((st.wf r 19 12 laneMap).wf r 23 20 polarity).kvlEnter port 4))

/-- Bound of a training state in ns; 0 where there is none. -/
def trainBound (s : Nat) : Nat := if s = 2 then 2000000 else if s = 3 then 1000000 else if s = 4 then 100000 else 0

/-- TRAIN_TIMEOUT: the bound of LOCK, ALIGN or IDENT has expired; the port returns to DETECT, and after each third failure
in a row it waits 10 ms there; TRAIN_FAIL is raised once (R397). -/
def execTrainTimeout (port : Nat) (st : State) : Out1 :=
  .next (st.when (decide (port < 8) && trainBound (st.kvlState port) ≠ 0) (fun st =>
    let st := st.until ((st.kvlPort port).since + trainBound (st.kvlState port))
    let r := Reg.KVL_STATUS (Config.kvlField port)
    let st := (st.addSat r 55 48 1).kvlEnter port 1
    let n := st.rf r 55 48
    let st := if n = 3 then st.setb (Reg.KVL_EVENT (Config.kvlField port)) 2 else st
    if n % 3 = 0 then st.setKvl port { st.kvlPort port with backoff := some (st.now + 10000000) } else st))

/-- TRAIN_BACKOFF_END: the 10 ms wait in DETECT ends (R397). -/
def execTrainBackoffEnd (port : Nat) (st : State) : Out1 :=
  match (st.kvlPort port).backoff with
  | none => .next st
  | some t =>
    let st := st.until t
    .next (st.setKvl port { st.kvlPort port with backoff := none })

/-- Entry to ACTIVE (R396): SEQ counts and credit counters are 0, and the peer's credits are those of its IDENT. -/
def State.kvlActive (st : State) (p : Nat) : State :=
  let fn := Config.kvlField p
  let x := st.kvlPort p
  let st := st.putKvl p { peerCtrl := x.peerCtrl, peerData := x.peerData, lackAdv := st.now, lackAt := st.now }
  let st := ((st.wf (Reg.KVL_STATUS fn) 55 48 0).kvlEnter p 5).setb (Reg.KVL_EVENT fn) 0
  st.notice 0x2D (st.kvlOwner p) fn 0xFF p p 1

/-- IDENT to ACTIVE once the peer's SEEN 1 has been received and this end has sent SEEN 1. -/
def State.kvlTryActive (st : State) (p : Nat) : State :=
  let x := st.kvlPort p
  if st.kvlState p = 4 && x.peerSeen && x.sentSeen then st.kvlActive p else st

/-- IDENT: the peer's identity is recorded, and in IDENT state its credits and its SEEN (R396, R397, R399). -/
def execIdent (port flags peerIdent peerRev peerPort ctrlCredits dataCredits : Nat) (st : State) : Out1 :=
  .next (st.when (decide (port < 8) && (st.kvlState port = 4 || st.kvlState port = 5) && decide (peerPort < 256)) (fun st =>
    let st := st.wn (Reg.KVL_PEER_IDENT (Config.kvlField port)) (peerRev % 2 ^ 32 * 2 ^ 32 + peerIdent % 2 ^ 32)
    if st.kvlState port = 4 then
      let x := st.kvlPort port
      (st.setKvl port { x with seen := true, peerSeen := x.peerSeen || flags.testBit 0, peerCtrl := ctrlCredits % 65536,
                               peerData := dataCredits % 65536 }).kvlTryActive port
    else st))

/-- IDENT_TIMER: in IDENT state an IDENT unit goes out every 1 µs, with SEEN as it stands (R396, R399). The argument of the
unit is FLAGS; the identity, port and credits of R399 are fixed. -/
def execIdentTimer (port : Nat) (st : State) : Out1 :=
  .next (st.when (decide (port < 8) && st.kvlState port = 4) (fun st =>
    let st := st.until ((st.kvlPort port).identAt + 1000)
    let x := st.kvlPort port
    let st := (st.setKvl port { x with identAt := st.now, sentSeen := x.sentSeen || x.seen }).kvlUnit port 4 (if x.seen then 1 else 0)
    st.kvlTryActive port))

/-- RESET_STATE_END: after 10 µs in RESET the port returns to ALIGN if lock holds, else to DETECT (R396); to DISABLED where
R390 does not allow the link (R413). -/
def execResetStateEnd (port : Nat) (locked : Bool) (st : State) : Out1 :=
  .next (st.when (decide (port < 8) && st.kvlState port = 6) (fun st =>
    let st := st.until ((st.kvlPort port).since + 10000)
    st.kvlEnter port (if !st.kvlAllowed port then 0 else if locked then 3 else 1)))

/-! ## Causes of a link reset (R412) -/

/-- KVL_CTL.RESET is written (cause 1). -/
def State.kvlReset (st : State) (p : Nat) : State := st.kvlDown p 1

/-- LINK_RESET (R412, R416). -/
def execLinkReset (who : Who) (port : Nat) (st : State) : Out1 :=
  match st.kvlReason who port with
  | some r => .next (st.accErr who r true (Reg.KVL_CTL (Config.kvlField port)))
  | none => .next (st.kvlReset port)

/-- LOSS_OF_SIGNAL: no signal on a lane for 1 µs takes an ACTIVE link down with cause 4. -/
def execLossOfSignal (port : Nat) (st : State) : Out1 := .next (st.when (decide (port < 8)) (fun st => st.kvlDown port 4))

/-- Uncorrectable codewords and corrected symbols are counted (KVL_FEC, R394). -/
def State.kvlFec (st : State) (p fixed bad : Nat) : State :=
  let r := Reg.KVL_FEC (Config.kvlField p)
  (st.addSat r 31 0 fixed).addSat r 63 32 bad

/-- CODEWORD_LOCK_LOSS: missing alignment codewords, or `bad` = 8 uncorrectable codewords in a row, take an ACTIVE link down
with cause 5 (R395). -/
def execCodewordLockLoss (port bad : Nat) (st : State) : Out1 :=
  .next (st.when (decide (port < 8)) (fun st => (st.kvlFec port 0 bad).kvlDown port 5))

/-- RESET_UNIT: a RESET unit takes an ACTIVE link down with cause 2; its own CAUSE is not kept (R412). -/
def execResetUnit (port cause : Nat) (st : State) : Out1 :=
  .next (st.when (decide (port < 8 ∧ cause < 256)) (fun st => st.kvlDown port 2))

/-! ## Control units and retry (R398-R404) -/

/-- Perform a control unit's or a frame's effect on an ACTIVE port. -/
def State.whenActive (st : State) (p : Nat) (f : State → State) : Out1 :=
  .next (st.when (decide (p < 8) && st.kvlState p = 5) f)

/-- IDLE: a control unit that carries nothing; one that fails its CRC, or is of an undefined TYPE (`crcOk` false), is
discarded and counted (R398, R399). -/
def execIdle (port : Nat) (crcOk : Bool) (st : State) : Out1 :=
  .next (st.when (decide (port < 8) && decide (4 ≤ st.kvlState port) && !crcOk) (fun st =>
    st.addSat (Reg.KVL_ERRORS (Config.kvlField port)) 31 0 1))

/-- LACK: frames up to SEQ leave the replay buffer, and what waits is sent (R402); 0xFFFF acknowledges none. -/
def execLack (port seq : Nat) (st : State) : Out1 :=
  st.whenActive port (fun st =>
    let x := st.kvlPort port
    if x.replay.any (fun f => f.seq = seq) then
      let rest := (x.replay.dropWhile (fun f => f.seq ≠ seq)).drop 1
      (st.putKvl port { x with replay := rest, lackAdv := st.now }).kvlPump port 2048
    else st)

/-- Send REPLAY and every frame from SEQ `next` on again (R402): a frame resent more than REPLAY_LIMIT times resets the link
with cause 3. -/
def State.kvlResend (st : State) (p next : Nat) : State :=
  let fn := Config.kvlField p
  let x := st.kvlPort p
  let again := x.replay.dropWhile (fun f => f.seq ≠ next)
  let keep := x.replay.take (x.replay.length - again.length)
  let limit := st.rf (Reg.KVL_CTL fn) 15 8
  if again.any (fun f => limit < f.resends + 1) then st.kvlDown p 3
  else
    let st := st.setKvl p { x with replay := keep ++ again.map (fun f => { f with resends := f.resends + 1 }), lackAdv := st.now }
    let st := (st.kvlUnit p 6 next).addSat (Reg.KVL_RETRY fn) 31 0 again.length
    again.foldl (fun st f => st.emit (.kvlFrame p f.seq f.msg)) st

/-- LNAK: the sender replays every frame from NEXT (R402). -/
def execLnak (port next : Nat) (st : State) : Out1 := st.whenActive port (fun st => st.kvlResend port (next % 4096))

/-- REPLAY_TIMEOUT: no LACK has advanced for 2 µs while frames are unacknowledged; the sender replays from the oldest
(R402). -/
def execReplayTimeout (port : Nat) (st : State) : Out1 :=
  st.whenActive port (fun st =>
    match (st.kvlPort port).replay with
    | [] => st
    | f :: _ => (st.until ((st.kvlPort port).lackAdv + 2000)).kvlResend port f.seq)

/-- LNAK_RETRY: no REPLAY has arrived 2 µs after the last LNAK; it is sent again (R403). -/
def execLnakRetry (port : Nat) (st : State) : Out1 :=
  st.whenActive port (fun st =>
    match (st.kvlPort port).lnakAt with
    | none => st
    | some t => (st.until (t + 2000)).kvlLnak port)

/-- REPLAY: frame boundaries are known again (R403). -/
def execReplay (port seq : Nat) (st : State) : Out1 :=
  st.whenActive port (fun st => if seq < 4096 then st.setKvl port { st.kvlPort port with discard := false, lnakAt := none } else st)

/-- LACK_TIMER: an ACTIVE end sends a LACK at least every 1 µs, and sooner after a frame that it has accepted (R399, R403). -/
def execLackTimer (port : Nat) (st : State) : Out1 :=
  st.whenActive port (fun st =>
    let x := st.kvlPort port
    (if x.sinceLack = 0 then st.until (x.lackAt + 1000) else st).kvlLack port)

/-- CREDIT: the peer's counts of freed credits (R404), modulo 2^32; what waits is sent. -/
def execCredit (port ctrlFreed dataFreed : Nat) (st : State) : Out1 :=
  st.whenActive port (fun st =>
    let x := st.kvlPort port
    (st.putKvl port { x with freedCtrl := x.freedCtrl + cnt32 ctrlFreed x.freedCtrl,
                             freedData := x.freedData + cnt32 dataFreed x.freedData }).kvlPump port 2048)

/-! ## Frames (R400-R411) -/

/-- Whether a header keeps the table of R401. -/
def wireOk (m : Msg) : Bool :=
  let kinds := [1, 2, 3, 4, 5, 6, 0x0C, 0x0D]
  kinds.contains m.kind && decide (wireForm m = { m with yx := false, gen := false, part := 0xFE, srcFn := 0, srcUnit := 6 }) &&
    (if m.kind = 1 then decide (1 ≤ m.len ∧ m.len ≤ 32 ∧ m.dst % 64 = 0 ∧ m.data.length = 64 * m.len) else true) &&
    (if m.kind = 0x0C then decide (m.a < 1024 ∧ m.b < 2 ^ 48) else true)

/-- Whether a window keeps the form of R378. -/
def windowForm (base size scrip mode : Nat) : Bool :=
  decide (base % 128 = 0 ∧ size % 128 = 0 ∧ 128 ≤ size ∧ size ≤ 0x1000000 ∧ 1 ≤ scrip ∧ scrip ≤ min 65535 (size / 64) ∧ mode < 2)

/-- The remote-grant slot of a window of the peer. -/
def State.rgrantOf (st : State) (p window wgen : Nat) : Option Nat :=
  (List.range 64).find? (fun r => let g := st.rgrant p r
    g.state = 1 && g.peerWindow = window && g.wgen = wgen)

/-- A GRANT from the peer (R407, R410). -/
def State.kvlGrant (st : State) (p : Nat) (m : Msg) : State :=
  let fn := Config.kvlField p
  let ok := st.kvlOwner p < 16 && st.owner m.dstFn = st.kvlOwner p && decide (m.dstUnit < 4) && windowForm m.a m.b m.c m.d
  match if ok then (List.range 64).find? (fun r => (st.rgrant p r).state = 0) else none with
  | none => (st.kvlRefused p).kvlQueue p { kind := 3, tag := m.tag, status := 7, units := m.len }
  | some r =>
    let st := st.setRgrant p r { peerBase := m.a, size := m.b, peerWindow := m.window, state := 1, wgen := m.wgen,
                                 holderFn := m.dstFn, holderSlot := m.dstUnit }
    let tag := st.mesh.nextTag
    let st := st.track { holder := 5000, grant := 64, tag := tag, units := 0, time := st.now, dst := 0, job := .relay p m.tag }
    st.send fn { kind := 4, part := st.kvlOwner p, srcUnit := 6, tag := tag, dst := unitDst m.dstFn m.dstUnit, window := r,
                 wgen := m.wgen, a := (0xC0 + p) * 2 ^ 40 + r * 2 ^ 24, b := m.b, c := m.c, d := m.d }

/-- A CTRL message from the peer (R405, R407, R410, R411): passed on at once, and its credit freed. -/
def State.kvlPassCtrl (st : State) (p : Nat) (m : Msg) : State :=
  let fn := Config.kvlField p
  let st := st.kvlFree p m
  match m.kind with
  | 4 => st.kvlGrant p m
  | 5 =>
    match st.rgrantOf p m.window m.wgen with
    | none => st.kvlRefused p
    | some r => ((st.setRgrant p r { st.rgrant p r with state := 2 }).rgrantClose p r).rgrantSettle p r
  | 6 =>
    match (List.range 64).find? (fun r => let g := st.rgrant p r
      g.state ≠ 0 && g.peerWindow = m.window && g.wgen = m.wgen) with
    | none => st.kvlRefused p
    | some r =>
      let g := st.rgrant p r
      st.send fn { kind := 6, part := st.kvlOwner p, srcUnit := 6, dst := unitDst g.holderFn g.holderSlot, window := r,
                   wgen := m.wgen, units := m.units }
  | 0x0C => st.kvlInject p { m with dst := unitDst st.anchor 8 }
  | _ => st.kvlAnswer p m

/-- A frame accepted in order (R403): the receiver counts it, acknowledges after every eighth, and passes it on, unless its
header breaks R401; one without buffer space resets the link (R404). -/
def State.kvlAccept (st : State) (p : Nat) (m : Msg) : State :=
  let fn := Config.kvlField p
  let x := st.kvlPort p
  let used := (x.held.map msgCredits).sum
  if m.kind = 1 && 2048 < used + msgCredits m then st.kvlDown p 9
  else
    let st := st.setKvl p { x with rxNext := (x.rxNext + 1) % 4096, rxAny := true, sinceLack := x.sinceLack + 1 }
    let st := st.wf (Reg.KVL_FRAMES fn) 63 32 (st.rf (Reg.KVL_FRAMES fn) 63 32 + 1)
    let st := if 8 ≤ x.sinceLack + 1 then st.kvlLack p else st
    if !wireOk m then (st.addSat (Reg.KVL_ERRORS fn) 47 32 1).kvlFree p m
    else if m.kind = 1 then
      (st.setKvl p { st.kvlPort p with held := (st.kvlPort p).held ++ [m] }).kvlUnhold p 1024
    else st.kvlPassCtrl p m

/-- KVL_FRAME: a frame has arrived, `crcOk` its CRC verdict, with the corrected symbols and uncorrectable codewords of its
codewords. The next frame in order is accepted, a duplicate discarded silently, and any other discarded and asked for
again; while the receiver looks for a REPLAY it takes none (R400, R403). -/
def execKvlFrame (port seq units : Nat) (crcOk : Bool) (m : Msg) (fixed bad : Nat) (st : State) : Out1 :=
  st.whenActive port (fun st =>
    let st := st.kvlFec port fixed bad
    let x := st.kvlPort port
    if x.discard then st
    else
      let good := crcOk && bad = 0
      let whole := decide (units = if m.kind = 1 then 3 + 2 * m.len else 3)
      let behind := (x.rxNext + 4096 - seq % 4096) % 4096
      if good && whole && behind = 0 then st.kvlAccept port m
      else if good && 1 ≤ behind && behind ≤ 2048 then st
      else st.kvlDiscard port)

end Sys2Proof.Machine
end

