-- ==== Sys2Proof/Machine/Crypto.lean ====
section
/-! DEFINITION. The cryptography that chapter 05 and R447 name and leave to its standards (log 6): SHA-384 (FIPS 180-4), ECDSA on
curve P-384 (FIPS 186), AES-256 in Galois/Counter Mode (FIPS 197, SP 800-38D). Byte strings stand in the order of those
standards: the first byte of a number is its most significant one (R127). -/

namespace Sys2Proof.Machine

/-- The number that a byte string spells, first byte most significant (R127). -/
def beNat (bs : List Byte) : Nat := bs.foldl (fun a b => a * 256 + b.toNat) 0

/-- `n` bytes of a number, most significant first. -/
def beBytes (n v : Nat) : List Byte := (List.range n).map (fun k => BitVec.ofNat 8 (v / 256 ^ (n - 1 - k)))

/-- A list in pieces of `n` elements; the last piece may be shorter. -/
def pieces {α : Type} (n : Nat) : Nat → List α → List (List α)
  | 0, _ => []
  | _, [] => []
  | fuel + 1, l => l.take n :: pieces n fuel (l.drop n)

/-! ## SHA-384 -/

/-- The round constants of SHA-384. -/
def shaK : List Nat := [
  0x428a2f98d728ae22, 0x7137449123ef65cd, 0xb5c0fbcfec4d3b2f, 0xe9b5dba58189dbbc, 0x3956c25bf348b538,
  0x59f111f1b605d019, 0x923f82a4af194f9b, 0xab1c5ed5da6d8118, 0xd807aa98a3030242, 0x12835b0145706fbe,
  0x243185be4ee4b28c, 0x550c7dc3d5ffb4e2, 0x72be5d74f27b896f, 0x80deb1fe3b1696b1, 0x9bdc06a725c71235,
  0xc19bf174cf692694, 0xe49b69c19ef14ad2, 0xefbe4786384f25e3, 0x0fc19dc68b8cd5b5, 0x240ca1cc77ac9c65,
  0x2de92c6f592b0275, 0x4a7484aa6ea6e483, 0x5cb0a9dcbd41fbd4, 0x76f988da831153b5, 0x983e5152ee66dfab,
  0xa831c66d2db43210, 0xb00327c898fb213f, 0xbf597fc7beef0ee4, 0xc6e00bf33da88fc2, 0xd5a79147930aa725,
  0x06ca6351e003826f, 0x142929670a0e6e70, 0x27b70a8546d22ffc, 0x2e1b21385c26c926, 0x4d2c6dfc5ac42aed,
  0x53380d139d95b3df, 0x650a73548baf63de, 0x766a0abb3c77b2a8, 0x81c2c92e47edaee6, 0x92722c851482353b] ++ [
  0xa2bfe8a14cf10364, 0xa81a664bbc423001, 0xc24b8b70d0f89791, 0xc76c51a30654be30, 0xd192e819d6ef5218,
  0xd69906245565a910, 0xf40e35855771202a, 0x106aa07032bbd1b8, 0x19a4c116b8d2d0c8, 0x1e376c085141ab53,
  0x2748774cdf8eeb99, 0x34b0bcb5e19b48a8, 0x391c0cb3c5c95a63, 0x4ed8aa4ae3418acb, 0x5b9cca4f7763e373,
  0x682e6ff3d6b2b8a3, 0x748f82ee5defb2fc, 0x78a5636f43172f60, 0x84c87814a1f0ab72, 0x8cc702081a6439ec,
  0x90befffa23631e28, 0xa4506cebde82bde9, 0xbef9a3f7b2c67915, 0xc67178f2e372532b, 0xca273eceea26619c,
  0xd186b8c721c0c207, 0xeada7dd6cde0eb1e, 0xf57d4f7fee6ed178, 0x06f067aa72176fba, 0x0a637dc5a2c898a6,
  0x113f9804bef90dae, 0x1b710b35131c471b, 0x28db77f523047d84, 0x32caab7b40c72493, 0x3c9ebe0a15c9bebc,
  0x431d67c49c100d4c, 0x4cc5d4becb3e42b6, 0x597f299cfc657e2a, 0x5fcb6fab3ad6faec, 0x6c44198c4a475817]

/-- The initial hash value of SHA-384. -/
def shaInit : List Nat := [
  0xcbbb9d5dc1059ed8, 0x629a292a367cd507, 0x9159015a3070dd17, 0x152fecd8f70e5939, 0x67332667ffc00b31,
  0x8eb44a8768581511, 0xdb0c2e0d64f98fa7, 0x47b5481dbefa4fa4]

/-- A 64-bit word rotated right by `n`. -/
def rotr (x n : Nat) : Nat := (x >>> n) ||| (x % 2 ^ n) <<< (64 - n)

/-- One round: the eight working words and the next 16 words of the message schedule. -/
def shaRound (v w : List Nat) (k : Nat) : List Nat × List Nat :=
  let g (i : Nat) : Nat := v.getD i 0
  let m (i : Nat) : Nat := w.getD i 0
  let s1 := rotr (g 4) 14 ^^^ rotr (g 4) 18 ^^^ rotr (g 4) 41
  let ch := (g 4 &&& g 5) ^^^ ((2 ^ 64 - 1 - g 4) &&& g 6)
  let t1 := g 7 + s1 + ch + k + m 0
  let s0 := rotr (g 0) 28 ^^^ rotr (g 0) 34 ^^^ rotr (g 0) 39
  let maj := (g 0 &&& g 1) ^^^ (g 0 &&& g 2) ^^^ (g 1 &&& g 2)
  let e0 := rotr (m 1) 1 ^^^ rotr (m 1) 8 ^^^ (m 1 >>> 7)
  let e1 := rotr (m 14) 19 ^^^ rotr (m 14) 61 ^^^ (m 14 >>> 6)
  ((t1 + s0 + maj) % 2 ^ 64 :: [g 0, g 1, g 2] ++ (g 3 + t1) % 2 ^ 64 :: [g 4, g 5, g 6],
   w.tail ++ [(e1 + m 9 + e0 + m 0) % 2 ^ 64])

/-- One block of 16 words. -/
def shaBlock (h w : List Nat) : List Nat :=
  let r := shaK.foldl (fun x k => shaRound x.1 x.2 k) (h, w)
  (h.zip r.1).map (fun p => (p.1 + p.2) % 2 ^ 64)

/-- SHA-384 of a byte string: 48 bytes. -/
def sha384 (bs : List Byte) : List Byte :=
  let n := bs.length
  let msg := bs ++ 0x80 :: List.replicate ((239 - n % 128) % 128) 0 ++ beBytes 16 (8 * n)
  let words := (pieces 8 (n / 8 + 32) msg).map beNat
  (((pieces 16 (n / 128 + 2) words).foldl shaBlock shaInit).take 6).flatMap (beBytes 8)

/-! ## ECDSA on P-384 -/

/-- The prime of the field, the order of the group and the constant of the curve. -/
def ecP : Nat := 2 ^ 384 - 2 ^ 128 - 2 ^ 96 + 2 ^ 32 - 1
def ecN : Nat := 0xFFFFFFFFFFFFFFFFFFFFFFFFFFFFFFFFFFFFFFFFFFFFFFFFC7634D81F4372DDF581A0DB248B0A77AECEC196ACCC52973
def ecB : Nat := 0xB3312FA7E23EE7E4988E056BE3F82D19181D9C6EFE8141120314088F5013875AC656398D8A2ED19D2A85C8EDD3EC2AEF

/-- A point in Jacobian coordinates; Z is 0 at infinity. -/
structure EcPoint where
  x : Nat
  y : Nat
  z : Nat
deriving DecidableEq, Repr

/-- The base point. -/
def ecG : EcPoint := ⟨
  0xAA87CA22BE8B05378EB1C71EF320AD746E1D3B628BA79B9859F741E082542A385502F25DBF55296C3A545E3872760AB7,
  0x3617DE4A96262C6F5D9E98BF9292DC29F8F41DBD289A147CE9DA3113B5F0B8C00A60B1CE1D7E819D7A431D7C90EA0E5F, 1⟩

/-- Difference of two numbers below the prime. -/
def ecSub (a b : Nat) : Nat := (a + ecP - b) % ecP

/-- A point doubled. -/
def EcPoint.dbl (p : EcPoint) : EcPoint :=
  let d := p.z * p.z % ecP
  let g := p.y * p.y % ecP
  let b := p.x * g % ecP
  let a := 3 * ecSub p.x d * (p.x + d) % ecP
  let x := ecSub (a * a % ecP) (8 * b % ecP)
  ⟨x, ecSub (a * ecSub (4 * b % ecP) x % ecP) (8 * (g * g) % ecP), 2 * p.y * p.z % ecP⟩

/-- The sum of two points. -/
def EcPoint.add (p q : EcPoint) : EcPoint :=
  if p.z = 0 then q
  else if q.z = 0 then p
  else
    let zp := p.z * p.z % ecP
    let zq := q.z * q.z % ecP
    let u := p.x * zq % ecP
    let h := ecSub (q.x * zp % ecP) u
    let s := p.y * (q.z * zq) % ecP
    let r := ecSub (q.y * (p.z * zp) % ecP) s
    if h = 0 then (if r = 0 then p.dbl else ⟨1, 1, 0⟩)
    else
      let hh := h * h % ecP
      let hhh := h * hh % ecP
      let v := u * hh % ecP
      let x := ecSub (ecSub (r * r % ecP) hhh) (2 * v % ecP)
      ⟨x, ecSub (r * ecSub v x % ecP) (s * hhh % ecP), p.z * q.z * h % ecP⟩

/-- `u` times the base point plus `v` times `q`, over the `n` low bits of both, given their multiples' sum. -/
def ecComb (u v : Nat) (q gq : EcPoint) : Nat → EcPoint → EcPoint
  | 0, a => a
  | n + 1, a =>
    let a := a.dbl
    ecComb u v q gq n (match u.testBit n, v.testBit n with
      | true, true => a.add gq
      | true, false => a.add ecG
      | false, true => a.add q
      | false, false => a)

/-- `a` to the power of the `n` low bits of `e`, modulo the order of the group. -/
def powN (a e : Nat) : Nat → Nat → Nat
  | 0, r => r
  | n + 1, r => powN a e n (if e.testBit n then r * r % ecN * a % ecN else r * r % ecN)

/-- Whether ECDSA verifies a signature `(r, s)` of a 384-bit hash under the public key `(x, y)`. -/
def ecdsaOk (x y hash r s : Nat) : Bool :=
  let q : EcPoint := ⟨x, y, 1⟩
  let w := powN s (ecN - 2) 384 1
  let a := ecComb (hash * w % ecN) (r * w % ecN) q (q.add ecG) 384 ⟨1, 1, 0⟩
  let zz := a.z * a.z % ecP
  decide (0 < r ∧ r < ecN ∧ 0 < s ∧ s < ecN ∧ x < ecP ∧ y < ecP) &&
    decide (y * y % ecP = (x * x * x + (ecP - 3) * x + ecB) % ecP) && decide (a.z ≠ 0) &&
    (decide (r * zz % ecP = a.x) || (decide (r + ecN < ecP) && decide ((r + ecN) * zz % ecP = a.x)))

/-! ## AES-256-GCM -/

/-- Twice an element of the field of AES. -/
def gf2 (a : Nat) : Nat := if a < 128 then 2 * a else (2 * a) ^^^ 0x11B

/-- Product of two elements of the field of AES, over the `n` low bits of the second. -/
def gfMul (a b : Nat) : Nat → Nat
  | 0 => 0
  | n + 1 => gf2 (gfMul a (b / 2) n) ^^^ (if b % 2 = 1 then a else 0)

/-- The S-box of AES: the inverse (its 254th power) and the affine map. -/
def sbox (a : Nat) : Nat :=
  let p2 := gfMul a a 8
  let p3 := gfMul p2 a 8
  let p6 := gfMul p3 p3 8
  let p12 := gfMul p6 p6 8
  let p15 := gfMul p12 p3 8
  let p240 := (List.range 4).foldl (fun x _ => gfMul x x 8) p15
  let b := gfMul (gfMul p240 p12 8) p2 8
  let rot (i : Nat) : Nat := (b * 2 ^ i) % 256 ||| b / 2 ^ (8 - i)
  b ^^^ rot 1 ^^^ rot 2 ^^^ rot 3 ^^^ rot 4 ^^^ 0x63

/-- The 60 words of the key schedule, four bytes each, from a key of 32 bytes. -/
def aesKeys (key : List Nat) : List (List Nat) :=
  (List.range 52).foldl (fun ws i =>
    let t := ws.getD (i + 7) []
    let t := if i % 8 = 0 then
        let u := (t.rotate 1).map sbox
        u.set 0 (u.headD 0 ^^^ (List.range (i / 8)).foldl (fun x _ => gf2 x) 1)
      else if i % 8 = 4 then t.map sbox else t
    ws ++ [((ws.getD i []).zip t).map (fun p => p.1 ^^^ p.2)]) (pieces 4 8 key)

/-- One column through MixColumns. -/
def mixColumn (c : List Nat) : List Nat :=
  (List.range 4).map (fun i =>
    let g (k : Nat) : Nat := c.getD ((i + k) % 4) 0
    gf2 (g 0) ^^^ gf2 (g 1) ^^^ g 1 ^^^ g 2 ^^^ g 3)

/-- AES-256 of one block of 16 bytes under a key schedule. -/
def aesBlock (ks : List (List Nat)) (b : List Nat) : List Nat :=
  let addKey (s : List Nat) (r : Nat) : List Nat := (s.zip ((ks.drop (4 * r)).take 4).flatten).map (fun p => p.1 ^^^ p.2)
  (List.range 14).foldl (fun s r =>
    let s := s.map sbox
    let s := (List.range 16).map (fun i => s.getD ((5 * i) % 16) 0)
    addKey (if r = 13 then s else (pieces 4 4 s).flatMap mixColumn) (r + 1)) (addKey b 0)

/-- Product in the field of GHASH: `x` over its `n` low bits, times `v`. -/
def ghMul (x : Nat) : Nat → Nat → Nat → Nat
  | 0, _, z => z
  | n + 1, v, z => ghMul x n (v / 2 ^^^ (if v % 2 = 1 then 0xE1 * 2 ^ 120 else 0)) (if x.testBit n then z ^^^ v else z)

/-- GHASH of a byte string whose last block of 16 is padded with zeros. -/
def ghash (h : Nat) (y : Nat) (bs : List Byte) : Nat :=
  (pieces 16 (bs.length / 16 + 1) bs).foldl (fun y b => ghMul (y ^^^ beNat b * 256 ^ (16 - b.length)) 128 h 0) y

/-- Open a ciphertext under AES-256-GCM with a 96-bit IV: the plaintext, or none where the tag does not verify. -/
def gcmOpen (key iv aad ct tag : List Byte) : Option (List Byte) :=
  let ks := aesKeys (key.map (·.toNat))
  let enc (n : Nat) : Nat := beNat ((aesBlock ks ((iv ++ beBytes 4 n).map (·.toNat))).map (BitVec.ofNat 8))
  let h := beNat ((aesBlock ks (List.replicate 16 0)).map (BitVec.ofNat 8))
  let y := ghash h (ghash h 0 aad) ct
  let t := ghMul (y ^^^ (8 * aad.length * 2 ^ 64 + 8 * ct.length)) 128 h 0 ^^^ enc 1
  if beNat tag = t && tag.length = 16 then
    some ((((pieces 16 (ct.length / 16 + 1) ct).zipIdx).flatMap (fun b =>
      beBytes b.1.length (beNat b.1 ^^^ enc (b.2 + 2) / 256 ^ (16 - b.1.length)))))
  else none

end Sys2Proof.Machine
end

