-- ==== Sys2Proof/Machine/Routes.lean ====
section
/-! DEFINITION. Required routes (R372): following a route hop by hop through override and transit entries, the checks 5 to
7 over every required route, the transit entries that the bursar adds at the anchors (R360), the entries of a new
generation (R373), and the timebase tree (R65, chapter 03). -/

namespace Sys2Proof.Machine

/-- A set of route entries under check: overrides by `fn * 64 + i`, transit entries by `fn * 24 + i`, and the partition of
every field that FIELDS lists. -/
structure RouteSet where
  ovr : List (Nat × Word)
  tr : List (Nat × Word)
  owners : List (Nat × Nat)
  strict : Bool := false         -- the bursar's entries at F44 and F55 stand in `tr` (R360)
deriving DecidableEq, Repr

/-- A failed route check (R372): check code, field and value. -/
structure RouteBad where
  check : Nat
  fn : Nat
  value : Nat
deriving DecidableEq, Repr

/-- The fields of a lane: of a partition, or every listed field for the module lane. -/
def RouteSet.fieldsOf (r : RouteSet) (lane : Nat) : List Nat :=
  (r.owners.filter (fun e => lane = 0xFE || e.2 = lane)).map (·.1)

/-- The override entries of a router, as far as it holds any. -/
def RouteSet.ovrOf (r : RouteSet) (fn : Nat) : List Word :=
  (r.ovr.filter (fun e => e.1 / 64 = fn)).map (·.2)

/-- The transit entries of a router. -/
def RouteSet.trOf (r : RouteSet) (fn : Nat) : List Word := (r.tr.filter (fun e => e.1 / 24 = fn)).map (·.2)

/-- The lane that a transit entry gives a partition at an input port, if there is one. -/
def RouteSet.laneAt (r : RouteSet) (fn inp p : Nat) : Option Nat :=
  ((r.trOf fn).find? (fun e => bitsOf e 7 0 = p && bitsOf e 10 8 = inp + 1)).map (fun e => bitsOf e 18 16)

/-- Whether a route of a lane finds a lane at a field (R360); F44 and F55 receive theirs from the bursar. -/
def RouteSet.enters (r : RouteSet) (lane fn inp : Nat) : Bool :=
  lane = 0xFE || r.owners.any (fun e => e.1 = fn && e.2 = lane) || (r.laneAt fn inp lane).isSome ||
    (!r.strict && (fn = 44 || fn = 55))

/-- A route followed from its source: the routers entered with the input port, and the field at which it fails. -/
structure Walk where
  hops : List (Nat × Nat) := []
  bad : Option Nat := none
  done : Bool := false
deriving DecidableEq, Repr

/-- Follow a route of a lane from `fn` to `d`, at most `fuel` hops (R366). -/
def State.walk (st : State) (r : RouteSet) (lane : Nat) (yx : Bool) (d : Nat) : Nat → Nat → Nat → Walk
  | 0, _, _ => {}
  | fuel + 1, fn, inp =>
    if fn = d then { done := true }
    else
      let p := match (r.ovrOf fn).find? (fun e => ovrHit e d lane inp) with
        | some e => bitsOf e 30 28 - 1
        | none => defaultPort yx fn d
      if st.portDisabled fn p then { bad := some fn }
      else
        match Config.neighbour fn p with
        | none => { bad := some fn }
        | some n =>
          let i := (p + 2) % 4
          if !r.enters lane n i then { bad := some n, hops := [(n, i)] }
          else
            let w := State.walk st r lane yx d fuel n i
            { w with hops := (n, i) :: w.hops }

/-- The active and the standby anchor (R372). -/
def State.anchors (st : State) : List Nat :=
  let s := st.rf Reg.AXB_GRADE 31 24
  if s = 0xFF then [st.anchor] else [st.anchor, s]

/-- The required routes of a lane, by source and then destination (R372). -/
def State.required (st : State) (r : RouteSet) (lane : Nat) : List (Nat × Nat) :=
  let f := r.fieldsOf lane
  let a := st.anchors
  let all := Config.sites.filter (fun x => f.contains x || a.contains x)
  all.flatMap (fun s => (all.filter (fun d => d ≠ s &&
    ((lane ≠ 0xFE && f.contains s && f.contains d) || (a.contains s && f.contains d) || (f.contains s && a.contains d)))).map
      (fun d => (s, d)))

/-- The lanes that have fields, in the order of the checks: partitions ascending, then the module lane. -/
def RouteSet.lanes (r : RouteSet) : List Nat :=
  (List.range 16).filter (fun p => r.owners.any (fun e => e.2 = p)) ++ [0xFE]

/-- Every required route with its lane, its order and what following it gives. -/
def State.walks (st : State) (r : RouteSet) (lane : Nat) : List (Nat × Nat × Bool × Walk) :=
  (st.required r lane).map (fun e =>
    let yx := st.orderOf e.1 e.2
    (e.1, e.2, yx, st.walk r lane yx e.2 34 e.1 4))

/-- Whether a set of edges has a cycle: edges whose target has no edge of its own are removed until nothing changes. -/
def hasCycle : Nat → List ((Nat × Nat) × (Nat × Nat)) → Bool
  | 0, es => !es.isEmpty
  | fuel + 1, es =>
    let kept := es.filter (fun e => es.any (fun f => f.1 = e.2))
    if kept.length = es.length then !es.isEmpty else hasCycle fuel kept

/-- The buffer pairs that a route joins. -/
def walkEdges : List (Nat × Nat) → List ((Nat × Nat) × (Nat × Nat))
  | a :: b :: t => (a, b) :: walkEdges (b :: t)
  | _ => []

/-- The transit entries that the bursar adds at F44 and F55: one for each partition and input port by which a required
route enters, where the section gives none (R360), as far as the anchors' lanes and entries suffice. -/
def State.anchorFill (st : State) (r : RouteSet) : RouteSet :=
  let need : List (Nat × Nat × Nat) := [44, 55].flatMap (fun a => (List.range 16).flatMap (fun p =>
    if r.owners.any (fun e => e.2 = p) && !r.owners.any (fun e => e.1 = a && e.2 = p) then
      let w := st.walks r p
      (List.range 4).filterMap (fun i =>
        if w.any (fun x => x.2.2.2.hops.contains (a, i)) then some (a, p, i) else none)
    else []))
  need.foldl (fun r e =>
    if (r.laneAt e.1 e.2.2 e.2.1).isSome then r
    else
      let mine := r.trOf e.1
      let used := (mine.filter (fun t => bitsOf t 10 8 = e.2.2 + 1)).map (fun t => bitsOf t 18 16)
      match [2, 3, 4, 5, 6, 7].find? (fun l => !used.contains l) with
      | none => r
      | some l =>
        if 24 ≤ mine.length then r
        else
          let v : Word := BitVec.ofNat 64 (e.2.1 + (e.2.2 + 1) * 256 + l * 65536)
          { r with tr := tput 0 r.tr (e.1 * 24 + mine.length) v }) r

/-- Checks 5, 6 and 7 of R372, each over every required route before the next. -/
def State.routeCheck (st : State) (r : RouteSet) : Option RouteBad :=
  let all := r.lanes.map (fun l => (l, st.walks r l))
  let full := { st.anchorFill r with strict := true }
  let five := (r.lanes.map (fun l => (l, st.walks full l))).findSome? (fun e => e.2.findSome? (fun x =>
    x.2.2.2.bad.map (fun f => ({ check := 5, fn := f, value := x.2.1 } : RouteBad))))
  let six := all.findSome? (fun e => e.2.findSome? (fun x =>
    if !x.2.2.2.done || 32 < x.2.2.2.hops.length then some ({ check := 6, fn := x.1, value := x.2.1 } : RouteBad) else none))
  let seven := all.findSome? (fun e => [false, true].findSome? (fun b =>
    let es := (e.2.filter (fun x => x.2.2.1 = b)).flatMap (fun x => walkEdges x.2.2.2.hops)
    if hasCycle es.length es.dedup then some ({ check := 7, fn := 0xFF, value := e.1 + if b then 256 else 0 } : RouteBad)
    else none))
  (five.or six).or seven

/-! ## New generations (R373) -/

/-- Distances to `d` over enabled ports of the fields in `ok`: fields reached, with their hop counts. -/
def State.spread (st : State) (ok : List Nat) : Nat → Nat → List Nat → List (Nat × Nat) → List (Nat × Nat)
  | 0, _, _, seen => seen
  | fuel + 1, k, front, seen =>
    let next := ok.filter (fun f => !seen.any (fun e => e.1 = f) &&
      (List.range 4).any (fun p => !st.portDisabled f p && (Config.neighbour f p).any (fun n => front.contains n)))
    if next.isEmpty then seen else State.spread st ok fuel (k + 1) next (seen ++ next.map (fun f => (f, k + 1)))

/-- The port of the shortest path from `fn`, ties broken toward the lower field number. -/
def State.shortPort (st : State) (dist : List (Nat × Nat)) (fn : Nat) : Option Nat :=
  let here := (dist.find? (fun e => e.1 = fn)).map (·.2)
  let c := (List.range 4).filterMap (fun p => (Config.neighbour fn p).bind (fun n =>
    if st.portDisabled fn p then none
    else if (dist.find? (fun e => e.1 = n)).map (·.2 + 1) = here then some (n, p) else none))
  (c.foldl (fun (a : Option (Nat × Nat)) x => match a with
    | none => some x
    | some y => if x.1 < y.1 then some x else some y) none).map (·.2)

/-- The fields of the shortest path from `fn`, each with its output port. -/
def State.shortPath (st : State) (dist : List (Nat × Nat)) : Nat → Nat → List (Nat × Nat)
  | 0, _ => []
  | fuel + 1, fn =>
    match st.shortPort dist fn with
    | none => []
    | some p => (fn, p) :: State.shortPath st dist fuel ((Config.neighbour fn p).getD fn)

/-- Append an override at a router unless one for that destination and partition stands there. -/
def RouteSet.addOvr (r : RouteSet) (fn d lane p : Nat) : RouteSet :=
  let mine := r.ovrOf fn
  if mine.any (fun e => bitsOf e 7 0 = d && bitsOf e 23 16 = lane) || 64 ≤ mine.length then r
  else
    let v : Word := BitVec.ofNat 64 (d + d * 256 + lane * 65536 + (p + 1) * 2 ^ 28 + 2 ^ 31)
    { r with ovr := tput 0 r.ovr (fn * 64 + mine.length) v }

/-- Append a transit entry at a router: the lane that the present generation gives the partition there, or the lowest free
one. -/
def State.addTransit (st : State) (r : RouteSet) (fn inp p : Nat) : RouteSet :=
  let mine := r.trOf fn
  if (r.laneAt fn inp p).isSome || 24 ≤ mine.length then r
  else
    let used := (mine.filter (fun t => bitsOf t 10 8 = inp + 1)).map (fun t => bitsOf t 18 16)
    let old := ((List.range 24).map (fun i => tget 0 st.mesh.transit ((fn * 2 + st.mesh.gen % 2) * 24 + i))).find?
      (fun e => e ≠ 0 && bitsOf e 7 0 = p && bitsOf e 10 8 = inp + 1)
    let want := (old.map (fun e => bitsOf e 18 16)).filter (fun l => !used.contains l)
    match want.or ([2, 3, 4, 5, 6, 7].find? (fun l => !used.contains l)) with
    | none => r
    | some l => { r with tr := tput 0 r.tr (fn * 24 + mine.length) (BitVec.ofNat 64 (p + (inp + 1) * 256 + l * 65536)) }

/-- The entries of a new generation (R373): overrides along the shortest path of every required route whose default path
crosses a disabled port, and a transit entry wherever a required route enters a field of another partition. -/
def State.newRoutes (st : State) (owners : List (Nat × Nat)) : RouteSet :=
  let r0 : RouteSet := { ovr := [], tr := [], owners := owners }
  let r1 := r0.lanes.foldl (fun r lane => (st.required r lane).foldl (fun r e =>
    let yx := st.orderOf e.1 e.2
    if st.pathBlocked yx 20 e.1 e.2 then
      (st.shortPath (st.spread Config.sites 84 0 [e.2] [(e.2, 0)]) 84 e.1).foldl (fun r h =>
        if defaultPort yx h.1 e.2 = h.2 then r else r.addOvr h.1 e.2 lane h.2) r
    else r) r) r0
  r1.lanes.foldl (fun r lane =>
    if lane = 0xFE then r
    else (st.required r lane).foldl (fun r e =>
      let open_ : RouteSet := { r with owners := Config.sites.map (fun f => (f, lane)) }
      (st.walk open_ lane (st.orderOf e.1 e.2) e.2 34 e.1 4).hops.foldl (fun r h =>
        if owners.any (fun o => o.1 = h.1 && o.2 = lane) then r else st.addTransit r h.1 h.2 lane) r) r) r1

/-- The route entries of a bank as they stand. -/
def State.bankSet (st : State) (bank : Nat) : RouteSet :=
  { ovr := (st.mesh.ovr.filter (fun e => e.1 / 64 % 2 = bank)).map (fun e => (e.1 / 128 * 64 + e.1 % 64, e.2)),
    tr := (st.mesh.transit.filter (fun e => e.1 / 24 % 2 = bank)).map (fun e => (e.1 / 48 * 24 + e.1 % 24, e.2)),
    owners := st.brs.fields.map (fun e => (e.1, e.2.1)) }

/-- Write a route set into a bank of every router. -/
def State.setBank (st : State) (bank : Nat) (r : RouteSet) : State :=
  let ovr := st.mesh.ovr.filter (fun e => e.1 / 64 % 2 ≠ bank)
  let tr := st.mesh.transit.filter (fun e => e.1 / 24 % 2 ≠ bank)
  { st with mesh := { st.mesh with
    ovr := r.ovr.foldl (fun t e => tput 0 t ((e.1 / 64 * 2 + bank) * 64 + e.1 % 64) e.2) ovr,
    transit := r.tr.foldl (fun t e => tput 0 t ((e.1 / 24 * 2 + bank) * 24 + e.1 % 24) e.2) tr } }

/-- Whether two valid overrides may match one message, or two transit entries name one input port and partition (R371). -/
def RouteSet.overlaps (r : RouteSet) (fn : Nat) : Bool :=
  let o := (r.ovrOf fn).filter (fun e => e.getLsbD 31)
  let t := r.trOf fn
  (o.zipIdx).any (fun a => (o.zipIdx).any (fun b => a.2 < b.2 &&
    decide (bitsOf a.1 7 0 ≤ bitsOf b.1 15 8 ∧ bitsOf b.1 7 0 ≤ bitsOf a.1 15 8) &&
    (bitsOf a.1 23 16 = bitsOf b.1 23 16 || bitsOf a.1 23 16 = 0xFF || bitsOf b.1 23 16 = 0xFF) &&
    (bitsOf a.1 26 24 = bitsOf b.1 26 24 || bitsOf a.1 26 24 = 0 || bitsOf b.1 26 24 = 0))) ||
  (t.zipIdx).any (fun a => (t.zipIdx).any (fun b => a.2 < b.2 && bitsOf a.1 10 0 = bitsOf b.1 10 0))

/-- A router has loaded the route entries of the generation in force: MSH_ROUTE_STATUS shows it (R388). -/
def State.loadRoutes (st : State) (fn : Nat) : State :=
  let st := st.setField fn { st.field fn with routes := true }
  let r := Reg.MSH_ROUTE_STATUS fn
  let st := (st.wf r 63 48 st.mesh.gen).wf r 23 23 (st.mesh.gen % 2)
  if (st.bankSet (st.mesh.gen % 2)).overlaps fn then st.setb r 22 else st

/-- Grant the transit reservations of a partition that no lease names (R375, R376). -/
def State.grantTransit (st : State) (bank : Nat) (p : Nat) : State :=
  (st.mesh.transit.filter (fun e => e.1 / 24 % 2 = bank && bitsOf e.2 7 0 = p)).foldl (fun st e =>
    let fn := e.1 / 48
    let res := fn * 65536 + bitsOf e.2 10 8 * 256 + bitsOf e.2 18 16
    if st.leases.any (fun l => l.2.kind = 2 && l.2.resource = res && l.2.state ≠ 0) then st
    else (st.grantLease 2 (if fn = 44 || fn = 55 then 0xFF else st.owner fn) 3 p res).2) st

end Sys2Proof.Machine
end

