-- ==== Sys2Proof/Machine/Lifecycle.lean ====
section
/-! DEFINITION. The power of fields and partitions (chapters 04, 19): base and compute domains with the register resets of
R600, switch-ons and switch-offs (R94, R484, R623), the take-down (R482-R486) and its steps, the completion of START, WAKE
and RETAIN (R99, R100), and field retirement with the cut-off of fields (R31, R32). -/

namespace Sys2Proof.Machine

/-! ## Domains of a field (R91, R92, R600) -/

/-- First wafer address of a field. -/
def fieldBase (fn : Nat) : Nat := fn * 2 ^ 40

/-- Set the rail's set-point (R89). -/
def State.setRail (st : State) (fn code : Nat) : State :=
  let st := if st.rf (Reg.FLD_PWR_STATE fn) 23 16 = code then st
    else st.setField fn { st.field fn with bmRail := true }
  st.wf (Reg.FLD_PWR_STATE fn) 23 16 code

/-- Empty the cores and islands of a field. -/
def State.dropCores (st : State) (fn : Nat) : State :=
  { st with cores := tclear (fn * 4) (fn * 4 + 4) st.cores, isl := tclear (fn * 4) (fn * 4 + 4) st.isl }

/-- Empty Kevenlink port `p` beside its registers. -/
def State.dropKvl (st : State) (p : Nat) : State := { st with kvl := tclear p (p + 1) st.kvl }

/-- Empty the sensor ports of a field beside their registers. -/
def State.dropSnp (st : State) (fn : Nat) : State :=
  { st with snp := st.snp.filter (fun e => Config.snpField e.1 ≠ fn) }

/-- Reset of a field's compute domain: its registers take their reset values, its cores, islands and ports are empty, its
stores and the frames of regions 0 to 2 are lost (R92, R599, R600). -/
def State.computeReset (st : State) (fn : Nat) : State :=
  let w := Reg.win fn
  let st := st.resetRegs (w + 0x20000) (w + 0x38000)
  let st := st.dropCores fn
  let st := if Config.kvlPort fn < 8 then st.dropKvl (Config.kvlPort fn) else st
  let st := if Config.hasSnp fn then st.dropSnp fn else st
  let f := st.field fn
  let st := st.setField fn { f with frames := f.frames.filter (fun e => 0x6000 ≤ e.1),
                                    frameCrc := f.frameCrc.filter (fun e => 0x6000 ≤ e.1),
                                    blocks := [], spare := [], spareUsed := [], spareTotal := 0, repair := [],
                                    unloc := [], soft := [] }
  (st.clrb (Reg.FLD_CFG_STATUS fn) 31).clrb (Reg.FLD_RAMP_CTL fn) 31

/-- Clear every byte of a field's stores to zero with valid check bits (R343). -/
def State.clearStores (st : State) (fn : Nat) : State := st.zeroRange (fieldBase fn) (fieldBase (fn + 1))

/-- The entry of the sequencing table in force that lists a field, counted from 1. -/
def State.seqIndex (st : State) (fn : Nat) : Option Nat :=
  ((st.brs.seq.zipIdx).find? (fun e => e.1.fns.contains fn)).map (fun e => e.2 + 1)

/-- The initial rail code of a field: the INIT_CODE of the entry that lists it (R623). -/
def State.initCode (st : State) (fn : Nat) : Nat :=
  match st.brs.seq.find? (fun e => e.fns.contains fn) with
  | some e => if e.init = 0xFF then st.brs.defInit else e.init
  | none => st.brs.defInit

/-- FLD_PWR_STATE's PACE_GROUP and INIT_CODE as the active build gives them (log 5). -/
def State.buildPower (st : State) (fn : Nat) : State :=
  let g := ((st.brs.fields.find? (fun e => e.1 = fn)).map (·.2.2)).getD 0xFF
  (st.wf (Reg.FLD_PWR_STATE fn) 31 24 g).wf (Reg.FLD_PWR_STATE fn) 15 8 (st.initCode fn)

/-- OFF to BASE: the regulator is enabled at code 0, the registers of the base domain take their reset values, the node
acquires (R66 step 1, R600). The first measurement window after power-up starts here, before the field has joined the timebase
(R54, log 39). `full` marks a field that goes on to FULL in the same step (R96). -/
def State.baseOn (st : State) (fn : Nat) (full : Bool) : State :=
  let w := Reg.win fn
  let st := (st.resetRegs w (w + 0x20000)).resetRegs (w + 0x38000) (w + 0x40000)
  let f := st.field fn
  let st := st.setField fn { listed := f.listed, part := f.part, trips := f.trips, coolSince := f.coolSince,
                             tripped := f.tripped, baseAt := st.now, bmStart := st.now }
  let st := { st with
    car := { st.car with regulator := st.car.regulator.filter (· ≠ fn) ++ [fn] },
    mesh := { st.mesh with
      windows := tclear (fn * 4096) ((fn + 1) * 4096) st.mesh.windows,
      grants := tclear (fn * 256) ((fn + 1) * 256) st.mesh.grants } }
  (((st.setPower fn (if full then .moving else .base)).buildPower fn).nodeEnter fn 1).tbsUpdate

/-- Count the fields of a partition that are FULL (PWR_PART_STATE.FULL_COUNT). -/
def State.partCount (st : State) (p : Nat) : State :=
  if 16 ≤ p then st
  else st.wf (Reg.PWR_PART_STATE p) 23 16 ((st.partFields p).filter st.isFull).length

/-- PWR_ENTRY_STATUS.MODULE_CAP reads 1 while any field's module cap is below 50 (R88). -/
def State.moduleCapBit (st : State) : State :=
  st.wf Reg.PWR_ENTRY_STATUS 3 3
    (if Config.sites.any (fun fn => st.powered fn && st.rf (Reg.FLD_PLIMIT fn) 15 8 < 50) then 1 else 0)

/-- Entry into FULL, from BASE or RETAIN: the pace unit stands at the initial rail code with its caps at 50 (R114, R112,
R117); its loop starts when the partition goes ON (R99). -/
def State.enterFull (st : State) (fn : Nat) : State :=
  let st := (st.setPower fn .full).setRail fn (st.initCode fn)
  let st := ((st.wf (Reg.FLD_PLIMIT fn) 31 24 50).wf (Reg.FLD_PLIMIT fn) 23 16 50).wf (Reg.FLD_PLIMIT fn) 15 8 50
  let st := st.wf (Reg.FLD_PACE_STATUS fn) 23 16 50
  let st := st.setField fn { st.field fn with firstStep := true, beyond := 0, wasLow := false, hotSince := none,
                                              markMin := none, markCount := 0, lastStep := st.now, missed := 0,
                                              tripped := false, coolSince := none, paceOn := false }
  st.moduleCapBit.partCount (st.owner fn)

/-- Hold or release every core slot of a field in reset (R149 steps 6 and 7). -/
def State.holdCores (st : State) (fn : Nat) (on : Bool) : State :=
  let st := (List.range 4).foldl (fun st s => st.setCore fn s { st.core fn s with held := on }) st
  if on then st else st.ssGoOn fn

/-- Whether the partial load in progress names a field (R155). -/
def State.inPartial (st : State) (fn : Nat) : Bool :=
  match st.brs.partialImg with
  | some (p, i) => st.owner fn = p && (List.range (leAt (bytesAtImg i) 0x24 2)).any (fun k =>
      let o := 0x80 + 64 * k
      0x10 ≤ leAt (bytesAtImg i) o 1 && leAt (bytesAtImg i) (o + 2) 1 = fn)
  | none => false
where
  /-- The header and directory of an image. -/
  bytesAtImg (i : Image) : List Byte :=
    (List.range (0x80 + 64 * 1024)).map (fun k => tget 0 i.bytes k)

/-- BASE to FULL: the compute domain comes on cleared and held in reset, and waits for its sections (R149 step 6, R343). -/
def State.computeOn (st : State) (fn : Nat) : State :=
  let st := ((st.computeReset fn).clearStores fn).enterFull fn
  let st := st.holdCores fn true
  { st with brs := { st.brs with toLoad := st.brs.toLoad ++ [{ fn := fn, part2 := st.inPartial fn }] } }

/-- The core tellers of a field start, an idle slot's with its heartbeat only (R444, R450). -/
def State.tellersUp (st : State) (fn : Nat) : State :=
  let f := st.field fn
  let st := st.setField fn { f with beatAt := (List.range 3).foldl (fun t s => tput 0 t s st.now) f.beatAt }
  (List.range 3).foldl (fun st s => st.wf (Reg.FLD_TELLER_STATUS fn s) 34 32 (if st.present fn s then 2 else 3)) st

/-- A WAKE leaves a core with no valid weights, empty banks with no recorded TSHIFT, and no threshing suggestion (R199, R210,
R250, R275). -/
def State.wokenCore (st : State) (fn s : Nat) : State :=
  if st.present fn s then
    let st := st.setCore fn s (st.core fn s).emptied
    ((st.wn (Reg.GZC_BANK_EXP fn s) 0).wn (Reg.GZC_THRESH fn s) 0).refresh fn s
  else st

/-- RETAIN to FULL: the stores are kept; the cores hold no weights and sums, the core tellers are loaded again (R91, R100,
R199, R450). A field that the partial load in progress names is reset and reloaded with its bulk store kept (R155). -/
def State.wakeField (st : State) (fn : Nat) : State :=
  if st.inPartial fn then
    let st := (List.range 4).foldl (fun st s => if st.present fn s then st.cacheClean fn s else st) st
    let gran := (List.range 12).map (fun g => (Reg.STO_BULK_GRANULE fn g, st.rd (Reg.STO_BULK_GRANULE fn g)))
    let near := fieldBase fn + 0x100000000
    let st := (st.computeReset fn).zeroRange near (near + 0x1000000)
    let st := gran.foldl (fun st e => st.wr e.1 e.2) st
    let st := (st.enterFull fn).holdCores fn true
    { st with brs := { st.brs with toLoad := st.brs.toLoad ++ [{ fn := fn, part2 := true }] } }
  else
    let st := (st.enterFull fn).tellersUp fn
    let st := (List.range 4).foldl (fun st s => st.wokenCore fn s) st
    (List.range 4).foldl (fun st s => if (tget {} st.brs.islCfg (fn * 4 + s)).present then st.islUp fn s else st) st

/-- FULL to RETAIN (R91): slices and core tellers gated, contents kept, rail at code 0. -/
def State.retainField (st : State) (fn : Nat) : State :=
  let st := (st.setPower fn .retain).setRail fn 0
  let st := (List.range 4).foldl (fun st s => if (tget {} st.brs.islCfg (fn * 4 + s)).present then st.islDown fn s else st) st
  (List.range 3).foldl (fun st s => st.wf (Reg.FLD_TELLER_STATUS fn s) 34 32 0) st |>.partCount (st.owner fn)

/-- FULL, RETAIN or a transition to BASE: everything of the compute domain is lost (R92). -/
def State.toBase (st : State) (fn : Nat) : State :=
  let st := ((st.computeReset fn).clearStores fn).setPower fn .base
  let st := (List.range 3).foldl (fun st s => st.wf (Reg.FLD_TELLER_STATUS fn s) 34 32 0) (st.setRail fn 0)
  let st := { st with brs := { st.brs with toLoad := st.brs.toLoad.filter (fun t => t.fn ≠ fn) } }
  st.partCount (st.owner fn)

/-- Flits held by the router of a field that goes off are lost and counted by none: the router is off. The flits that followed
a head there meet a down port (R621). -/
def State.dropAt (st : State) (fn : Nat) : State :=
  let st := (st.mesh.flights.filter (fun f => f.loc = fn)).foldl (fun st f => st.dropFlits f fn) st
  { st with mesh := { st.mesh with flights := st.mesh.flights.filter (fun f => f.loc ≠ fn) } }

/-- To OFF: the regulator is disabled and nothing is kept (R91). -/
def State.toOff (st : State) (fn : Nat) : State :=
  let st := if (st.field fn).power = .base then st else st.toBase fn
  let f := st.field fn
  let st := (st.setPower fn .off).dropAt fn
  let st := st.setField fn { listed := f.listed, part := f.part, trips := f.trips, coolSince := f.coolSince,
                             tripped := f.tripped, retiring := f.retiring }
  let st := st.nodeEnter fn 0
  /- no mirror while F55 is off (R463) -/
  let st := if fn = st.rf Reg.AXB_GRADE 31 24 then st.clrb Reg.AXB_BURSAR_STATUS 0 else st
  { st with car := { st.car with regulator := st.car.regulator.filter (· ≠ fn) } }.moduleCapBit.tbsUpdate

/-! ## Partition state and commands -/

/-- Write PWR_PART_STATE.STATE and raise PARTITION_STATE to PF0 and to the VF (R99, R483). -/
def State.partEnter (st : State) (p s cause : Nat) : State :=
  let st := st.wf (Reg.PWR_PART_STATE p) 2 0 s
  st.notice 0x26 p 0xFF 0xFF 0xFF s (cause + st.rf (Reg.PWR_PART_STATE p) 31 24 * 256)

/-- Give a command's item its status: of R462 where it came from a management queue, of R503 otherwise. -/
def State.endCmd (st : State) (num mgmt work detail : Nat) : State :=
  match st.item num with
  | none => st
  | some x => st.endItem num (if x.item.managed then mgmt else work) 0 detail

/-- End the power command of a partition, if one is running. -/
def State.endPart (st : State) (p mgmt work detail : Nat) : State :=
  match (st.part p).cmd with
  | none => st
  | some n => (st.endCmd n mgmt work detail).setPart p { st.part p with cmd := none }

/-- One update of the ledger (R534): SEQ has become odd and even again, and TIME is written. -/
def State.ledgerEvent (st : State) : State :=
  { st with brs := { st.brs with ledgerSeq := (st.brs.ledgerSeq + 2) % 2 ^ 32, ledgerTime := st.now } }

/-- What the ledger holds of a field's cores. -/
def State.ledOf (st : State) (fn : Nat) : LedField := tget {} st.brs.led fn

/-- Change what the ledger holds of a field's cores. -/
def State.setLed (st : State) (fn : Nat) (x : LedField) : State :=
  { st with brs := { st.brs with led := tput {} st.brs.led fn x } }

/-- LOAD_END with AXB_CFG_ERR and the BUILD_ID of the load (R149, R155). -/
def State.loadNotice (st : State) (build : Nat) : State :=
  st.notice 0x27 0xFF 0xFF 0xFF 0xFF (st.rn Reg.AXB_CFG_ERR) build

/-- End a partial load of partition `p` that a take-down with `status` cuts off (R486); where it is a section failure after the
commit point, the record carries its code (R162). -/
def State.endLoadOf (st : State) (p status : Nat) : State :=
  match st.brs.partialImg with
  | some (q, _) =>
    if q = p then
      let st := match st.brs.loadBy with
        | some n => if status = 4 then st.endCmd n 7 0xF (st.rn Reg.AXB_CFG_ERR) else st.endCmd n 2 0xE 4
        | none => st
      ({ st with brs := { st.brs with partialImg := none, loadBy := none } }.clrb Reg.AXB_CFG_STATUS 9).loadNotice
        (st.rn (Reg.AXB_CFG_PART_BUILD p))
    else st
  | none => st

/-- The wafer side of a load has ended: STATE ACTIVE, or FAILED when no partition is ON, and LOAD_END (R149 step 8, R152).
The command's item gets its status, and LOAD with AXB_CFG_ERR where a section failed after the commit point (R162). -/
def State.loadEnd (st : State) (err build : Nat) : State :=
  let st := match st.brs.loadBy with
    | some n => st.endCmd n (if err = 0 then 0 else 7) (if err = 0 then 0 else 0xF) (st.rn Reg.AXB_CFG_ERR)
    | none => st
  ({ st with brs := { st.brs with loadBy := none } } : State).loadNotice build

/-- Queue the switch-off of every field that is up and that `keep` does not hold back, beside the anchors. -/
def State.offUnless (st : State) (keep : Nat → Bool) : State :=
  let l := (Config.sites.filter (fun fn => st.powered fn && fn ≠ 44 && fn ≠ 55 && !keep fn)).reverse
  { st with brs := { st.brs with offs := st.brs.offs ++ l.map (fun fn => { fn := fn, target := .off, entry := 0, who := 0xFE }) } }

/-- The module returns to unconfigured (R152, R145, R535, R540): no build, no partitions, no field beyond the anchors. -/
def State.unconfigure (st : State) : State :=
  let st := (((st.wf Reg.AXB_CFG_STATUS 27 24 0).clrb Reg.AXB_CFG_STATUS 8).wn Reg.AXB_CFG_BUILD 0).wf Reg.AXB_REVISION 23 8 0
  let st := { st with
    brs := { st.brs with image := none, fields := [], parts := [], carve := [], kvlOwned := [], snpOwned := [], utxOwned := [],
                         marks := [], groups := [], label := [], tags := [], partImgs := [], ons := [], seq := [], led := [] } }
  let st := Config.sites.foldl (fun st fn => st.setField fn { st.field fn with listed := false, part := 0xFF }) st
  let st := (List.range 16).foldl (fun st p => st.wf (Reg.PWR_PART_STATE p) 15 8 0) st
  (st.offUnless (fun _ => false)).ledgerEvent

/-- Partition `p` no longer keeps a full load waiting (R149 step 8): the last one ends it. -/
def State.settlePart (st : State) (p : Nat) : State :=
  if !st.brs.settling.contains p then st
  else
    let st := { st with brs := { st.brs with settling := st.brs.settling.filter (· ≠ p) } }
    if st.brs.settling.isEmpty then
      let ok := (List.range 16).any (fun q => (st.part q).defined &&
        (st.partState q ≠ 0 || (st.part q).failing = 0))
      let build := st.rn Reg.AXB_CFG_BUILD
      let st := st.wf Reg.AXB_CFG_STATUS 3 0 (if ok then 3 else 4)
      (if ok then st else st.unconfigure).loadEnd (if ok && !st.brs.lateErr then 0 else 1) build
    else st

/-! ## Switch-offs (R483 step 7, R484) -/

/-- Whether a field's router carries transit lanes (R92, R376). -/
def State.carriesTransit (st : State) (fn : Nat) : Bool :=
  (List.range 24).any (fun i => tget 0 st.mesh.transit ((fn * 2 + st.mesh.gen % 2) * 24 + i) ≠ 0)

/-- Where a field goes at a take-down: BASE for F44, F55 and a field that carries transit lanes, else OFF. -/
def State.fallTo (st : State) (fn : Nat) : Power :=
  if fn = 44 || fn = 55 || st.carriesTransit fn then .base else .off

/-- Fields in reverse table order; fields that the table does not list come last, in descending FN. -/
def State.reverseOrder (st : State) (l : List Nat) : List Nat :=
  let t := (st.brs.seq.flatMap (·.fns)).reverse
  (t.filter l.contains) ++ (l.reverse.filter (fun f => !t.contains f))

/-- The fields of a partition that its take-down has still to switch off. -/
def State.stillUp (st : State) (p : Nat) : List Nat :=
  (st.partFields p).filter (fun fn =>
    let w := (st.field fn).power
    st.usable fn && w != .off && !(w == .base && st.fallTo fn == .base))

/-- Step 8 of R483: the partition is OFF; its command and the load that waits for it settle. -/
def State.partOff (st : State) (p : Nat) : State :=
  let cause := st.rf (Reg.AXB_PART_DOWN_CAUSE p) 7 0
  let failing := (st.part p).failing
  let st := st.partEnter p 0 cause
  let st := st.partCount p
  let st := st.endPart p (if cause < 3 then 0 else if failing = 4 then 7 else 2) (if cause < 3 then 0 else 0xE) 0
  st.settlePart p

/-- Whether a lease's holder lies in partition `p`. -/
def State.holderIn (st : State) (l : Lease) (p : Nat) : Bool :=
  ((l.hkind = 1 || l.hkind = 2 || l.hkind = 6) && st.owner (l.holder / 256) = p) ||
    (l.hkind = 3 && l.holder = p) || (l.hkind = 4 && st.kvlOwner l.holder = p) || (l.hkind = 5 && l.holder = p + 1)

/-- Whether a lease falls under the take-down of partition `p` (R483 step 2): its own or one that a party of it holds, but
not another partition's transit lane (R376). -/
def State.fallLease (st : State) (l : Lease) (p : Nat) : Bool :=
  (l.owner = p && !(l.kind = 2 && l.holder ≠ p)) || st.holderIn l p

/-- Whether a partition's sensor ports have stopped (R567) and none of its leases is under revocation (R483 steps 4, 5). -/
def State.fallReady (st : State) (p : Nat) : Bool :=
  !st.leases.any (fun e => e.2.state = 2 && st.fallLease e.2 p) &&
    (List.range 8).all (fun n => st.snpOwner n ≠ p || !st.isFull (Config.snpField n) || st.snpState n = 0)

/-- Steps 6 to 8 of R483, as far as they can go now: the tallies are cleared and the switch-offs queued once steps 4 and 5
are over, and the partition is OFF once every field is down. -/
def State.fallOn (st : State) (p : Nat) : State :=
  if st.partState p ≠ 4 || !st.fallReady p then st
  else
    let up := st.stillUp p
    if up.isEmpty then st.partOff p
    else if st.brs.offs.any (fun s => s.who = p) then st
    else
      let st := st.clearTallies (st.part p).blocks
      let sw := (st.reverseOrder up).map (fun fn => ({ fn := fn, target := st.fallTo fn, entry := 0, who := p } : Switch))
      { st with brs := { st.brs with offs := st.brs.offs ++ sw } }

/-! ## Take-down (R482, R483) -/

/-- Steps 1 to 4 of a take-down: FALLING, the record of its cause, leases quarantined, cores flushed with their items
abandoned and recorded, ports and queues taken down. `cmd` is the item that commanded it; it ends a command that was running. -/
def State.takeDown (st : State) (p cause status : Nat) (cmd : Option Nat := none) : State :=
  if 16 ≤ p || st.partState p = 0 || st.partState p = 4 then st
  else
    /- step 1 -/
    let st := (st.wf (Reg.PWR_PART_STATE p) 31 24 status).clrb Reg.HST_READY (16 + p)
    let d := Reg.AXB_PART_DOWN_CAUSE p
    let st := ((st.wn (Reg.AXB_PART_DOWN_TIME p) st.now).addSat d 63 48 1).wf d 7 0 cause
    let st := st.endLoadOf p status
    let st := if cmd.isSome then st.endPart p 2 0xE 4 else st
    let x := st.part p
    let st := st.setPart p { x with loading := false, failing := status, drainAt := none, cmd := cmd.or x.cmd }
    let st := { st with brs := { st.brs with
      ons := st.brs.ons.filter (fun s => s.who ≠ p),
      toLoad := st.brs.toLoad.filter (fun t => st.owner t.fn ≠ p) } }
    let st := st.partEnter p 4 cause
    /- step 2 -/
    let st := st.quarantineAll 3 (fun l => st.fallLease l p)
    /- step 3 -/
    let st := (st.partFields p).foldl (fun st fn =>
      (List.range 4).foldl (fun st s =>
        if st.isFull fn && st.present fn s then (st.flushCore fn s).abandonSlot fn s 3 else st) st) st
    /- step 4 -/
    let st := (List.range 8).foldl (fun st k => if st.kvlOwner k = p then st.kvlLeave k else st) st
    let st := (List.range 8).foldl (fun st n => if st.snpOwner n = p then st.snpDownPort n else st) st
    /- the records of step 3 are posted before the queues are flushed (R508) -/
    let st := st.postItems p st.host.started.length
    let st := (List.range (st.part p).queues).foldl (fun st q => st.flushQueue (p * 256 + q)) st
    st.fallOn p

/-- A take-down by the bursar (causes 3 and up): it is recorded with SCOPE 3 under its class (R482). -/
def State.bursarDown (st : State) (p cause status cls fn d0 d1 : Nat) : State :=
  if 16 ≤ p || st.partState p = 0 || st.partState p = 4 then st
  else (st.fault cls 3 p fn 0xFF 0xFF d0 d1).takeDown p cause status

/-! ## Coming up (R99) -/

/-- Whether every transit-only field that the partition's required routes cross has committed (R151). -/
def State.transitReady (st : State) (p : Nat) : Bool :=
  let r := st.bankSet (st.mesh.gen % 2)
  let mine := r.fieldsOf p
  [p, 0xFE].all (fun lane =>
    ((st.walks r lane).filter (fun w => lane = p || mine.contains w.1 || mine.contains w.2.1)).all (fun w =>
      w.2.2.2.hops.all (fun h => !(st.brs.fields.any (fun e => e.1 = h.1 && e.2.1 = 0xFF)) ||
        st.rb (Reg.FLD_CFG_STATUS h.1) 31)))

/-- The pace loop of a field starts (R99). -/
def State.paceStart (st : State) (fn : Nat) : State :=
  st.setField fn { st.field fn with paceOn := true, lastStep := st.now }

/-- RISING to ON once every field is FULL and loaded (R99, R149 step 8): the pace loops start, VF_READY is set and Kevenlink
ports that are enabled begin to train. -/
def State.riseOn (st : State) (p : Nat) : State :=
  if 16 ≤ p || st.partState p ≠ 1 then st
  else if (st.partFields p).all (fun fn => st.isFull fn && st.rb (Reg.FLD_CFG_STATUS fn) 31 &&
      !st.brs.toLoad.any (fun t => t.fn = fn)) && !st.brs.ons.any (fun s => s.who = p) && st.transitReady p then
    let st := (st.wf (Reg.PWR_PART_STATE p) 31 24 0).setb Reg.HST_READY (16 + p)
    let st := (st.partFields p).foldl (fun st fn => st.paceStart fn) ((st.partEnter p 2 0).partCount p)
    let st := st.endPart p 0 0 0
    let st := st.setPart p { st.part p with loading := false }
    let st := (List.range 8).foldl (fun st k =>
      if st.kvlOwner k = p && st.rb (Reg.KVL_CTL (Config.kvlField k)) 0 && st.kvlState k = 0 then st.kvlEnter k 1 else st) st
    let st := match st.brs.partialImg with
      | some (q, _) =>
        if q = p then
          let st := { st with brs := { st.brs with partialImg := none } }
          (st.clrb Reg.AXB_CFG_STATUS 9).loadEnd 0 (st.rn (Reg.AXB_CFG_PART_BUILD p))
        else st
      | none => st
    /- committed work items that waited through RETAINED go on -/
    let st := (List.range (st.part p).queues).foldl (fun st q => st.pump (p * 256 + q) 64) st
    st.settlePart p
  else st

/-- Grant the leases of a partition's own resources that no entry names: granules to their initial holders, tally blocks
that no Kevenlink port holds to the partition, ports, the tally blocks leased to Kevenlink ports, and its transit lanes
(R475, R477, R483, R376). -/
def State.grantOwn (st : State) (p : Nat) : State :=
  let held (st : State) (k r : Nat) : Bool := st.leases.any (fun l => l.2.kind = k && l.2.resource = r && l.2.state ≠ 0)
  let give (st : State) (k hk h r : Nat) : State := if held st k r then st else (st.grantLease k p hk h r).2
  let st := (st.brs.carve.filter (fun e => st.owner (e.1 / 12) = p)).foldl (fun st e =>
    give st 7 1 (e.1 / 12 * 256 + e.2) (e.1 / 12 * 16 + e.1 % 12)) st
  let ports := st.brs.kvlOwned.filter (fun e => st.kvlOwner e.1 = p)
  let st := ports.foldl (fun st e =>
    (bitList 32 e.2.2).foldl (fun st b => give st 4 4 e.1 b) (give st 6 3 p e.1)) st
  let st := (bitList 32 (st.part p).blocks).foldl (fun st b => give st 4 3 p b) st
  let st := (st.brs.snpOwned.filter (fun n => st.snpOwner n = p)).foldl (fun st n => give st 5 3 p n) st
  st.grantTransit (st.mesh.gen % 2) p

/-- STO_BULK_GRANULEg of a field from the lease table (R342, R358). -/
def State.granuleRegs (st : State) (fn : Nat) : State :=
  (List.range 12).foldl (fun st g =>
    let r := Reg.STO_BULK_GRANULE fn g
    let own := st.brs.carve.any (fun e => e.1 = fn * 12 + g)
    match st.leases.find? (fun l => l.2.kind = 7 && l.2.resource = fn * 16 + g && l.2.state = 1) with
    | some (i, l) => ((st.wf r 31 24 (st.owner fn)).wf r 23 16 (l.holder % 256)).wf r 11 0 i
    | none => ((st.wf r 31 24 (if own then st.owner fn else 0xFF)).wf r 23 16 0xFF).wf r 11 0 0) st

/-- Queue the switch-ons of a partition's fields: packed in table order (R101, R623). -/
def State.queueOns (st : State) (p : Nat) : State :=
  let t := st.brs.seq.flatMap (·.fns)
  let mine := (st.partFields p).filter (fun fn => st.inService fn && !st.isFull fn)
  let ord := t.filter mine.contains ++ mine.filter (fun f => !t.contains f)
  { st with brs := { st.brs with
    ons := st.brs.ons ++ ord.map (fun fn => { fn := fn, target := .full, entry := 0, who := p }) } }

/-- The counters of queues and contexts count from the partition's last START (R519), which leaves every object entry
invalid (R505). -/
def State.zeroCounters (st : State) (p : Nat) : State :=
  let st := (List.range (st.part p).queues).foldl (fun st q => st.wf (Reg.QUE_Q_STATUS p q) 31 8 0) st
  let st := (List.range (st.part p).contexts).foldl (fun st c =>
    (st.wf (Reg.QUE_CTX_ERR p c) 15 0 0).wn (Reg.QUE_CTX_DONE p c) 0) st
  st.clearRegs (Reg.QUE_OBJ p 0) (Reg.QUE_OBJ p 256)

/-- Begin START, WAKE or a partial load: RISING with the partition's leases granted (R99, R483). -/
def State.beginRise (st : State) (p : Nat) (loading : Bool) : State :=
  let st := if st.partState p = 0 then st.zeroCounters p else st
  let st := (st.grantOwn p).setPart p { st.part p with loading := loading, failing := 0 }
  let st := st.wf (Reg.PWR_PART_STATE p) 31 24 0
  st.partEnter p 1 0

/-- Whether START is refused after a thermal trip: a field of the partition has not been at or below 85 degrees for
100 ms (R300). -/
def State.hotFields (st : State) (p : Nat) : Bool :=
  (st.partFields p).any (fun fn => (st.field fn).tripped && !(st.field fn).coolSince.any (· + 100000000 ≤ st.now))

/-- RETAIN has drained, or its drain has ended: the fields go to RETAIN in one action (R99, R100). -/
def State.retainDone (st : State) (p : Nat) : State :=
  let st := (List.range 8).foldl (fun st k => if st.kvlOwner k = p then st.kvlLeave k else st) st
  let st := (List.range 8).foldl (fun st n => if st.snpOwner n = p then st.snpDownPort n else st) st
  let st := st.clrb Reg.HST_READY (16 + p)
  let st := (st.partFields p).foldl (fun st fn => if st.isFull fn then st.retainField fn else st) st
  let st := st.setPart p { st.part p with drainAt := none }
  (st.partEnter p 3 0).endPart p 0 0 0

/-- Whether every core of a partition is idle and serves no item. -/
def State.partIdle (st : State) (p : Nat) : Bool :=
  (st.partFields p).all (fun fn => !st.isFull fn || (List.range 4).all (fun s =>
    !st.present fn s || ((st.core fn s).idle && (st.slotItems fn s).isEmpty)))

/-- A running RETAIN goes on once the partition's cores are idle. -/
def State.retainOn (st : State) (p : Nat) : State :=
  if 16 ≤ p || (st.part p).drainAt.isNone || !st.partIdle p then st else st.retainDone p

/-! ## Retirement (R31, R32) -/

/-- The fields that the anchor reaches over enabled ports of the fields in `ok`. Where the anchor's own field has been
retired, only that field is reached (log 36). -/
def State.reachedOver (st : State) (ok : List Nat) : List Nat := (st.spread ok 84 0 [st.anchor] [(st.anchor, 0)]).map (·.1)

/-- The fields that the anchor reaches over enabled ports of usable fields. -/
def State.reachable (st : State) : List Nat := st.reachedOver Config.sites

/-- The fields that the anchor reaches over enabled ports of powered fields. -/
def State.reachedUp (st : State) : List Nat := st.reachedOver (Config.sites.filter st.powered)

/-- The fields that a retirement or link failure cuts off: usable ones that no enabled path joins to the anchor, and powered
ones that the anchor reached before over powered fields and reaches no more (R32). -/
def State.cutOff (st before : State) : List Nat :=
  let st := st.planned
  let ok := st.reachable
  let up := st.reachedUp
  let was := before.planned.reachedUp
  Config.sites.filter (fun f => st.usable f && (!ok.contains f || (st.powered f && was.contains f && !up.contains f)))

/-- The last steps of a retirement: the field is powered off, its AXB_FIELD_RETIRED bit is set, and it is written to the
retirement list in flash (R31). -/
def State.retireOff (st : State) (fn : Nat) : State :=
  let p := st.owner fn
  let st := (st.toOff fn).markRetired fn
  let fl := st.car.flash
  let st := { st with
    car := { st.car with flash := { fl with
      retireLo := if fn < 64 then fl.retireLo ||| 2 ^ fn else fl.retireLo,
      retireHi := if fn < 64 then fl.retireHi else fl.retireHi ||| 2 ^ (fn - 64) } },
    brs := { st.brs with ons := st.brs.ons.filter (fun s => s.fn ≠ fn), offs := st.brs.offs.filter (fun s => s.fn ≠ fn),
                         toLoad := st.brs.toLoad.filter (fun t => t.fn ≠ fn) } }
  let st := st.setField fn { st.field fn with retiring := 0 }
  let st := (st.setLed fn { spareTotal := (st.ledOf fn).spareTotal }).ledgerEvent
  let st := (st.partCount p).fallOn p
  if st.powered st.anchor then st.tbsUpdate else st

/-- Whether a field's router carries messages that its retirement must let drain (R31, R373): one that the anchor reaches,
under an active build. -/
def State.drainsFirst (st : State) (fn : Nat) : Bool :=
  (st.field fn).routes && st.brs.running && !st.brs.fields.isEmpty && st.reachedUp.contains fn

/-- Retire one field (R31, R309, R482): its leases are quarantined, the retirement is recorded, a new route generation is
owed, and its partition is taken down. A field whose router carries messages stays powered until they have drained. -/
def State.retireOne (st : State) (fn cause down status : Nat) : State :=
  if !st.inService fn then st
  else
    let p := st.owner fn
    let st := st.quarantineAll 2 (Lease.ofField fn)
    let st := (List.range 4).foldl (fun st s => st.abandonSlot fn s 2) st
    let up := p < 16 && st.partState p ≠ 0 && st.partState p ≠ 4
    let st := st.fault 0x13 (if up then 3 else 2) p fn 0xFF 0xFF cause 0
    let st := { st with mesh := { st.mesh with owed := true } }
    let st := if st.drainsFirst fn then st.setField fn { st.field fn with retiring := 1 } else st.retireOff fn
    if up then st.takeDown p down status else st

/-- Retire a field, and with it every field that the anchor no longer reaches over enabled ports (R31, R32). -/
def State.retireField (st : State) (fn cause down status : Nat) : State :=
  if !st.inService fn then st
  else
    let before := st
    let st := st.retireOne fn cause down status
    (st.cutOff before).foldl (fun st f => st.retireOne f 3 3 0) st

/-- A field that does not come up (R102): ERR 0x10 with its number, and retirement with the given cause of R309. -/
def State.upFailure (st : State) (fn cause : Nat) : State :=
  let st := (st.wf Reg.PWR_SEQ_STATUS 31 24 0x10).wf Reg.PWR_SEQ_STATUS 23 16 fn
  st.retireField fn cause 7 3

end Sys2Proof.Machine
end

