-- ==== Sys2Proof/Machine/Image.lean ====
section
/-! DEFINITION. Bitstream images (chapters 05, 06, 19, 21, 23): the header and directory (R128-R132), the section bodies and
every check that the bursar applies to them before the commit point (R97, R124, R134-R139, R163-R175, R368-R372, R474-R478,
R531-R532, R573-R577, R620), in the order the rules give, with the error that the first failed check reports (R161). -/

namespace Sys2Proof.Machine

/-! ## Reading an image -/

/-- A directory entry (R129) with its index. -/
structure DirEnt where
  idx : Nat
  typ : Nat
  flags : Nat
  fn : Nat
  length : Nat
  offset : Nat
  digest : List Byte
deriving DecidableEq, Repr

/-- What a refused load writes into the detail registers beside AXB_CFG_ERR: nothing, or the check, unit and value of a
CORE (R175), ROUTE (R372), PARTITION, CARVE or PORTS (R478) or ISLAND check (R577), or the code and field of R97. -/
inductive ErrDetail where
  | plain
  | core (check slot value : Nat)
  | route (check fn value : Nat)
  | part (check unit value : Nat)
  | isl (check fn value : Nat)
  | seq (err fn : Nat)
deriving DecidableEq, Repr

/-- A load error (R161): code, field, directory index and detail. -/
structure LoadErr where
  code : Nat
  fn : Nat := 0xFF
  sec : Nat := 0xFFFF
  detail : ErrDetail := .plain
deriving DecidableEq, Repr

/-- The first error of a list of checks. -/
def firstErr (l : List (Option LoadErr)) : Option LoadErr := l.findSome? (fun e => e)

/-- An error when a condition holds. -/
def errIf (c : Bool) (e : LoadErr) : Option LoadErr := if c then some e else none

/-- `n` bytes of an image; those of a long range are looked up among the range's own entries. -/
def imgAt (i : Image) (off n : Nat) : List Byte :=
  let near := if n ≤ 8 then i.bytes else i.bytes.filter (fun e => Nat.ble off e.1 && Nat.blt e.1 (off + n))
  (List.range n).map (fun k => tget 0 near (off + k))

/-- Little-endian number of `n` bytes of an image: R2 governs every multi-byte field that R127 does not name. -/
def imgU (i : Image) (off n : Nat) : Nat := leNat (imgAt i off n)

def imgKind (i : Image) : Nat := imgU i 0x06 1
def imgEnc (i : Image) : Bool := imgU i 0x07 1 % 2 = 1
def imgBuild (i : Image) : Nat := imgU i 0x08 8
def imgReq (i : Image) : Nat := imgU i 0x1C 4
def imgPart (i : Image) : Nat := imgU i 0x26 1
def imgCount (i : Image) : Nat := imgU i 0x24 2
def imgSig (i : Image) : Nat := imgU i 0x2C 4

/-- The section directory. -/
def imgDir (i : Image) : List DirEnt :=
  (List.range (min 1024 (imgCount i))).map (fun k =>
    let o := 128 + 64 * k
    { idx := k, typ := imgU i o 1, flags := imgU i (o + 1) 1, fn := imgU i (o + 2) 1,
      length := imgU i (o + 4) 4, offset := imgU i (o + 8) 8, digest := imgAt i (o + 0x10) 48 })

def DirEnt.enc (e : DirEnt) : Bool := e.flags % 2 = 1

/-- The stored bytes of a section. -/
def imgStored (i : Image) (e : DirEnt) : List Byte := imgAt i e.offset e.length

/-- The plaintext of an encrypted section under the module key, where its tag verifies: ciphertext and tag, the IV of IV_BASE and
the directory index, BUILD_ID and the head of the entry as additional data (R142). -/
def imgOpen (key : Option (List Byte)) (i : Image) (e : DirEnt) : Option (List Byte) :=
  let b := imgStored i e
  key.bind (fun k => if e.length < 16 then none
    else gcmOpen k (imgAt i 0x38 8 ++ leBytes 4 e.idx) (imgAt i 8 8 ++ imgAt i (128 + 64 * e.idx) 16)
      (b.take (e.length - 16)) (b.drop (e.length - 16)))

/-- The plaintext of a section body; empty where its tag does not verify. -/
def imgBody (key : Option (List Byte)) (i : Image) (e : DirEnt) : List Byte :=
  if e.enc then (imgOpen key i e).getD [] else imgStored i e

/-- The section of a type for a field, 0xFF for a module section. -/
def imgSec (i : Image) (typ fn : Nat) : Option DirEnt := (imgDir i).find? (fun e => e.typ = typ && e.fn = fn)

/-- The plaintext of a section by type and field; empty where the image has none. -/
def imgSecBody (key : Option (List Byte)) (i : Image) (typ fn : Nat) : List Byte := ((imgSec i typ fn).map (imgBody key i)).getD []

/-- Section bodies under the module's key. -/
def State.body (st : State) (i : Image) (e : DirEnt) : List Byte := imgBody st.car.fuses.aesKey i e
def State.secBody (st : State) (i : Image) (typ fn : Nat) : List Byte := imgSecBody st.car.fuses.aesKey i typ fn

/-- Whether bytes `[lo, hi)` of a body are zero. -/
def zerosIn (b : List Byte) (lo hi : Nat) : Bool := (bytesAt b lo (hi - lo)).all (· = 0)

/-- Offset of the first byte that is not zero in `[lo, hi)`. -/
def firstSet (b : List Byte) (lo hi : Nat) : Option Nat :=
  ((List.range (hi - lo)).find? (fun k => leAt b (lo + k) 1 ≠ 0)).map (lo + ·)

/-! ## Check sums -/

/-- Eight steps of a reflected CRC. -/
def crcByte (poly c : Nat) : Nat :=
  (List.range 8).foldl (fun c _ => if c % 2 = 1 then (c / 2) ^^^ poly else c / 2) c

/-- A reflected CRC-32 with initial value and final XOR 0xFFFFFFFF: polynomial 0xEDB88320 for CRC-32 (R95), 0x82F63B78 for
CRC-32C (R159, R398). -/
def crc32 (poly : Nat) (bs : List Byte) : Nat :=
  (bs.foldl (fun c b => crcByte poly (c ^^^ b.toNat)) 0xFFFFFFFF) ^^^ 0xFFFFFFFF

/-! ## Header, directory, signature (R128-R132, R141) -/

/-- Overlay versions accepted by a firmware series (R541). -/
def overlays (series : Nat) : List Nat :=
  if series = 5 then [0x0101] else if series = 6 || series = 7 then [0x0101, 0x0102] else []

/-- Step 1 of R149: codes 0x01 to 0x03. -/
def State.headerErr (st : State) (i : Image) : Option LoadErr :=
  let req := imgReq i
  let rev := st.rn Reg.AXB_REVISION
  firstErr [
    errIf (i.size < 128) { code := 0x1A },
    errIf (imgU i 0 4 ≠ 0x4B425A47 || imgU i 4 2 ≠ 1 || !(imgKind i = 1 || imgKind i = 2) || imgU i 7 1 / 2 ≠ 0 ||
      imgU i 0x23 1 ≠ 0 || imgU i 0x27 1 ≠ 0 || imgU i 0x60 32 ≠ 0) { code := 0x01 },
    errIf (imgU i 0x18 4 ≠ Config.ident) { code := 0x02 },
    errIf (rev / 2 ^ 24 < req / 2 ^ 24 || rev % 256 < req % 256 || !(overlays (rev % 256)).contains (req / 256 % 65536) ||
      (imgKind i = 2 && req / 256 % 65536 ≠ rev / 256 % 65536)) { code := 0x03 }]

/-- Whether a LABEL is ASCII and zero-padded. -/
def labelOk (b : List Byte) : Bool := b.all (fun x => x.toNat < 128) && ((b.dropWhile (· ≠ 0)).all (· = 0))

/-- Whether a section type belongs to a field. -/
def perField (t : Nat) : Bool := decide (0x10 ≤ t ∧ t ≤ 0x14)

/-- Whether two bodies overlap. -/
def dirOverlap (d : List DirEnt) : Option DirEnt :=
  d.find? (fun a => d.any (fun b => b.idx < a.idx && rangesMeet a.offset a.length b.offset b.length))

/-- Codes 0x04 and 0x1A of the directory stage. -/
def State.dirErr (_st : State) (i : Image) : Option LoadErr :=
  let n := imgCount i
  let sig := imgSig i
  let stop := 128 + 64 * n
  let full := imgKind i = 1
  let d := imgDir i
  firstErr [
    errIf (n = 0 || 1024 < n || imgU i 0x28 4 ≠ 128 || sig % 128 ≠ 0 || sig < stop || imgU i 0x30 8 ≠ sig + 192 ||
      imgBuild i = 0 || (full && imgU i 0x10 8 ≠ 0) || (if full then imgPart i ≠ 0xFF else 15 < imgPart i) ||
      63 < imgU i 0x20 2 || 3 < imgU i 0x22 1 || (!imgEnc i && imgU i 0x38 8 ≠ 0) ||
      !labelOk ((List.range 32).map (fun k => tget 0 i.bytes (0x40 + k)))) { code := 0x04 },
    errIf (i.size < sig + 192) { code := 0x1A },
    d.findSome? (fun e => errIf (e.flags / 2 ≠ 0 || imgU i (128 + 64 * e.idx + 3) 1 ≠ 0 || e.offset % 128 ≠ 0 ||
      e.offset < stop || sig < e.offset + e.length || (perField e.typ && e.fn = 0xFF) ||
      (e.typ < 0x10 && e.fn ≠ 0xFF) ||
      d.any (fun p => p.idx + 1 = e.idx && (e.typ < p.typ || (e.typ = p.typ && e.fn < p.fn))))
      { code := 0x04, fn := e.fn, sec := e.idx }),
    (dirOverlap d).map (fun e => { code := 0x04, fn := e.fn, sec := e.idx }),
    errIf (i.bytes.any (fun b => b.2 ≠ 0 && decide (stop ≤ b.1 ∧ b.1 < sig) &&
      !d.any (fun e => decide (e.offset ≤ b.1 ∧ b.1 < e.offset + e.length)))) { code := 0x04 }]

/-- Code 0x0B, the part that needs no section body: a type that no rule defines, one that appears more often than R132
permits, or one that is missing. -/
def setErr (i : Image) : Option LoadErr :=
  let d := imgDir i
  firstErr [
    d.findSome? (fun e => errIf (!(decide (1 ≤ e.typ ∧ e.typ ≤ 9) || perField e.typ) ||
      d.any (fun p => p.idx < e.idx && p.typ = e.typ && p.fn = e.fn)) { code := 0x0B, fn := e.fn, sec := e.idx }),
    errIf (imgKind i = 1 && !([1, 2, 3, 4, 5, 6, 8, 9] : List Nat).all (fun t => d.any (fun e => e.typ = t))) { code := 0x0B }]

/-- Whether a signature block (R140) verifies over bytes: PUBKEY as X then Y, SIG_R and SIG_S, of ECDSA on P-384 with SHA-384. -/
def sigOk (sig msg : List Byte) : Bool :=
  let n (o : Nat) : Nat := beNat (bytesAt sig o 48)
  ecdsaOk (n 0) (n 0x30) (beNat (sha384 msg)) (n 0x60) (n 0x90)

/-- Codes 0x05 to 0x07 (R141). -/
def State.keyErr (st : State) (i : Image) : Option LoadErr :=
  let k := imgU i 0x22 1
  let f := st.car.fuses
  let digest := (f.keyDigest.find? (fun e => e.1 = k)).map (·.2)
  let sig := imgAt i (imgSig i) 192
  firstErr [
    errIf (digest.isNone || f.revoked.testBit k || digest ≠ some (sha384 (sig.take 96))) { code := 0x05 },
    errIf (imgU i 0x20 2 < tget 0 f.svn k) { code := 0x06 },
    errIf (!sigOk sig (imgAt i 0 (imgU i 0x28 4 + 64 * imgCount i))) { code := 0x07 }]

/-- Codes 0x08 to 0x0A of one section (R141-R143). -/
def State.secErr (st : State) (i : Image) (e : DirEnt) : Option LoadErr :=
  let aes := st.car.fuses.aesKey.isSome
  firstErr [
    errIf (sha384 (imgStored i e) ≠ e.digest) { code := 0x08, fn := e.fn, sec := e.idx },
    errIf (!aes && (imgEnc i || e.enc)) { code := 0x0A, fn := e.fn, sec := e.idx },
    errIf (imgEnc i && (e.typ = 0x13 || e.typ = 0x14) && !e.enc) { code := 0x0A, fn := e.fn, sec := e.idx },
    errIf (e.enc && (imgOpen st.car.fuses.aesKey i e).isNone) { code := 0x09, fn := e.fn, sec := e.idx }]

/-- The sections whose bytes the checks of section `e` use beside its own, but for those that stand before it: CARVE counts on
core slots, CORE on the island's blocks, ISLAND on the mode of its blocks. -/
def DirEnt.uses (e : DirEnt) (d : DirEnt) : Bool :=
  (e.typ = 4 && d.typ = 0x10) || (e.typ = 0x10 && d.typ = 0x11 && d.fn = e.fn) || (e.typ = 0x11 && d.typ = 0x13 && d.fn = e.fn)

/-- A section and those that its checks use are verified before any byte of them is used (R141, R142). -/
def State.readErr (st : State) (i : Image) (e : DirEnt) : Option LoadErr :=
  (st.secErr i e).or (((imgDir i).filter e.uses).findSome? (st.secErr i))

/-! ## Module sections -/

/-- The entries of FIELDS (R133): field, partition, pace group. -/
def fieldsOf (b : List Byte) : List (Nat × Nat × Nat) :=
  (List.range (leAt b 0 1)).map (fun k => (leAt b (4 + 4 * k) 1, leAt b (5 + 4 * k) 1, leAt b (6 + 4 * k) 1))

/-- FIELDS (R620, R30). -/
def State.fieldsErr (st : State) (b : List Byte) (sec : Nat) : Option LoadErr :=
  let n := leAt b 0 1
  firstErr [
    errIf (n = 0 || 84 < n || b.length ≠ 4 + 4 * n || !zerosIn b 1 4 ||
      (List.range n).any (fun k => leAt b (7 + 4 * k) 1 ≠ 0)) { code := 0x11, sec := sec },
    ((fieldsOf b).zipIdx).findSome? (fun e =>
      let fn := e.1.1
      let prev := if e.2 = 0 then 0 else leAt b (4 * e.2) 1 + 1
      if 99 < fn || fn < prev then some { code := 0x11, fn := fn, sec := sec }
      else if !st.inService fn then some { code := 0x0C, fn := fn, sec := sec }
      else errIf ((15 < e.1.2.1 && e.1.2.1 ≠ 0xFF) || (31 < e.1.2.2 && e.1.2.2 ≠ 0xFF)) { code := 0x11, fn := fn, sec := sec })]

/-- TIMEBASE (R134, R620). -/
def timebaseErr (b : List Byte) (sec : Nat) : Option LoadErr :=
  errIf (b.length ≠ 16 || 1 < leAt b 0 1 || !zerosIn b 1 16) { code := 0x11, sec := sec }

/-- The PARTITION records (R474). -/
structure PartRec where
  p : Nat
  contexts : Nat
  queues : Nat
  blocks : Nat
  label : List Byte
deriving DecidableEq, Repr

def partRecs (b : List Byte) : List PartRec :=
  (List.range (leAt b 0 1)).map (fun k =>
    let o := 8 + 32 * k
    { p := leAt b o 1, contexts := leAt b (o + 2) 1, queues := leAt b (o + 4) 2, blocks := leAt b (o + 8) 4,
      label := bytesAt b (o + 0x10) 16 })

def partErr (check unit value sec : Nat) : LoadErr := { code := 0x11, sec := sec, detail := .part check unit value }

/-- PARTITION: checks 1 to 6 of R478. -/
def partitionErr (b : List Byte) (fields : List (Nat × Nat × Nat)) (sec : Nat) : Option LoadErr :=
  let n := leAt b 0 1
  let rs := partRecs b
  let z := rs.zipIdx
  firstErr [
    errIf (n = 0 || 16 < n) (partErr 1 0xFF n sec),
    errIf (b.length ≠ 8 + 32 * n) (partErr 1 0xFF b.length sec),
    z.findSome? (fun e => errIf (15 < e.1.p || rs.zipIdx.any (fun f => f.2 + 1 = e.2 && e.1.p ≤ f.1.p)) (partErr 1 e.1.p e.1.p sec)),
    (firstSet b 1 8).map (fun o => partErr 2 0xFF o sec),
    z.findSome? (fun e =>
      let o := 8 + 32 * e.2
      (((((firstSet b (o + 1) (o + 2)).or (firstSet b (o + 3) (o + 4))).or (firstSet b (o + 6) (o + 8))).or
        (firstSet b (o + 0xC) (o + 0x10))).map (fun x => partErr 2 e.1.p x sec))),
    z.findSome? (fun e => firstErr [
      errIf (e.1.contexts = 0 || 64 < e.1.contexts) (partErr 3 e.1.p e.1.contexts sec),
      errIf (e.1.queues = 0 || 256 < e.1.queues) (partErr 3 e.1.p e.1.queues sec)]),
    z.findSome? (fun e => firstErr [
      errIf (e.1.blocks = 0) (partErr 4 e.1.p 0 sec),
      ((bitList 32 e.1.blocks).find? (fun k => z.any (fun f => f.2 < e.2 && f.1.blocks.testBit k))).map
        (fun k => partErr 4 e.1.p k sec)]),
    rs.findSome? (fun e => errIf (!fields.any (fun f => f.2.1 = e.p)) (partErr 5 e.p 0xFF sec)),
    fields.findSome? (fun f => errIf (f.2.1 ≠ 0xFF && !rs.any (fun e => e.p = f.2.1)) (partErr 5 f.2.1 f.1 sec)),
    fields.findSome? (fun f => errIf (f.2.2 ≠ 0xFF &&
      (f.2.1 = 0xFF || fields.any (fun g => g.1 < f.1 && g.2.2 = f.2.2 && g.2.1 ≠ f.2.1))) (partErr 6 f.2.2 f.1 sec))]

/-- The owned granules of CARVE (R475): key `fn * 12 + g` and the holder slot. -/
def carveOf (b : List Byte) : List (Nat × Nat) :=
  (List.range (leAt b 0 2)).flatMap (fun k =>
    let o := 4 + 16 * k
    (List.range 12).filterMap (fun g =>
      let h := leAt b (o + 4 + g) 1
      if h = 0xFF then none else some (leAt b o 1 * 12 + g, h)))

/-- CARVE: checks 7 and 8 of R478; a record of a failed or retired field gives 0x0C (R30). -/
def State.carveErr (st : State) (b : List Byte) (fields : List (Nat × Nat × Nat)) (cores : Nat → Nat) (sec : Nat) :
    Option LoadErr :=
  let n := leAt b 0 2
  let fnAt (k : Nat) : Nat := leAt b (4 + 16 * k) 1
  firstErr [
    errIf (84 < n) (partErr 7 0xFF n sec),
    errIf (b.length ≠ 4 + 16 * n) (partErr 7 0xFF b.length sec),
    (firstSet b 2 4).map (fun o => partErr 7 0xFF o sec),
    (List.range n).findSome? (fun k =>
      let fn := fnAt k
      firstErr [
        errIf (fn < 100 && !st.inService fn) { code := 0x0C, fn := fn, sec := sec },
        errIf ((0 < k && fn ≤ fnAt (k - 1)) || !fields.any (fun f => f.1 = fn && f.2.1 < 16)) (partErr 7 fn (4 + 16 * k) sec),
        (firstSet b (5 + 16 * k) (8 + 16 * k)).map (fun o => partErr 7 fn o sec)]),
    (List.range n).findSome? (fun k => (List.range 12).findSome? (fun g =>
      let h := leAt b (8 + 16 * k + g) 1
      errIf (h ≠ 0xFF && cores (fnAt k) ≤ h) (partErr 8 (fnAt k) g sec)))]

/-- The field of a PORTS table index: 0-7 Kevenlink, 8-15 sensor ports, 16-23 user transceivers. -/
def portField (u : Nat) : Nat :=
  if u < 8 then Config.kvlField u else if u < 16 then Config.snpField (u - 8) else Config.utxField (u - 16)

/-- Whether a PORTS body gives table index `u` an owner. -/
def portOwned (b : List Byte) (u : Nat) : Bool :=
  (if u < 8 then leAt b (8 * u) 1 else leAt b (0x40 + (u - 8)) 1) = 1

/-- PORTS: checks 9 to 12 of R478; an owned port of a failed or retired field gives 0x0C (R30). -/
def State.portsErr (st : State) (b : List Byte) (fields : List (Nat × Nat × Nat)) (recs : List PartRec) (sec : Nat) :
    Option LoadErr :=
  let own (u : Nat) : Nat := ((fields.find? (fun f => f.1 = portField u)).map (·.2.1)).getD 0xFF
  let blocks (u : Nat) : Nat := leAt b (8 * u + 4) 4
  firstErr [
    errIf (b.length ≠ 96) (partErr 9 0xFF b.length sec),
    (List.range 24).findSome? (fun u => firstErr [
      if u < 8 then (firstSet b (8 * u + 2) (8 * u + 4)).map (fun o => partErr 9 u o sec) else none,
      if u < 8 then
        ((List.range 2).find? (fun k => 1 < leAt b (8 * u + k) 1)).map (fun k => partErr 9 u (8 * u + k) sec)
      else errIf (1 < leAt b (0x40 + (u - 8)) 1) (partErr 9 u (0x40 + (u - 8)) sec)]),
    (firstSet b 0x50 0x60).map (fun o => partErr 9 0xFF o sec),
    (List.range 24).findSome? (fun u => errIf (portOwned b u && !st.inService (portField u))
      { code := 0x0C, fn := portField u, sec := sec }),
    (List.range 24).findSome? (fun u => errIf (portOwned b u && 16 ≤ own u) (partErr 10 u (portField u) sec)),
    (List.range 8).findSome? (fun u => firstErr [
      errIf (!portOwned b u && leAt b (8 * u + 1) 1 = 1) (partErr 11 u (8 * u + 1) sec),
      errIf (!portOwned b u && blocks u ≠ 0) (partErr 11 u (8 * u + 4) sec)]),
    (List.range 8).findSome? (fun u => ((bitList 32 (blocks u)).find? (fun k =>
      !recs.any (fun r => r.p = own u && r.blocks.testBit k) || (List.range u).any (fun v => (blocks v).testBit k))).map
        (fun k => partErr 12 u k sec))]

/-- A ROUTE record (R368): field, overrides, transit entries, and the offset of its head. -/
structure RouteRec where
  fn : Nat
  ovr : Nat
  tr : Nat
  off : Nat
deriving DecidableEq, Repr

/-- The records of a ROUTE body as far as its counts go. -/
def routeRecs (b : List Byte) : Nat → Nat → List RouteRec
  | 0, _ => []
  | n + 1, o =>
    let r : RouteRec := { fn := leAt b o 1, ovr := leAt b (o + 1) 1, tr := leAt b (o + 2) 1, off := o }
    r :: routeRecs b n (o + 8 + 8 * (r.ovr + r.tr))

def RouteRec.ovrAt (r : RouteRec) (b : List Byte) (i : Nat) : Word := BitVec.ofNat 64 (leAt b (r.off + 8 + 8 * i) 8)
def RouteRec.trAt (r : RouteRec) (b : List Byte) (i : Nat) : Word :=
  BitVec.ofNat 64 (leAt b (r.off + 8 + 8 * (r.ovr + i)) 8)

def routeErr1 (check fn value sec : Nat) : LoadErr := { code := 0x11, sec := sec, detail := .route check fn value }

/-- The route entries of a ROUTE body as a set (R368). -/
def routeSetOf (b : List Byte) (owners : List (Nat × Nat)) : RouteSet :=
  let rs := routeRecs b (min 84 (leAt b 0 2)) 8
  { ovr := rs.foldl (fun t r => (List.range (min 64 r.ovr)).foldl (fun t i => tput 0 t (r.fn * 64 + i) (r.ovrAt b i)) t) [],
    tr := rs.foldl (fun t r => (List.range (min 24 r.tr)).foldl (fun t i => tput 0 t (r.fn * 24 + i) (r.trAt b i)) t) [],
    owners := owners }

/-- ROUTE: the checks of R372 in order; a record of a failed or retired field gives 0x0C (R30). -/
def State.routeErr (st : State) (b : List Byte) (fields : List (Nat × Nat × Nat)) (sec : Nat) : Option LoadErr :=
  let n := leAt b 0 2
  let rs := routeRecs b (min 84 n) 8
  let size := 8 + (rs.map (fun r => 8 + 8 * (r.ovr + r.tr))).sum
  let owner (fn : Nat) : Nat := ((fields.find? (fun f => f.1 = fn)).map (·.2.1)).getD 0xFF
  firstErr [
    errIf (84 < n) (routeErr1 1 0xFF n sec),
    rs.findSome? (fun r => firstErr [
      errIf (64 < r.ovr) (routeErr1 1 r.fn r.ovr sec), errIf (24 < r.tr) (routeErr1 1 r.fn r.tr sec)]),
    errIf (b.length ≠ size) (routeErr1 1 0xFF b.length sec),
    (rs.zipIdx).findSome? (fun r => firstErr [
      errIf (r.1.fn < 100 && !st.inService r.1.fn) { code := 0x0C, fn := r.1.fn, sec := sec },
      errIf ((rs.zipIdx).any (fun q => q.2 + 1 = r.2 && r.1.fn ≤ q.1.fn) || !fields.any (fun f => f.1 = r.1.fn))
        (routeErr1 1 r.1.fn r.1.fn sec)]),
    (firstSet b 2 8).map (fun o => routeErr1 2 0xFF o sec),
    rs.findSome? (fun r => firstErr [
      (firstSet b (r.off + 3) (r.off + 8)).map (fun o => routeErr1 2 r.fn o sec),
      (List.range r.ovr).findSome? (fun i => firstErr [
        errIf ((r.ovrAt b i).getLsbD 27) (routeErr1 2 r.fn (r.off + 8 + 8 * i + 3) sec),
        (firstSet b (r.off + 8 + 8 * i + 4) (r.off + 16 + 8 * i)).map (fun o => routeErr1 2 r.fn o sec)]),
      (List.range r.tr).findSome? (fun i =>
        let o := r.off + 8 + 8 * (r.ovr + i)
        let e := r.trAt b i
        firstErr [
          errIf (bitsOf e 15 11 ≠ 0) (routeErr1 2 r.fn (o + 1) sec),
          errIf (bitsOf e 23 19 ≠ 0) (routeErr1 2 r.fn (o + 2) sec),
          (firstSet b (o + 3) (o + 8)).map (fun x => routeErr1 2 r.fn x sec)])]),
    rs.findSome? (fun r => (List.range r.ovr).findSome? (fun i =>
      let e := r.ovrAt b i
      let out := bitsOf e 30 28
      errIf (e.getLsbD 31 && (bitsOf e 15 8 < bitsOf e 7 0 || 5 < bitsOf e 26 24 || out = 0 || 4 < out ||
        st.portDisabled r.fn (out - 1))) (routeErr1 3 r.fn i sec))),
    rs.findSome? (fun r => (List.range r.tr).findSome? (fun i =>
      let e := r.trAt b i
      let p := bitsOf e 7 0
      let inp := bitsOf e 10 8
      let lane := bitsOf e 18 16
      errIf (15 < p || p = owner r.fn || inp = 0 || 4 < inp || st.portDisabled r.fn (inp - 1) || lane < 2 ||
        (List.range i).any (fun j => let f := r.trAt b j
          bitsOf f 10 8 = inp && bitsOf f 18 16 = lane && bitsOf f 7 0 ≠ p)) (routeErr1 4 r.fn i sec))),
    (st.routeCheck (routeSetOf b (fields.map (fun f => (f.1, f.2.1))))).map
      (fun x => routeErr1 x.check x.fn x.value sec)]

/-! ## The sequencing table (R95-R97) -/

def seqEntry (b : List Byte) (k : Nat) : SeqEntry :=
  let o := 16 + 16 * k
  { full := leAt b (o + 1) 1 % 2 = 1, fns := (List.range (min 6 (leAt b o 1))).map (fun j => leAt b (o + 2 + j) 1),
    extra := leAt b (o + 8) 2, init := leAt b (o + 0xA) 1 }

/-- The entries of a sequencing table. -/
def seqTable (b : List Byte) : List SeqEntry := (List.range (leAt b 4 2)).map (seqEntry b)

/-- The first broken rule of R97: its code and the field concerned. -/
def State.seqErr (st : State) (b : List Byte) (fields : List (Nat × Nat × Nat)) : Option (Nat × Nat) :=
  let n := leAt b 4 2
  let body := (bytesAt b 0 12) ++ [0, 0, 0, 0] ++ b.drop 16
  let es := seqTable b
  let head : Option (Nat × Nat) :=
    if leAt b 0 4 ≠ 1 || !zerosIn b 9 12 then some (1, 0xFF)
    else if n = 0 || 84 < n || b.length ≠ 16 + 16 * n then some (9, 0xFF)
    else if crc32 0xEDB88320 body ≠ leAt b 12 4 then some (2, 0xFF)
    else if leAt b 6 2 < 2000 then some (7, 0xFF)
    else if 50 < leAt b 8 1 then some (8, 0xFF) else none
  let entry := (List.range n).findSome? (fun k =>
    let o := 16 + 16 * k
    let cnt := leAt b o 1
    let before := ((es.take k).flatMap (·.fns))
    if leAt b (o + 1) 1 / 2 ≠ 0 || !zerosIn b (o + 0xB) (o + 0x10) then some (1, 0xFF)
    else if cnt = 0 || 6 < cnt || (List.range 6).any (fun j => cnt ≤ j && leAt b (o + 2 + j) 1 ≠ 0xFF) then some (3, 0xFF)
    else if 50 < leAt b (o + 0xA) 1 && leAt b (o + 0xA) 1 ≠ 0xFF then some (8, 0xFF)
    else (List.range cnt).findSome? (fun j =>
      let fn := leAt b (o + 2 + j) 1
      if !st.inService fn then some (4, fn)
      else if before.contains fn || (List.range j).any (fun i => leAt b (o + 2 + i) 1 = fn) then some (5, fn) else none))
  let six := Config.sites.findSome? (fun fn =>
    let f := fields.find? (fun f => f.1 = fn)
    let e := es.find? (fun e => e.fns.contains fn)
    match f, e with
    | some _, none => some (6, fn)
    | some f, some e => if (f.2.1 ≠ 0xFF && !e.full) || (f.2.1 = 0xFF && e.full) then some (6, fn) else none
    | none, some e => if e.full && !fields.isEmpty && (fn = 44 || fn = 55) then some (6, fn) else none
    | none, none => none)
  (head.or entry).or six

/-! ## PACE and LEDGER -/

/-- A PACE record (R135). -/
structure PaceRec where
  group : Nat
  fns : List Nat
  marks : List Nat
  off : Nat
deriving DecidableEq, Repr

def paceRecs (b : List Byte) : Nat → Nat → List PaceRec
  | 0, _ => []
  | n + 1, o =>
    let m := leAt b (o + 1) 1
    { group := leAt b o 1, fns := (List.range (min 16 (leAt b (o + 2) 1))).map (fun k => leAt b (o + 8 + k) 1),
      marks := (List.range m).map (fun k => leAt b (o + 0x18 + 4 * k) 4), off := o } :: paceRecs b n (o + 0x18 + 4 * m)

def paceOf (b : List Byte) : List PaceRec := paceRecs b (min 32 (leAt b 0 1)) 4

/-- PACE breaks R105 or R135 (code 0x10). In a PARTIAL image the groups are those of one partition alone. -/
def paceErr (b : List Byte) (fields : List (Nat × Nat × Nat)) (all : Bool) (sec : Nat) : Option LoadErr :=
  let rs := paceOf b
  let e : LoadErr := { code := 0x10, sec := sec }
  let size := 4 + (rs.map (fun r => 0x18 + 4 * r.marks.length)).sum
  firstErr [
    errIf (32 < leAt b 0 1 || !zerosIn b 1 4 || b.length ≠ size) e,
    (rs.zipIdx).findSome? (fun r =>
      let c := leAt b (r.1.off + 2) 1
      errIf (31 < r.1.group || (rs.zipIdx).any (fun q => q.2 + 1 = r.2 && r.1.group ≤ q.1.group) || r.1.marks.isEmpty ||
        64 < r.1.marks.length || c = 0 || 16 < c || !zerosIn b (r.1.off + 3) (r.1.off + 8) ||
        (List.range 16).any (fun k => c ≤ k && leAt b (r.1.off + 8 + k) 1 ≠ 0xFF) || r.1.marks.head? ≠ some 0 ||
        (r.1.marks.zip r.1.marks.tail).any (fun x => x.2 < x.1) || !r.1.fns.Nodup ||
        !r.1.fns.all (fun fn => fields.any (fun f => f.1 = fn && f.2.2 = r.1.group)) ||
        !(fields.filter (fun f => f.2.2 = r.1.group)).all (fun f => r.1.fns.contains f.1)) e),
    errIf (all && fields.any (fun f => f.2.2 ≠ 0xFF && !rs.any (fun r => r.group = f.2.2))) e]

/-- The LEDGER records (R531, R532): those accepted, and how many up to COUNT are not. -/
def ledgerRead (b : List Byte) (parts : List Nat) : Nat → Nat → List (Nat × Nat × List Byte) × Nat
  | 0, _ => ([], 0)
  | n + 1, o =>
    let len := leAt b (o + 2) 2
    if b.length < o + 8 || len < 8 || b.length < o + len || 65536 < o + len then ([], n + 1)
    else
      let r := ledgerRead b parts n (o + len)
      let p := leAt b (o + 1) 1
      let k := leAt b (o + 4) 4
      if leAt b o 1 ≠ 0x10 || len % 8 ≠ 0 || 264 < len || !(p = 0xFF || parts.contains p) then (r.1, r.2 + 1)
      else ((k, p, bytesAt b (o + 8) (len - 8)) :: r.1, r.2)

/-- Drop the records whose TAG_ID and PART repeat an earlier accepted one. -/
def ledgerUnique (l : List (Nat × Nat × List Byte)) : List (Nat × Nat × List Byte) :=
  l.foldl (fun acc e => if acc.any (fun a => a.1 = e.1 && a.2.1 = e.2.1) then acc else acc ++ [e]) []

/-- Accepted TAG records of a LEDGER body and the number dropped. -/
def ledgerOf (b : List Byte) (parts : List Nat) : List (Nat × Nat × List Byte) × Nat :=
  let n := leAt b 0 2
  let r := ledgerRead b parts (min 1024 n) 4
  let u := ledgerUnique r.1
  (u, r.2 + (r.1.length - u.length) + (n - min 1024 n))

/-! ## CORE (R163-R175) -/

/-- The shape of a core slot as its slot record gives it (R172). -/
structure Shape where
  rows : Nat := 0
  cols : Nat := 0
  mv : Nat := 0
  feed : Nat := 0
  acc : Nat := 0
  resc : Nat := 0
  lanes : Nat := 0
  taps : Nat := 0
deriving DecidableEq, Repr

def shapeOf (b : List Byte) (s : Nat) : Shape :=
  let o := 0x10 + 16 * s
  { rows := leAt b o 1, cols := leAt b (o + 1) 1, mv := leAt b (o + 2) 1, feed := leAt b (o + 3) 1,
    acc := leAt b (o + 4) 2, resc := leAt b (o + 6) 2, lanes := leAt b (o + 8) 1, taps := leAt b (o + 9) 1 % 8 }

/-- Slice groups of a shape (R167). -/
def Shape.groups (x : Shape) : Nat := (x.cols + 1) * x.rows / 16 + x.mv / 16

/-- Overlay blocks of a shape (R169). -/
def Shape.blocks (x : Shape) : Nat :=
  48 + (if x.lanes = 32 then 8 else 0) + x.rows * (if x.feed ≤ 16 then 1 else if x.feed = 32 then 2 else 4) +
    (x.cols + 1) * (if x.acc = 256 then 1 else if x.acc = 512 then 2 else 4) + x.mv / 16

/-- The group-map entries that name the positions of slot `s` (R173). -/
def Shape.positions (x : Shape) (s : Nat) : List Nat :=
  ((List.range (x.cols + 1)).flatMap (fun c => (List.range (x.rows / 16)).map (fun g => s * 256 + c * 2 + g))) ++
    (List.range (x.mv / 16)).map (fun k => s * 256 + 0x80 + k)

def coreCount (b : List Byte) : Nat := let n := leAt b 0 1; if 4 < n then 0 else n
def mapEntry (b : List Byte) (g : Nat) : Nat := leAt b (0x50 + 2 * g) 2
def blockEntry (b : List Byte) (k : Nat) : Nat := leAt b (0xD0 + 2 * k) 2
def blockCount (b : List Byte) : Nat := leAt b 2 2

/-- Entries of an ISLAND block list (R576). -/
def islBlocks (b : List Byte) : List Nat := (List.range (leAt b 2 2)).map (fun k => leAt b (0x50 + 2 * k) 2)

def coreErr (check slot value fn sec : Nat) : LoadErr :=
  { code := if check = 13 then 0x0D else 0x12, fn := fn, sec := sec, detail := .core check slot value }

/-- CORE with the ISLAND section of its field: the checks of R175 in the order it gives. Check 9 takes the bits [6:2] of a
matrix-vector entry of the map, check 10 the low byte of a spare one, and both give the slot that the entry names (log 20). -/
def coreSecErr (b isl : List Byte) (fn sec : Nat) : Option LoadErr :=
  let n := leAt b 0 1
  let slots := List.range (min 4 n)
  let sh := shapeOf b
  let e (c s v : Nat) : LoadErr := coreErr c s v fn sec
  let each (c : Nat) (bad : Shape → Bool) (v : Shape → Nat) : Option LoadErr :=
    slots.findSome? (fun s => errIf (bad (sh s)) (e c s (v (sh s))))
  let used := (slots.map (fun s => (sh s).groups)).sum
  let tall := (slots.map (fun s => (sh s).rows / 16)).foldl max 0
  let want := slots.flatMap (fun s => (sh s).positions s)
  let nb := blockCount b
  let ib := islBlocks isl
  firstErr [
    errIf (b.length < 16 || b.length ≠ 208 + 2 * nb) (e 14 0xFF (satN 16 b.length)),
    errIf (n = 0 || 4 < n) (e 1 0xFF n),
    (List.range 4).findSome? (fun s => if n ≤ s then (firstSet b (0x10 + 16 * s) (0x20 + 16 * s)).map (fun o => e 1 s o) else none),
    each 2 (fun x => !(x.rows = 16 || x.rows = 32)) (·.rows),
    each 3 (fun x => x.cols < 4 || 32 < x.cols) (·.cols),
    each 4 (fun x => !([0, 16, 32, 48, 64].contains x.mv)) (·.mv),
    each 5 (fun x => !([8, 16, 32, 64].contains x.feed)) (·.feed),
    each 6 (fun x => !([256, 512, 1024].contains x.acc)) (·.acc),
    each 7 (fun x => !([1024, 2048, 4096, 8192].contains x.resc)) (·.resc),
    each 8 (fun x => !(x.lanes = 16 || x.lanes = 32)) (·.lanes),
    ((firstSet b 1 2).or (firstSet b 4 16)).map (fun o => e 9 0xFF o),
    slots.findSome? (fun s =>
      let o := 0x10 + 16 * s
      (if leAt b (o + 9) 1 / 8 ≠ 0 then some (o + 9) else firstSet b (o + 0xA) (o + 0x10)).map (fun x => e 9 s x)),
    (List.range 64).findSome? (fun g =>
      let m := mapEntry b g
      errIf (m / 256 < 4 && m.testBit 7 && nbits m 6 2 ≠ 0) (e 9 (m / 256) (0x50 + 2 * g))),
    (List.range nb).findSome? (fun k => errIf (nbits (blockEntry b k) 13 9 ≠ 0) (e 9 (blockEntry b k / 2 ^ 14) (0xD1 + 2 * k))),
    errIf (64 < used || 64 - used < tall) (e 11 0xFF (twos 16 ((64 : Int) - (used : Int)))),
    (List.range 64).findSome? (fun g =>
      let m := mapEntry b g
      let slot := if m / 256 < 4 then m / 256 else 0xFF
      firstErr [
        errIf (m ≠ 0xFF00 && !want.contains m) (e 10 slot g),
        errIf (m ≠ 0xFF00 && (List.range g).any (fun h => mapEntry b h = m)) (e 10 slot g)]),
    ((want.filter (fun w => !(List.range 64).any (fun g => mapEntry b g = w))).foldl (fun (a : Option Nat) w =>
      match a with
      | none => some w
      | some x => some (min x w)) none).map (fun w => e 10 (w / 256) (0x4000 + w % 256)),
    (List.range 4).findSome? (fun s =>
      let have_ := ((List.range nb).filter (fun k => blockEntry b k / 2 ^ 14 = s)).length
      errIf (have_ ≠ if s < n then (sh s).blocks else 0) (e 12 s have_)),
    errIf (384 < nb + ib.length) (e 12 0xFF (nb + ib.length)),
    (List.range nb).findSome? (fun k =>
      let x := blockEntry b k % 512
      errIf (383 < x || (0 < k && x ≤ blockEntry b (k - 1) % 512) || ib.any (fun y => y % 512 = x))
        (e 13 (blockEntry b k / 2 ^ 14) k)),
    (List.range 4).findSome? (fun s =>
      let taps := if s < n then (sh s).taps else 0
      let att := leAt isl (0x11 + 16 * s) 1 % 8
      errIf (taps ≠ att) (e 15 s (taps + att * 256)))]

/-! ## ISLAND (R573-R577) -/

/-- Adapter blocks of the island of slot `s` (R575). -/
def adapterBlocks (b : List Byte) (s : Nat) : Nat :=
  let o := 0x10 + 16 * s
  let a := leAt b (o + 1) 1
  1 + (if nbit a 0 then 2 * leAt b (o + 2) 1 else 0) + (if nbit a 1 then 2 else 0) + (if nbit a 2 then 2 else 0) +
    (if leAt b 6 1 = s then 4 else 0)

/-- The mode that a FRAMES section gives fabric block `k` (R138): bits [1:0] of its first frame's word 0. -/
def blockMode (frames : List (Nat × List Byte)) (k : Nat) : Nat :=
  ((frames.find? (fun f => f.1 = 4 * k)).map (fun f => leAt f.2 0 1 % 4)).getD 0

def islErr (check fn value sec : Nat) (code : Nat := 0x12) : LoadErr :=
  { code := code, fn := fn, sec := sec, detail := .isl check fn (satN 16 value) }

/-- ISLAND: the checks of R577. `utxOk` tells whether the field's transceiver group exists and is owned. -/
def islandErr (b core : List Byte) (frames : List (Nat × List Byte)) (utxOk : Bool) (fn sec : Nat) : Option LoadErr :=
  let n := leAt b 0 1
  let nb := leAt b 2 2
  let present (s : Nat) : Bool := leAt b (0x10 + 16 * s) 1 = 1
  let ps := (List.range 4).filter present
  let fq := leAt b 4 2
  let bl := islBlocks b
  let cb := (List.range (blockCount core)).map (fun k => blockEntry core k % 512)
  let e (c v : Nat) : LoadErr := islErr c fn v sec
  firstErr [
    errIf (n = 0 || 4 < n || n ≠ ps.length) (e 1 n),
    (firstSet b 7 16).map (e 2),
    (List.range 4).findSome? (fun s =>
      let o := 0x10 + 16 * s
      if present s then
        (if leAt b (o + 1) 1 / 8 ≠ 0 then some (o + 1) else (firstSet b (o + 3) (o + 4)).or (firstSet b (o + 8) (o + 16))).map (e 2)
      else (firstSet b o (o + 16)).map (e 2)),
    (bl.zipIdx).findSome? (fun x => errIf (nbits x.1 12 9 ≠ 0) (e 2 (0x51 + 2 * x.2))),
    errIf (fq < 100 || 600 < fq || fq % 5 ≠ 0) (e 3 fq),
    ps.findSome? (fun s => errIf (coreCount core ≤ s) (e 4 s)),
    ps.findSome? (fun s =>
      let l := leAt b (0x12 + 16 * s) 1
      errIf (if nbit (leAt b (0x11 + 16 * s) 1) 0 then !([1, 2, 4].contains l) else l ≠ 0) (e 5 l)),
    ps.findSome? (fun s => firstErr [
      errIf (leAt b (0x14 + 16 * s) 2 = 0) (e 6 0), errIf (256 < leAt b (0x16 + 16 * s) 2) (e 6 (leAt b (0x16 + 16 * s) 2))]),
    errIf (leAt b 6 1 ≠ 0xFF && (!(leAt b 6 1 < 4 && present (leAt b 6 1)) || !utxOk)) (e 7 (leAt b 6 1)),
    (List.range 4).findSome? (fun s =>
      let ad := (bl.filter (fun x => x / 2 ^ 14 = s && x.testBit 13)).length
      let us := (bl.filter (fun x => x / 2 ^ 14 = s && !x.testBit 13)).length
      errIf (if present s then ad ≠ adapterBlocks b s || us ≠ leAt b (0x14 + 16 * s) 2 else ad + us ≠ 0) (e 8 s)),
    (bl.zipIdx).findSome? (fun x =>
      let k := x.1 % 512
      errIf (383 < k || (bl.zipIdx).any (fun y => y.2 + 1 = x.2 && k ≤ y.1 % 512) || cb.contains k || blockMode frames k ≠ 2)
        (islErr 9 fn x.2 sec 0x0D)),
    errIf (b.length ≠ 80 + 2 * nb) (e 10 b.length)]

/-! ## RAMP, FRAMES, SPARE (R124, R136-R139) -/

/-- Whether a ramp table is valid (R124): entries, count, and the bounds of its ends. -/
def rampOk (es : List Nat) (down : Bool) : Bool :=
  let d := es.map (· / 2 ^ 11)
  let ok := d.zip d.tail
  (!es.isEmpty) && d.all (· ≤ 16) &&
    (if down then decide (12 ≤ d.headD 0) && ok.all (fun p => p.2 ≤ p.1) && d.getLastD 1 == 0
     else decide (d.headD 16 ≤ 4) && ok.all (fun p => p.1 ≤ p.2) && d.getLastD 0 == 16) &&
    ok.all (fun p => p.1 ≤ p.2 + 4 && p.2 ≤ p.1 + 4) && es.dropLast.all (fun e => decide (50 ≤ e % 2 ^ 11))

/-- Whether a pace policy and slack band satisfy R107 (UP_FAST, GOAL, FIXED_CODE, CEILING and FLOOR; SLACK_LO ≤ SLACK_HI). -/
def policyOk (pol : Nat) : Bool :=
  let fl := nbits pol 7 0
  let ce := nbits pol 15 8
  let fx := nbits pol 23 16
  let up := nbits pol 31 28
  nbits pol 25 24 ≠ 3 && fl ≤ ce && ce ≤ 50 && fl ≤ fx && fx ≤ ce && 1 ≤ up && up ≤ 8

def slackOk (s : Nat) : Bool := decide (s % 2 ^ 32 ≤ s / 2 ^ 32)

/-- RAMP (code 0x0F). -/
def rampErr (b : List Byte) (fn sec : Nat) : Option LoadErr :=
  let dn := leAt b 0 1
  let un := leAt b 1 1
  let pol := leAt b 4 4
  let ent (o n : Nat) : List Nat := (List.range n).map (fun k => leAt b (o + 2 * k) 2)
  errIf (b.length ≠ 96 || dn = 0 || 16 < dn || un = 0 || 16 < un || !zerosIn b 2 4 || nbits pol 27 26 ≠ 0 || !policyOk pol ||
    !slackOk (leAt b 8 8) ||
    (List.range 4).any (fun s =>
      let c := leAt b (0x10 + 4 * s) 4
      nbits c 31 21 ≠ 0 || 16 < nbits c 20 16 || 2000 < nbits c 15 0) ||
    !rampOk (ent 0x20 (min 16 dn)) true || !rampOk (ent 0x40 (min 16 un)) false ||
    !zerosIn b (0x20 + 2 * min 16 dn) 0x40 || !zerosIn b (0x40 + 2 * min 16 un) 0x60)
    { code := 0x0F, fn := fn, sec := sec }

/-- Whether a frame address is valid: its region's indices (chapter 05). -/
def frameValid (a : Nat) : Bool :=
  let r := a / 2 ^ 13
  decide (a % 2 ^ 13 < [1536, 2048, 1024, 1536].getD r 0)

/-- The core slot that owns a frame of region 1 or 2, or 0xFF (R137). -/
def frameSlot (a : Nat) : Nat :=
  let r := a / 2 ^ 13
  if r = 1 then a % 2 ^ 13 / 512 else if r = 2 then a % 2 ^ 13 / 256 else 0xFF

/-- The frames that a FRAMES body writes (R137). -/
def framesOf (b : List Byte) : Nat → Nat → List (Nat × List Byte)
  | 0, _ => []
  | fuel + 1, o =>
    if b.length ≤ o then []
    else
      let a := leAt b o 2
      let run := leAt b (o + 2) 2
      (List.range run).map (fun k => (a + k, bytesAt b (o + 8 + 4096 * k) 4096)) ++ framesOf b fuel (o + 8 + 4096 * run)

/-- The heads of the records: address, run, offset. -/
def frameHeads (b : List Byte) : Nat → Nat → List (Nat × Nat × Nat)
  | 0, _ => []
  | fuel + 1, o =>
    if b.length ≤ o then []
    else (leAt b o 2, leAt b (o + 2) 2, o) :: frameHeads b fuel (o + 8 + 4096 * leAt b (o + 2) 2)

def allFrames (b : List Byte) : List (Nat × List Byte) := framesOf b 6144 8

/-- FRAMES (codes 0x13 and 0x0D, R137, R138). `core` and `isl` are the CORE and ISLAND bodies of the field; a transit-only
field has neither. -/
def framesErr (b core isl : List Byte) (transit : Bool) (fn sec : Nat) : Option LoadErr :=
  let hs := frameHeads b 6145 8
  let e (c : Nat) : LoadErr := { code := c, fn := fn, sec := sec }
  let total := (hs.map (fun h => h.2.1)).sum
  let size := 8 + (hs.map (fun h => 8 + 4096 * h.2.1)).sum
  let fr := allFrames b
  let cb := (List.range (blockCount core)).map (fun k => blockEntry core k % 512)
  let ib := (islBlocks isl).map (· % 512)
  firstErr [
    errIf (leAt b 0 4 ≠ total || b.length ≠ size || !zerosIn b 4 8 ||
      hs.any (fun h => h.2.1 = 0 || 256 < h.2.1 || !zerosIn b (h.2.2 + 4) (h.2.2 + 8) ||
        !(List.range h.2.1).all (fun k => frameValid (h.1 + k) && (h.1 + k) / 2 ^ 13 = h.1 / 2 ^ 13)) ||
      !(fr.map (·.1)).Nodup ||
      (if transit then fr.any (fun f => f.1 / 2 ^ 13 ≠ 3)
       else fr.any (fun f => (f.1 / 2 ^ 13 = 1 || f.1 / 2 ^ 13 = 2) && coreCount core ≤ frameSlot f.1)) ||
      fr.any (fun f => f.1 / 2 ^ 13 = 0 && !(cb.contains (f.1 / 4) || ib.contains (f.1 / 4)))) (e 0x13),
    errIf (!transit && (ib.any (fun k => blockMode fr k ≠ 2) || cb.any (fun k => blockMode fr k ≠ 1))) (e 0x0D)]

/-- A SPARE entry (R139). -/
structure SpareEnt where
  slot : Nat
  group : Nat
  spare : Nat
  words : Nat
  pos : Nat
deriving DecidableEq, Repr

def spareEnts (b : List Byte) : List SpareEnt :=
  (List.range (min 32 (leAt b 0 2))).map (fun k =>
    let o := 4 + 8 * k
    { slot := leAt b o 1, group := leAt b (o + 1) 1, spare := leAt b (o + 2) 1, words := leAt b (o + 3) 1,
      pos := leAt b (o + 4) 4 })

/-- SPARE (code 0x14, R139). -/
def spareErr (b core : List Byte) (fn sec : Nat) : Option LoadErr :=
  let n := leAt b 0 2
  let es := spareEnts b
  let z := es.zipIdx
  errIf (n = 0 || 32 < n || !zerosIn b 2 4 || 131072 < b.length ||
    es.any (fun x => coreCount core ≤ x.slot || 63 < x.group || 63 < x.spare ||
      mapEntry core x.group / 256 ≠ x.slot || mapEntry core x.spare ≠ 0xFF00 || x.words = 0 || x.pos < 4 + 8 * n ||
      b.length < x.pos + 16 * x.words ||
      (List.range x.words).any (fun k =>
        let o := x.pos + 16 * k
        let a := leAt b o 2
        511 < leAt b (o + 2) 2 || !zerosIn b (o + 4) (o + 8) || !frameValid a || frameSlot a ≠ x.slot)) ||
    z.any (fun x => z.any (fun y => y.2 < x.2 && rangesMeet x.1.pos (16 * x.1.words) y.1.pos (16 * y.1.words))))
    { code := 0x14, fn := fn, sec := sec }

/-! ## The whole image -/

/-- Code 0x0B, the part that needs FIELDS (R132). -/
def fieldSetErr (i : Image) (fields : List (Nat × Nat × Nat)) : Option LoadErr :=
  let d := imgDir i
  let has (t fn : Nat) : Bool := d.any (fun e => e.typ = t && e.fn = fn)
  firstErr [
    fields.findSome? (fun f =>
      let need := if f.2.1 = 0xFF then [0x13] else [0x10, 0x12, 0x13]
      let none_ := if f.2.1 = 0xFF then [0x10, 0x11, 0x12, 0x14] else []
      errIf (!need.all (fun t => has t f.1) || none_.any (fun t => has t f.1)) { code := 0x0B, fn := f.1 }),
    d.findSome? (fun e => errIf (perField e.typ && !fields.any (fun f => f.1 = e.fn)) { code := 0x0B, fn := e.fn, sec := e.idx })]

/-- The structure checks of one per-field section. -/
def State.fieldSecErr (st : State) (i : Image) (fields : List (Nat × Nat × Nat)) (utx : List Nat) (e : DirEnt) :
    Option LoadErr :=
  let b := st.body i e
  let core := st.secBody i 0x10 e.fn
  let isl := st.secBody i 0x11 e.fn
  let fr := allFrames (st.secBody i 0x13 e.fn)
  let g := Config.utxGroup e.fn
  let utxOk := g < 8 && st.inService e.fn && utx.contains g
  match e.typ with
  | 0x10 => coreSecErr b isl e.fn e.idx
  | 0x11 => islandErr b core fr utxOk e.fn e.idx
  | 0x12 => rampErr b e.fn e.idx
  | 0x13 => framesErr b core isl (fields.any (fun f => f.1 = e.fn && f.2.1 = 0xFF)) e.fn e.idx
  | 0x14 => spareErr b core e.fn e.idx
  | _ => none

/-- The sequencing table that an image brings, or the default table of carrier flash (R94). -/
def State.seqBytes (st : State) (i : Image) : List Byte :=
  match imgSec i 7 0xFF with
  | some e => st.body i e
  | none => st.car.flash.seqTable

/-- The user-transceiver groups that a PORTS body owns. -/
def utxOf (b : List Byte) : List Nat := (List.range 8).filter (fun g => portOwned b (16 + g))

/-- Steps 1 to 3 of R149 for a FULL image: the first check that fails. -/
def State.fullErr (st : State) (i : Image) : Option LoadErr :=
  let d := imgDir i
  let fields := fieldsOf (st.secBody i 1 0xFF)
  let recs := partRecs (st.secBody i 3 0xFF)
  let utx := utxOf (st.secBody i 5 0xFF)
  let modErr (e : DirEnt) : Option LoadErr :=
    let b := st.body i e
    match e.typ with
    | 1 => (st.fieldsErr b e.idx).or (fieldSetErr i fields)
    | 2 => timebaseErr b e.idx
    | 3 => partitionErr b fields e.idx
    | 4 => st.carveErr b fields (fun fn => coreCount (st.secBody i 0x10 fn)) e.idx
    | 5 => st.portsErr b fields recs e.idx
    | 6 => st.routeErr b fields e.idx
    | 7 => (st.seqErr b fields).map (fun x => { code := 0x0E, fn := x.2, sec := e.idx, detail := .seq x.1 x.2 })
    | 8 => (if (imgSec i 7 0xFF).isSome then none
        else (st.seqErr (st.seqBytes i) fields).map (fun x =>
          ({ code := 0x0E, fn := x.2, detail := .seq x.1 x.2 } : LoadErr))).or (paceErr b fields true e.idx)
    | _ => none
  firstErr [st.headerErr i, errIf (imgKind i ≠ 1) { code := 0x01 }, st.dirErr i, setErr i, st.keyErr i,
    d.findSome? (fun e => (st.readErr i e).or (if perField e.typ then st.fieldSecErr i fields utx e else modErr e))]

/-- The first pass of a PARTIAL load for partition `p` (R154, R155): the first check that fails. -/
def State.partialErr (st : State) (i : Image) (p : Option Nat) : Option LoadErr :=
  let d := imgDir i
  let q := imgPart i
  let fields := st.brs.fields
  let named := (d.filter (fun e => perField e.typ)).map (·.fn)
  let has (t fn : Nat) : Bool := d.any (fun e => e.typ = t && e.fn = fn)
  let mine (fn : Nat) : Bool := fields.any (fun f => f.1 = fn && f.2.1 = q)
  firstErr [st.headerErr i, errIf (imgKind i ≠ 2) { code := 0x01 }, st.dirErr i, setErr i, st.keyErr i,
    errIf (imgU i 0x10 8 ≠ st.rn Reg.AXB_CFG_BUILD || st.rn Reg.AXB_CFG_BUILD = 0 || p.any (· ≠ q)) { code := 0x15 },
    d.findSome? (fun e => errIf (e.typ ≤ 7 || (perField e.typ && !mine e.fn)) { code := 0x15, fn := e.fn, sec := e.idx }),
    named.findSome? (fun fn => errIf (!([0x10, 0x12, 0x13] : List Nat).all (fun t => has t fn)) { code := 0x15, fn := fn }),
    named.findSome? (fun fn => errIf (!st.inService fn) { code := 0x0C, fn := fn }),
    d.findSome? (fun e =>
      let b := st.body i e
      (st.readErr i e).or (if perField e.typ then st.fieldSecErr i fields st.brs.utxOwned e
        else if e.typ = 8 then
          ((paceOf b).findSome? (fun r => errIf (!(fields.filter (fun f => f.2.2 = r.group)).all (fun f => f.2.1 = q))
            ({ code := 0x15, sec := e.idx } : LoadErr))).or (paceErr b fields false e.idx)
        else none))]

end Sys2Proof.Machine
end

