-- ==== Sys2Proof/Machine/Loads.lean ====
section
/-! DEFINITION. Loads (chapter 05): refusal and report of errors (R150, R161, R162), the commit point of a FULL and of a
PARTIAL load (R149, R155), the boot load (R145), REBIND (R147), and the field steps 6 and 7 with the sections a field is
loaded from (R146, R149, R151, R152). -/

namespace Sys2Proof.Machine

/-! ## Errors -/

/-- A detail register: check code, unit and value (R175, R372, R478, R577). -/
def detailWord (c u v : Nat) : Nat := c % 256 * 2 ^ 24 + u % 256 * 65536 + satN 16 v

/-- Record a load error in AXB_CFG_ERR and the detail register of its chapter; CHECK of the others reads 0 (R161). -/
def State.recordErr (st : State) (e : LoadErr) : State :=
  let st := st.wn Reg.AXB_CFG_ERR (e.code * 2 ^ 24 + e.fn % 256 * 65536 + e.sec % 65536)
  let st := [Reg.AXB_CFG_CORE_DETAIL, Reg.AXB_ROUTE_DETAIL, Reg.AXB_PART_DETAIL, Reg.AXB_CFG_ISL_DETAIL].foldl
    (fun st r => st.wn r 0) st
  match e.detail with
  | .plain => st
  | .core c s v => st.wn Reg.AXB_CFG_CORE_DETAIL (detailWord c s v)
  | .route c f v => st.wn Reg.AXB_ROUTE_DETAIL (detailWord c f v)
  | .part c u v => st.wn Reg.AXB_PART_DETAIL (detailWord c u v)
  | .isl c f v => st.wn Reg.AXB_CFG_ISL_DETAIL (detailWord c f v)
  | .seq c f => (st.wf Reg.PWR_SEQ_STATUS 31 24 c).wf Reg.PWR_SEQ_STATUS 23 16 f

/-- A load that is refused: its error is recorded, and its item ends with LOAD (R162, R462, R503). -/
def State.refuseLoad (st : State) (num : Option Nat) (e : LoadErr) : State :=
  let st := st.recordErr e
  match num with
  | some n => st.endCmd n 7 0xF (st.rn Reg.AXB_CFG_ERR)
  | none => st

/-- A load that fails a check before its commit point: nothing changes but the report (R150), and it ends. -/
def State.failLoad (st : State) (num : Option Nat) (e : LoadErr) (build : Nat) : State :=
  (st.refuseLoad num e).loadNotice build

/-- Whether a load is in progress (R148). -/
def State.loading (st : State) : Bool := st.rf Reg.AXB_CFG_STATUS 3 0 = 2 || st.rb Reg.AXB_CFG_STATUS 9

/-! ## The commit point of a FULL load (R149 steps 4 and 5) -/

/-- The partitions, the owners of fields and what PARTITION, CARVE, PORTS, PACE and TIMEBASE give the active build. -/
def State.takeBuild (st : State) (i : Image) : State :=
  let fields := fieldsOf (st.secBody i 1 0xFF)
  let ports := st.secBody i 5 0xFF
  let seqb := st.seqBytes i
  let pace := paceOf (st.secBody i 8 0xFF)
  let recs := partRecs (st.secBody i 3 0xFF)
  let led := ledgerOf (st.secBody i 9 0xFF) (recs.map (fun (r : PartRec) => r.p))
  let st := { st with brs := { st.brs with
    image := some i, fields := fields, indep := leAt (st.secBody i 2 0xFF) 0 1 = 1,
    parts := recs.foldl (fun t (r : PartRec) => tput {} t r.p
      { defined := true, contexts := r.contexts, queues := r.queues, blocks := r.blocks, label := r.label }) [],
    carve := carveOf (st.secBody i 4 0xFF),
    kvlOwned := ((List.range 8).filter (portOwned ports)).map (fun u => (u, leAt ports (8 * u + 1) 1, leAt ports (8 * u + 4) 4)),
    snpOwned := (List.range 8).filter (fun u => portOwned ports (8 + u)), utxOwned := utxOf ports,
    marks := pace.foldl (fun t (r : PaceRec) => tput [] t r.group r.marks) [],
    groups := pace.foldl (fun t (r : PaceRec) => tput [] t r.group r.fns) [],
    label := (List.range 32).map (fun k => tget 0 i.bytes (0x40 + k)), tags := led.1, partImgs := [], partialImg := none, led := [],
    toLoad := [], seq := seqTable seqb, minGap := leAt seqb 6 2, defInit := leAt seqb 8 1 } }
  let st := Config.sites.foldl (fun st fn =>
    let own := ((fields.find? (fun f => f.1 = fn)).map (·.2.1)).getD 0xFF
    st.setField fn { st.field fn with listed := fields.any (fun f => f.1 = fn), part := own, routes := false }) st
  (st.wn Reg.AXB_LEDGER_STATUS 0).wf Reg.AXB_LEDGER_STATUS 15 0 (satN 16 led.2)

/-- Registers of the partitions after a commit: FIELDS, the default policy of the lowest field's RAMP (log 5), no take-down
record (R489), queue-to-slot bindings cleared. -/
def State.partRegs (st : State) (i : Image) : State :=
  (List.range 16).foldl (fun st p =>
    let fs := st.partFields p
    let ramp := match fs with
      | fn :: _ => st.secBody i 0x12 fn
      | [] => []
    let st := ((st.wf (Reg.PWR_PART_STATE p) 15 8 fs.length).wn (Reg.AXB_PART_DOWN_TIME p) 0).wn (Reg.AXB_PART_DOWN_CAUSE p) 0
    ((st.wn (Reg.AXB_CFG_PART_BUILD p) 0).wn (Reg.PWR_PART_POLICY p) (leAt ramp 4 4)).wn (Reg.PWR_PART_SLACK p) (leAt ramp 8 8)) st

/-- Generation 1 of the routes: the entries of ROUTE with the bursar's own at the anchors, in bank 1; the anchors, which no
FRAMES section need reach, take theirs at once (R360, R373). -/
def State.firstRoutes (st : State) (i : Image) : State :=
  let r := routeSetOf (st.secBody i 6 0xFF) (st.brs.fields.map (fun f => (f.1, f.2.1)))
  let st := { st with mesh := { st.mesh with ovr := [], transit := [], gen := 1, commit := none } }
  let st := st.setBank 1 (st.anchorFill r)
  st.anchors.foldl (fun st a => if st.powered a && (st.field a).part = 0xFF then st.loadRoutes a else st) st

/-- Switch-ons of a whole sequencing table: each entry is one step of its own (R623). -/
def State.tableOns (st : State) : List Switch :=
  (st.brs.seq.zipIdx).flatMap (fun e =>
    (e.1.fns.filter (fun fn => if e.1.full then !st.isFull fn && st.partState (st.owner fn) = 1
        else (st.field fn).power == .off && st.inService fn)).map (fun fn =>
      ({ fn := fn, target := if e.1.full then .full else .base, entry := e.2 + 1,
         who := if e.1.full then st.owner fn else 0xFE } : Switch)))

/-- Steps 4 and 5 of R149: the build becomes the active one and every partition starts. A partition with a field that has
tripped and not cooled keeps OFF (R300). -/
def State.commitFull (st : State) (i : Image) (source : Nat) (num : Option Nat) : State :=
  let was := st.brs.indep
  let st := st.clearTallies (2 ^ 32 - 1)
  let st := (st.takeBuild i).partRegs i
  /- the module changes timebase mode only here (R63) -/
  let st := if st.brs.indep = was then st
    else Config.sites.foldl (fun st fn =>
      if st.powered fn && (st.tbsState fn = 2 || st.tbsState fn = 3) then
        st.nodeEnter fn st.nodeMode else st) st
  let c := Reg.AXB_CFG_STATUS
  let st := (((st.wf c 27 24 source).wf c 23 16 (st.rf c 23 16 + 1)).setb c 8).wf c 3 0 2
  let st := (st.wn Reg.AXB_CFG_BUILD (imgBuild i)).wf Reg.AXB_REVISION 23 8 (imgReq i / 256 % 65536)
  let st := (st.firstRoutes i).offUnless (fun fn => st.brs.fields.any (fun f => f.1 = fn))
  let st := { st with car := { st.car with flash := { st.car.flash with source := source } } }
  let st := Config.sites.foldl (fun st fn => if st.powered fn then (st.buildPower fn).clrb (Reg.FLD_CFG_STATUS fn) 31 else st) st
  let st := (st.tbsUpdate).ledgerEvent
  let start := (List.range 16).filter (fun p => (st.part p).defined && !st.hotFields p)
  let st := (List.range 16).foldl (fun st p =>
    if (st.part p).defined && st.hotFields p then
      (st.wf (Reg.PWR_PART_STATE p) 31 24 6).setPart p { st.part p with failing := 6 } else st) st
  let st := { st with brs := { st.brs with settling := start, loadBy := num, lateErr := false } }
  let st := start.foldl (fun st p => st.beginRise p true) st
  let ons := st.brs.ons.filter (fun s => s.who = 0xFE && s.entry = 0) ++ st.tableOns
  let st := { st with brs := { st.brs with ons := ons, onAt := max st.brs.onAt (st.now + 2000000) } }
  if start.isEmpty then (st.wf c 3 0 4).unconfigure.loadEnd 1 (imgBuild i) else st

/-- A FULL load (R149): steps 1 to 3 with their checks, then the commit. -/
def State.loadFull (st : State) (i : Image) (source : Nat) (num : Option Nat) : State :=
  if st.loading then st.refuseLoad num { code := 0x18 }
  else if (List.range 16).any (fun p => st.partState p ≠ 0) then st.refuseLoad num { code := 0x17 }
  else match st.fullErr i with
    | some e => st.failLoad num e (imgBuild i)
    | none => st.commitFull i source num

/-- The image of flash slot `s`, where it holds one that passes every check. -/
def State.bootable (st : State) (s : Nat) : Option Image :=
  ((st.car.flash.slots.find? (fun e => e.1 = s)).map (fun e => e.2)).filter (fun i => (st.fullErr i).isNone)

/-- What the boot load records of a slot that it cannot load. -/
def State.bootNote (st : State) (s : Nat) : State :=
  match st.car.flash.slots.find? (fun e => e.1 = s) with
  | none => st.recordErr { code := 0x1A }
  | some (_, i) => match st.fullErr i with
    | some e => st.failLoad none e (imgBuild i)
    | none => st

/-- The boot load (R145): PRIMARY, then FALLBACK, as AXB_CFG_BOOT names them; a slot that holds no image is skipped. -/
def State.bootLoad (st : State) : State :=
  let a := st.rf Reg.AXB_CFG_BOOT 3 0
  let b := st.rf Reg.AXB_CFG_BOOT 7 4
  match st.bootable a with
  | some i => st.commitFull i (a + 1) none
  | none =>
    let st := st.bootNote a
    if b = 0xF then st
    else match st.bootable b with
      | some i => st.commitFull i (b + 1) none
      | none => st.bootNote b

/-! ## Partial loads (R154, R155) -/

/-- Records of a LEDGER body that a PARTIAL image for partition `p` brings, and how many are dropped (R532, R533). -/
def partialTags (b : List Byte) (p : Nat) : List (Nat × Nat × List Byte) × Nat :=
  let r := ledgerOf b [p]
  let own := r.1.filter (fun e => e.2.1 = p)
  (own, r.2 + (r.1.length - own.length))

/-- Replace the pace groups that a PACE section names (R154). -/
def State.takePace (st : State) (b : List Byte) : State :=
  { st with brs := { st.brs with
    marks := (paceOf b).foldl (fun t (r : PaceRec) => tput [] t r.group r.marks) st.brs.marks,
    groups := (paceOf b).foldl (fun t (r : PaceRec) => tput [] t r.group r.fns) st.brs.groups } }

/-- The commit point of a PARTIAL load: its source, the pace groups and the partition's TAG entries take effect, and its
fields are taken to FULL through the shared schedule (R155, R533, R544). Granules keep their holders. AXB_CFG_STATUS.LOADS counts the commits of FULL loads alone (log 25). -/
def State.commitPartial (st : State) (i : Image) (p : Nat) (num : Option Nat) : State :=
  let tags := partialTags (st.secBody i 9 0xFF) p
  let st := { st with brs := { st.brs with
    partImgs := (p, i) :: st.brs.partImgs, partialImg := some (p, i), loadBy := num,
    tags := if (imgSec i 9 0xFF).isSome then (st.brs.tags.filter (fun (e : Nat × Nat × List Byte) => e.2.1 ≠ p)) ++ tags.1 else st.brs.tags } }
  let st := st.takePace (st.secBody i 8 0xFF)
  let st := st.addSat Reg.AXB_LEDGER_STATUS 15 0 tags.2
  let st := (st.wn (Reg.AXB_CFG_PART_BUILD p) (imgBuild i)).ledgerEvent
  let c := Reg.AXB_CFG_STATUS
  let st := (st.wf c 15 12 p).setb c 9
  (st.beginRise p true).queueOns p

/-- A PARTIAL load for partition `p`, or for whichever its header names (R144, R154, R155). -/
def State.loadPart (st : State) (i : Image) (p : Option Nat) (num : Option Nat) : State :=
  let q := p.getD (imgPart i)
  if st.loading then st.refuseLoad num { code := 0x18 }
  else if q < 16 && !(st.partState q = 0 || st.partState q = 3) then st.refuseLoad num { code := 0x16 }
  else match st.partialErr i p with
    | some e => st.failLoad num e (imgBuild i)
    | none => st.commitPartial i q num

/-- REBIND (R147): header, directory and signature are verified; BOUND is set when the image is the active build's. -/
def State.rebind (st : State) (i : Image) (num : Nat) : State :=
  if st.loading then st.refuseLoad (some num) { code := 0x18 }
  else match firstErr [st.headerErr i, st.dirErr i, setErr i, st.keyErr i] with
  | some e => st.refuseLoad (some num) e
  | none =>
    if imgKind i = 1 && imgBuild i = st.rn Reg.AXB_CFG_BUILD && st.rn Reg.AXB_CFG_BUILD ≠ 0 then
      ({ st with brs := { st.brs with image := some i } }.setb Reg.AXB_CFG_STATUS 8).endCmd num 0 0 0
    else st.endCmd num 2 0xE 0

/-! ## A field's sections (R146) -/

/-- Whether an image has sections of a field. -/
def imgNames (i : Image) (fn : Nat) : Bool := (imgDir i).any (fun e => perField e.typ && e.fn = fn)

/-- The image that a field's sections come from: the newest partial committed that names it, else the full build. -/
def State.sourceOf (st : State) (fn : Nat) : Option Image :=
  match st.brs.partImgs.find? (fun e => imgNames e.2 fn) with
  | some e => some e.2
  | none => st.brs.image

/-- A section of a field's source; empty where it has none. -/
def State.section (st : State) (typ fn : Nat) : List Byte :=
  match st.sourceOf fn with
  | some i => st.secBody i typ fn
  | none => []

/-- The directory index of a field's section, or 0xFFFF. -/
def State.sectionIx (st : State) (typ fn : Nat) : Nat :=
  match (st.sourceOf fn).bind (fun i => imgSec i typ fn) with
  | some e => e.idx
  | none => 0xFFFF

/-- Shape registers of a core slot (R177): GZC_SHAPE and GZC_SHAPE2 take the section's values, with the beat counts of R166
and the user area of R170. -/
def State.shapeRegs (st : State) (fn s : Nat) (x : Shape) (on : Bool) : State :=
  if !on then (st.wn (Reg.GZC_SHAPE fn s) 0).wn (Reg.GZC_SHAPE2 fn s) 0
  else
    let a := x.rows + x.cols * 2 ^ 8 + x.mv * 2 ^ 16 + x.taps * 2 ^ 24 + 2 ^ 31 + x.acc * 2 ^ 32 + x.resc * 2 ^ 48
    let pipe := (if x.rows = 32 then 21 else 20) + (x.cols + x.lanes - 1) / max 1 x.lanes - 1
    let kib := 4096 - 32 - x.resc * 8 / 1024
    let b := x.feed + x.lanes * 2 ^ 8 + x.rows * 2 ^ 16 + pipe * 2 ^ 24 + kib * 2 ^ 48
    let st := (st.wn (Reg.GZC_SHAPE fn s) a).wn (Reg.GZC_SHAPE2 fn s) b
    (st.wf (Reg.STO_NSP_CFG fn s) 23 12 kib).wf (Reg.STO_NSP_CFG fn s) 2 0 0

/-- The CORE section: shapes and slice map (R177, R179, R180). -/
def State.takeCore (st : State) (fn : Nat) (b : List Byte) : State :=
  let n := coreCount b
  let st := (List.range 4).foldl (fun st s => st.shapeRegs fn s (shapeOf b s) (s < n)) st
  (List.range 16).foldl (fun st k =>
    st.wn (Reg.FLD_SLICE_MAP fn k) ((List.range 4).foldl (fun v j => v + mapEntry b (4 * k + j) * 2 ^ (16 * j)) 0)) st

/-- The RAMP section: default policy and slack, chaff settings and the ramp tables (R124, R136). -/
def State.takeRamp (st : State) (fn : Nat) (b : List Byte) : State :=
  let pol := leAt b 4 4
  let slack := leAt b 8 8
  let st := (st.wn (Reg.FLD_PACE_POLICY fn) pol).wn (Reg.FLD_PACE_SLACK fn) slack
  let st := st.setField fn { st.field fn with polSets := [], slackSets := [], common := [], firstStep := true,
                                              loopHeld := false, missed := 0 }
  let st := (List.range 4).foldl (fun st s => st.wn (Reg.FLD_CHAFF_CTL fn s) (leAt b (0x10 + 4 * s) 4)) st
  let st := (List.range 16).foldl (fun st k =>
    (st.wn (Reg.FLD_RAMP_DOWN fn k) (leAt b (0x20 + 2 * k) 2)).wn (Reg.FLD_RAMP_UP fn k) (leAt b (0x40 + 2 * k) 2)) st
  let r := Reg.FLD_RAMP_CTL fn
  ((st.wf r 4 0 (leAt b 0 1)).wf r 12 8 (leAt b 1 1)).setb r 31

/-- Island `s` of field `fn` starts anew, out of reset where it stands. -/
def State.freshIsl (st : State) (fn s : Nat) (present : Bool) : State :=
  { st with isl := tput {} st.isl (fn * 4 + s) (if present then { rstLow := false } else {}) }

/-- The ISLAND section: which islands stand where, their taps, blocks and transceiver slot, and ISL_FIELD (R574). -/
def State.takeIsland (st : State) (fn : Nat) (b : List Byte) : State :=
  let present (s : Nat) : Bool := leAt b (0x10 + 16 * s) 1 = 1
  let mask := (List.range 4).foldl (fun v s => if present s then v + 2 ^ s else v) 0
  let st := (List.range 4).foldl (fun st s =>
    let c : IslCfg := if present s then
        { present := true, attach := leAt b (0x11 + 16 * s) 1 % 8, regs := leAt b (0x16 + 16 * s) 2,
          utx := if leAt b 6 1 = s then Config.utxGroup fn else 0xFF } else {}
    let st := { st with brs := { st.brs with islCfg := tput {} st.brs.islCfg (fn * 4 + s) c } }
    let st := st.freshIsl fn s (present s)
    if present s then st.clrb (Reg.ISL_STATUS fn s) 0 else st) st
  let st := { st with brs := { st.brs with islFreq := tput 0 st.brs.islFreq fn (leAt b 4 2) } }
  if b.isEmpty then st.wn (Reg.ISL_FIELD fn) 0
  else st.wn (Reg.ISL_FIELD fn) (leAt b 6 1 * 2 ^ 24 + mask * 2 ^ 16 + leAt b 4 2 % 1024)

/-- Write the frames of a FRAMES body with their checks; a frame that no record writes is zero (R137, R159). -/
def State.takeFrames (st : State) (fn : Nat) (b : List Byte) : State :=
  let f := st.field fn
  let fr := allFrames b
  st.setField fn { f with
    frames := fr.foldl (fun t x => tput [] t x.1 ((x.2.zipIdx.filter (fun e => e.1 ≠ 0)).map (fun e => (e.2, e.1)))) [],
    frameCrc := fr.foldl (fun t x => tput 0 t x.1 (crc32 0x82F63B78 x.2)) [] }

/-- The core list of a partition: the core slots of its fields that hold a core, as FN × 4 + slot, ascending (R494). -/
def State.coreList (st : State) (p : Nat) : List Nat :=
  (st.partFields p).flatMap (fun fn => ((List.range 4).filter (fun s => st.present fn s)).map (fun s => fn * 4 + s))

/-- Bind the work queues of a partition to its core list (R494): queue q to entry (q - 1) mod C; queue 0 to none. -/
def State.bindQueues (st : State) (p : Nat) : State :=
  let l := st.coreList p
  (List.range (st.part p).queues).foldl (fun st q =>
    let k := l.getD ((q - 1) % max 1 l.length) 0
    st.wf (Reg.QUE_Q_BIND p q) 15 0 (if q = 0 || l.isEmpty then 0xFFFF else k / 4 * 256 + k % 4)) st

/-- FLD_CFG_STATUS at the end of a field's load. -/
def State.fieldCommitted (st : State) (fn : Nat) : State :=
  let r := Reg.FLD_CFG_STATUS fn
  let st := ((st.wf r 15 8 0).wf r 7 0 (st.rf r 7 0 + 1)).setb r 31
  let n := (st.field fn).spareTotal
  let cores := ((List.range 4).filter (fun s => st.present fn s)).map (fun s =>
    (s, st.rd (Reg.GZC_SHAPE fn s), st.rd (Reg.GZC_SHAPE2 fn s)))
  let st := (st.setLed fn { cores := cores, spareFree := n, spareTotal := n }).ledgerEvent
  if st.owner fn < 16 then st.bindQueues (st.owner fn) else st

/-- Partitions whose required routes cross a field (R151). -/
def State.crossing (st : State) (fn : Nat) : List Nat :=
  let r := st.bankSet (st.mesh.gen % 2)
  (List.range 16).filter (fun p => (st.part p).defined && (
    (st.walks r p).any (fun w => w.2.2.2.hops.any (fun h => h.1 = fn)) ||
    ((st.walks r 0xFE).filter (fun w => (r.fieldsOf p).contains w.1 || (r.fieldsOf p).contains w.2.1)).any
      (fun w => w.2.2.2.hops.any (fun h => h.1 = fn))))

/-- Steps 6 and 7 of R149 for a field that has its sections: frames and checks, SPARE, shapes, ramps, islands, ports and
route entries; the field commits, its compute domain is released, and its partition, with the default policy of its lowest
field, may reach ON. -/
def State.loadField (st : State) (fn : Nat) : State :=
  let core := st.section 0x10 fn
  let isl := st.section 0x11 fn
  let spare := st.section 0x14 fn
  let st := (((st.takeFrames fn (st.section 0x13 fn)).takeCore fn core).takeRamp fn (st.section 0x12 fn)).takeIsland fn isl
  let mine := (List.range (blockCount core)).map (fun k => (blockEntry core k % 512, 1 + blockEntry core k / 2 ^ 14))
  let theirs := (islBlocks isl).map (fun e => (e % 512, 16 + e / 2 ^ 14))
  let st := st.setField fn { st.field fn with
    blocks := (mine ++ theirs).foldl (fun t e => tput 0 t e.1 e.2) [], spare := spare, spareUsed := [],
    spareTotal := ((List.range 64).filter (fun g => leAt core (0x50 + 2 * g) 2 = 0xFF00)).length }
  let port := Config.kvlPort fn
  let enable := st.brs.kvlOwned.any (fun e => e.1 = port && e.2.1 = 1)
  let st := if port < 8 then st.wf (Reg.KVL_CTL fn) 0 0 (if enable then 1 else 0) else st
  let st := ((st.granuleRegs fn).loadRoutes fn).fieldCommitted fn
  let p := st.owner fn
  let ramp := st.section 0x12 fn
  let st := if p < 16 && (st.partFields p).head? = some fn then
      (st.wn (Reg.PWR_PART_POLICY p) (leAt ramp 4 4)).wn (Reg.PWR_PART_SLACK p) (leAt ramp 8 8) else st
  let st := st.holdCores fn false
  let st := st.tellersUp fn
  let st := (List.range 4).foldl (fun st s => if st.present fn s then st.refresh fn s else st) st
  /- a partial reload lets a FREE node return to coupled lock (R70) -/
  let st := if st.inPartial fn && !st.brs.indep && st.tbsState fn = 3 then
      let st := st.setField fn { st.field fn with retrainUntil := st.now + 4000 }
      ((st.nodeEnter fn 2).setb (Reg.TBS_EVENT fn) 1).tbsUpdate else st
  let st := { st with brs := { st.brs with toLoad := st.brs.toLoad.filter (fun t => t.fn ≠ fn) } }
  st.riseOn (st.owner fn)

/-- A code that a section may fail with after the commit point (R162). -/
def lateCode (c : Nat) : Bool := c = 0x08 || c = 0x09 || c = 0x19 || c = 0x1A

/-- Record the failure of a field's FRAMES section after the commit point (R152, R162). -/
def State.lateFail (st : State) (code fn : Nat) : State :=
  let st := st.recordErr { code := code, fn := fn, sec := st.sectionIx 0x13 fn }
  { st with brs := { st.brs with lateErr := true } }

/-- FIELD_FRAMES_WRITE: a field at FULL that waits for its sections is loaded (R149 steps 6 and 7); `failure` is the code
of a digest, tag, write or read failure, 0 for none, and takes its partition down (R152). A source that is not bound cannot
be read (R147). -/
def execFieldFramesWrite (fn failure : Nat) (st : State) : Out1 :=
  if !(st.brs.toLoad.any (fun t => t.fn = fn) && st.isFull fn) then .next st
  else
    let code := if !st.rb Reg.AXB_CFG_STATUS 8 && !st.brs.partImgs.any (fun e => imgNames e.2 fn) then 0x1A else failure
    if lateCode code then
      let st := st.lateFail code fn
      .next (st.bursarDown (st.owner fn) 7 4 0x0A fn (2 ^ 16 - 1) 0)
    else .next (st.loadField fn)

/-- TRANSIT_FIELD_WRITE: a transit-only field at BASE takes its region-3 frames and its route entries, and commits (R151); a
failure retires it and takes down the partitions whose required routes cross it. -/
def execTransitFieldWrite (fn failure : Nat) (st : State) : Out1 :=
  let f := st.field fn
  if !(f.listed && f.part = 0xFF && f.power == .base && f.joined && !st.rb (Reg.FLD_CFG_STATUS fn) 31) then .next st
  else
    let code := if st.rb Reg.AXB_CFG_STATUS 8 then failure else 0x1A
    if lateCode code then
      let st := st.lateFail code fn
      let ps := st.crossing fn
      let st := ps.foldl (fun st p => st.bursarDown p 7 4 0x0A fn (2 ^ 16 - 1) 0) st
      .next (st.retireField fn 3 7 4)
    else
      let st := ((st.takeFrames fn (st.section 0x13 fn)).loadRoutes fn).fieldCommitted fn
      .next ((List.range 16).foldl (fun st p => st.riseOn p) st)

/-- LOAD_SLOT: a FULL load from a flash slot (R144, R149). An empty slot cannot be read. -/
def execLoadSlot (it : Item) (st : State) : Out1 :=
  st.onItem it 0x40 (fun x st =>
    if st.brs.testMode then st.endItem x.num 2 0 0
    else if 3 < it.u 0x20 1 then st.endItem x.num 3 0 0
    else match st.car.flash.slots.find? (fun e => e.1 = it.u 0x20 1) with
      | none => if st.loading then st.refuseLoad (some x.num) { code := 0x18 } else st.failLoad (some x.num) { code := 0x1A } 0
      | some (s, i) => st.loadFull i (s + 1) (some x.num))

/-- A load from host memory that cannot be read (R161 code 0x1A). -/
def State.noSource (st : State) (num : Nat) : State :=
  if st.loading then st.refuseLoad (some num) { code := 0x18 } else st.failLoad (some num) { code := 0x1A } 0

/-- LOAD_BITSTREAM: a FULL or PARTIAL load from host memory, or REBIND (R144, R147, R154). -/
def execLoadBitstream (it : Item) (img : Image) (st : State) : Out1 :=
  st.onItem it 0x41 (fun x st =>
    if st.brs.testMode then st.endItem x.num 2 0 0
    else if !st.canDma 0 || it.u 0x30 8 < img.size then st.noSource x.num
    else if it.u 0x20 1 % 2 = 1 then st.rebind img x.num
    else if imgKind img = 2 then st.loadPart img none (some x.num)
    else st.loadFull img 8 (some x.num))

/-- LOAD_PARTIAL: the control item of a partition's own queue loads a PARTIAL image for it (R144, R154, R155). -/
def execLoadPartial (it : Item) (img : Image) (st : State) : Out1 :=
  st.onItem it 0x24 (fun x st =>
    if !st.canDma (it.part + 1) || it.u 0x30 8 < img.size then st.noSource x.num
    else st.loadPart img (some it.part) (some x.num))

end Sys2Proof.Machine
end

