-- ==== Sys2Proof/Machine/Power.lean ====
section
/-! DEFINITION. Power-up, module reset and the sequencing schedule (chapters 04, 18, 24): the boot from carrier flash (R93,
R449, R605-R607), switch-on and switch-off steps (R94, R98, R484, R623), joining the timebase (R66, R67), and what the
carrier does with the entry (R85-R88, R601). -/

namespace Sys2Proof.Machine

/-! ## Loss of the wafer and boot (R93, R449, R601) -/

/-- All wafer state is lost (R599, R601 step 4): what the carrier, the flash and the fuses hold stays, with
AXB_RESET_STATUS and PWR_ENTRY_STATUS.TRIPPED. Every driven pin is released (R603). -/
def State.waferLost (st : State) : State :=
  let status := st.rd Reg.AXB_RESET_STATUS
  let tripped := st.rf Reg.PWR_ENTRY_STATUS 4 4
  let c := st.car
  let s := { State.reset with
    pending := st.pending, fresh := st.fresh, out := st.out, host := { perst := st.host.perst },
    car := { fuses := c.fuses, flash := c.flash, railsOn := c.railsOn, entryUp := c.entryUp, trip := c.trip,
             inSince := c.inSince, outSince := c.outSince, tripSince := c.tripSince, tick := c.tick, rstLow := c.rstLow, resetWait := c.resetWait, merged := c.merged,
             strapPins := c.strapPins, refClock := c.refClock, regOffset := c.regOffset, jtagIr := c.jtagIr,
             boundary := c.boundary } }
  (s.wr Reg.AXB_RESET_STATUS status).wf Reg.PWR_ENTRY_STATUS 4 4 tripped

/-- The boot record (R448): copy tried first, PRIMARY, FALLBACK, and whether its CRC failed. -/
def Flash.record (f : Flash) : Nat × Nat × Nat × Bool :=
  let b := f.bootBytes
  if crc32 0xEDB88320 (bytesAt b 0 60) = leAt b 0x3C 4 then (leAt b 4 1, leAt b 5 1 % 16, leAt b 6 1 % 16, false)
  else (0, 0, 0xF, true)

/-- Whether a firmware image has the form of R447 and verifies: the SHA-384 of its PUBKEY is the fused digest, its signature
covers its header, and its body hashes to what the header holds. -/
def fwVerifies (digest : List Byte) (x : FwImage) : Bool :=
  let b := x.bytes
  let n := leAt b 8 4
  let sig := b.drop (256 + n)
  b.length = 448 + n && leAt b 0 4 = 0x46575A47 && leAt b 4 1 ≠ 0 && zerosIn b 5 8 && zerosIn b 12 16 && zerosIn b 64 256 &&
    sha384 (sig.take 96) == digest && sha384 (bytesAt b 256 n) == bytesAt b 16 48 && sigOk sig (b.take 256)

/-- SERIES of a firmware copy that verifies under R447, or 0. -/
def Fuses.seriesOf (f : Fuses) (w : Option FwImage) : Nat :=
  match w with
  | some x => if fwVerifies f.fwDigest x && f.minSeries ≤ leAt x.bytes 4 1 then leAt x.bytes 4 1 else 0
  | none => 0

/-- Recovery (R451): only PF0's endpoint is up. -/
def State.enterRecovery (st : State) : State :=
  let st := { st with brs := { st.brs with recovery := true } }
  ((st.setb Reg.AXB_BOOT_STATUS 3).setb Reg.HST_READY 0).latchFault

/-- Test mode (R606): every usable field to BASE through the schedule, in the order of the default table. -/
def State.testBoot (st : State) : State :=
  let t := st.car.flash.seqTable
  if (st.seqErr t []).isSome then { st with brs := { st.brs with testMode := true } }
  else
    let es := seqTable t
    let on (fn : Nat) : Bool := st.usable fn && (st.field fn).power == .off
    let listed := (es.zipIdx).flatMap (fun (e : SeqEntry × Nat) =>
      (e.1.fns.filter on).map (fun fn => ({ fn := fn, target := .base, entry := e.2 + 1, who := 0xFE } : Switch)))
    let rest := (Config.sites.filter (fun fn => on fn && !es.any (fun (e : SeqEntry) => e.fns.contains fn))).map
      (fun fn => ({ fn := fn, target := .base, entry := 0, who := 0xFE } : Switch))
    { st with brs := { st.brs with testMode := true, seq := es, minGap := leAt t 6 2, defInit := leAt t 8 1,
                                   ons := st.brs.ons ++ listed ++ rest } }

/-- Step 7 of R93: the bursar reports the first broken rule of the default table, where the primary image brings none of
its own (R94, R97). -/
def State.checkTable (st : State) : State :=
  let own := match st.car.flash.slots.find? (fun e => e.1 = st.rf Reg.AXB_CFG_BOOT 3 0) with
    | some (_, i) => (imgSec i 7 0xFF).isSome
    | none => false
  if own then st
  else match st.seqErr st.car.flash.seqTable [] with
    | some (c, f) => (st.wf Reg.PWR_SEQ_STATUS 31 24 c).wf Reg.PWR_SEQ_STATUS 23 16 f
    | none => st

/-- Firmware boot (R449) in the anchor, and the bursar's start: R93 steps 6 to 9 as far as they go at once. -/
def State.bootFirmware (st : State) (anchor standby : Nat) : State :=
  let fl := st.car.flash
  let rec_ := fl.record
  let a := st.car.fuses.seriesOf fl.fwA
  let b := st.car.fuses.seriesOf fl.fwB
  let first := if rec_.1 = 1 then b else a
  let other := if rec_.1 = 1 then a else b
  let r := Reg.AXB_BOOT_STATUS
  let st := ((st.wf r 31 24 b).wf r 23 16 a).wf r 2 2 (if rec_.2.2.2 then 1 else 0)
  if st.rb Reg.AXB_STRAPS 3 || (first = 0 && other = 0) then st.enterRecovery
  else
    let fell := first = 0
    let copy := if fell then 1 - min 1 rec_.1 else min 1 rec_.1
    let st := (st.wf r 1 1 (if fell then 1 else 0)).wf r 0 0 copy
    let st := st.wf Reg.AXB_REVISION 7 0 (if fell then other else first)
    let st := { st with brs := { st.brs with running := true } }
    let st := st.setField anchor { st.field anchor with hkUp := true, hkBeatAt := st.now }
    let st := st.wf (Reg.FLD_TELLER_STATUS anchor 3) 34 32 2
    let st := (st.wf Reg.AXB_CFG_BOOT 3 0 rec_.2.1).wf Reg.AXB_CFG_BOOT 7 4 rec_.2.2.1
    let st := (st.checkTable.ledgerEvent.setb Reg.HST_READY 0).pins
    let st := if standby = 0xFF then st
      else { st with brs := { st.brs with ons := [{ fn := standby, target := .base, entry := 0, who := 0xFE }] } }.wf
        Reg.PWR_SEQ_STATUS 11 8 2
    let st := { st with brs := { st.brs with onAt := st.now + 2000000 } }
    if st.rb Reg.AXB_STRAPS 2 then st.testBoot else st.bootLoad

/-- R93 from step 4: fuses and flash are read into their registers, the anchor's base domain comes on, wafer time starts at
0, in HOLDOVER where TB_REFCLK is absent (R607). A module with no usable anchor stays dark. -/
def State.bootWafer (st : State) : State :=
  let f := st.car.fuses
  let fl := st.car.flash
  let good (fn : Nat) : Bool := fieldBit f.okLo f.okHi fn && !fieldBit fl.retireLo fl.retireHi fn
  let anchor := if good 44 then 44 else 55
  let standby := if anchor = 44 && good 55 then 55 else 0xFF
  let funcs := (Config.sites.filter (fieldBit f.okLo f.okHi)).length
  let st := (st.wn Reg.AXB_FIELD_OK_LO f.okLo).wn Reg.AXB_FIELD_OK_HI f.okHi
  let st := (st.wn Reg.AXB_FIELD_RETIRED_LO fl.retireLo).wn Reg.AXB_FIELD_RETIRED_HI fl.retireHi
  let st := st.wn Reg.AXB_GRADE (f.grade + funcs * 2 ^ 8 + anchor * 2 ^ 16 + standby * 2 ^ 24)
  let present := (List.range 4).foldl (fun v k => if f.keyDigest.any (fun e => e.1 = k) then v + 2 ^ k else v) 0
  let st := st.wn Reg.AXB_KEY_STATE ((if f.aesKey.isSome then 1 else 0) + present * 16 + f.revoked % 16 * 256)
  let st := st.wn Reg.AXB_KEY_SVN ((List.range 4).foldl (fun v k => v + tget 0 f.svn k % 256 * 2 ^ (8 * k)) 0)
  let st := st.wn Reg.AXB_REVISION (f.step * 2 ^ 24)
  if !good anchor then st
  else
    let gone := Config.sites.filter (fun fn => fieldBit f.okLo f.okHi fn && fieldBit fl.retireLo fl.retireHi fn)
    let st := { st with car := { st.car with laneF55 := anchor = 55 }, brs := { st.brs with bootGone := gone } }
    let st := { st with now := 0, clock := true }.baseOn anchor false
    let st := st.setField anchor { st.field anchor with joined := true }
    let st := st.nodeEnter anchor (if st.car.refClock then 2 else 4)
    let st := if st.car.refClock then st
      else ((st.setb (Reg.TBS_EVENT anchor) 5).setb (Reg.TBS_EVENT anchor) 2).notice 0x20 0xFF anchor 0xFF 0xFF 0 0
    (st.tbsUpdate.wf Reg.PWR_SEQ_STATUS 11 8 1).bootFirmware anchor standby

/-- Steps 6 and 7 of R601, or step 3 of R605 and onward at power-on: straps are latched, AXB_RESET_STATUS is written, and the
module boots, once RST_N is high and the entry lies within 40-60 V. CAUSE 4 sets FAULT_LATCH (R604). -/
def State.finishReset (st : State) : State :=
  match st.car.resetWait with
  | none => st
  | some cause =>
    if st.car.rstLow || !st.car.entryUp || st.car.trip || st.car.emergency || st.car.outSince.isSome then st
    else
      let r := Reg.AXB_RESET_STATUS
      let n := if cause = 1 then 0 else st.rf r 15 8 + 1
      let m := if cause = 1 then 0 else satN 8 st.car.merged
      let st := (((st.wn r 0).wf r 7 0 cause).wf r 15 8 n).wf r 31 24 m
      let st := st.wn Reg.AXB_STRAPS (st.car.strapPins % 16)
      let st := if cause = 5 then st.setb Reg.PWR_ENTRY_STATUS 4 else st
      let st := { st with car := { st.car with
        resetWait := none, merged := 0, railsOn := true, tick := 0, tripSince := none, inSince := none } }
      let st := st.bootWafer
      if cause = 4 then st.latchFault else st

/-- A module reset (R601): the carrier takes every regulator down, all wafer state is lost, and the module boots again when
RST_N allows it. A further cause before step 6 is merged into it; an emergency power-down completes first. -/
def State.moduleReset (st : State) (cause : Nat) : State :=
  if st.car.resetWait.isSome then { st with car := { st.car with merged := st.car.merged + 1 } }
  else if !st.car.entryUp then st
  else if st.car.emergency then { st with car := { st.car with resetWait := some cause } }
  else
    let st := st.waferLost
    { st with car := { st.car with resetWait := some cause } }.finishReset

/-- POWER_UP: the entry rises through 42 V, the carrier brings its rails up and the module boots (R93, R605). `straps` are
the levels at the strap pins. -/
def execPowerUp (straps : Nat) (refClock : Bool) (st : State) : Out1 :=
  if (st.car.entryUp && st.car.railsOn) || st.car.trip then .next st
  else
    let st := st.waferLost
    .next { st with car := { st.car with
      entryUp := true, railsOn := true, strapPins := straps % 16, refClock := refClock, resetWait := some 1, merged := 0,
      trip := false, tick := 0, inSince := none } }.finishReset

/-! ## The schedule of switch-ons (R94, R101, R623) -/

/-- The switch-ons of the next step: one whole table entry, or up to six packed ones. -/
def nextOns (l : List Switch) : List Switch :=
  match l with
  | [] => []
  | h :: _ => if h.entry = 0 then (l.takeWhile (fun s => s.entry = 0)).take Config.stepFields
              else l.filter (fun s => s.entry = h.entry)

/-- One switch-on: OFF to BASE, and on to FULL where that is the target; BASE or RETAIN to FULL (R94). -/
def State.switchOn (st : State) (s : Switch) : State :=
  let p := (st.field s.fn).power
  if !st.inService s.fn then st
  else match p, s.target with
    | .off, .full => st.baseOn s.fn true
    | .off, .base => st.baseOn s.fn false
    | .base, .full => if (st.field s.fn).joined then st.computeOn s.fn else st.setPower s.fn .moving
    | .retain, .full => (st.wakeField s.fn).tbsUpdate
    | _, _ => st

/-- SEQUENCING_STEP: once the gap has elapsed, the next step switches its fields on (R94, R623). The next step starts
MIN_GAP and the largest EXTRA_GAP of its fields' entries later. -/
def execSequencingStep (st : State) : Out1 :=
  let go := nextOns st.brs.ons
  if go.isEmpty || !st.clock || st.car.emergency then .next st
  else
    let st := st.until st.brs.onAt
    let rest := st.brs.ons.filter (fun s => !go.contains s)
    let extra := ((st.brs.seq.filter (fun (e : SeqEntry) => go.any (fun s => e.fns.contains s.fn))).map (·.extra)).foldl max 0
    let standby := go.any (fun s => s.fn = st.rf Reg.AXB_GRADE 31 24 && s.target == .base)
    let st := { st with brs := { st.brs with ons := rest, onAt := st.now + (st.brs.minGap + extra) * 1000 } }
    let r := Reg.PWR_SEQ_STATUS
    let st := (st.wf r 7 0 (st.rf r 7 0 + 1)).wf r 11 8 (if rest.isEmpty then 0 else if standby then 2 else 3)
    let st := go.foldl (fun st s => st.switchOn s) st
    .next ((List.range 16).foldl (fun st p => st.riseOn p) st)

/-! ## Joining the timebase (R66, R67) -/

/-- Whether a joining field finds an enabled link to a powered field that has joined. -/
def State.hasParent (st : State) (fn : Nat) : Bool :=
  (List.range 4).any (fun p => !st.portDisabled fn p &&
    (Config.neighbour fn p).any (fun n => st.powered n && (st.field n).joined))

/-- Whether a field has come on and not yet joined. -/
def State.joining (st : State) (fn : Nat) : Bool :=
  let f := st.field fn
  st.usable fn && (f.power == .base || f.power == .moving) && !f.joined

/-- TIMEBASE_JOIN: the node reaches step 5 of R66: LOCKED, or FREE in independent mode; its links train, its tellers start
with the images of R450, and a field bound for FULL goes on. -/
def execTimebaseJoin (fn : Nat) (st : State) : Out1 :=
  let f := st.field fn
  if !st.joining fn || !st.hasParent fn || f.baseAt + 1000000 < st.now then .next st
  else
    let st := st.setField fn { f with joined := true, hkUp := true, hkBeatAt := st.now, scrubAt := st.now, patrolAt := st.now }
    let st := (st.nodeEnter fn (if st.mesh.rebuildAt.isSome then 4 else st.nodeMode)).wf (Reg.FLD_TELLER_STATUS fn 3) 34 32 2
    let st := st.tbsUpdate
    .next (if f.power == .moving then st.computeOn fn else st)

/-- TIMEBASE_JOIN_FAILURE: a node that has not reached step 5 within 1 ms is reported, and its field retired (R67, R102). -/
def execTimebaseJoinFailure (fn : Nat) (st : State) : Out1 :=
  if !st.joining fn then .next st
  else .next ((st.until ((st.field fn).baseAt + 1000000)).upFailure fn 1)

/-! ## Switch-offs (R98, R484) -/

/-- One switch-off. -/
def State.switchOff (st : State) (s : Switch) : State :=
  let p := (st.field s.fn).power
  match s.target with
  | .base => if p == .base || p == .off then st else (st.toBase s.fn).tbsUpdate
  | _ => if p == .off then st else st.toOff s.fn

/-- The end of an emergency power-down: the anchor is off and the carrier removes its rails (R86, R98). The module stays dark
until the entry rises again or a module reset, which may already be waiting, boots it. -/
def State.darken (st : State) : State :=
  let st := st.waferLost
  { st with car := { st.car with railsOn := false } }.finishReset

/-- SWITCH_OFF_STEP: at most six fields switch off, 1 ms apart, or 100 µs in an emergency (R484, R86). -/
def execSwitchOffStep (st : State) : Out1 :=
  let go := st.brs.offs.take Config.stepFields
  let go := if go.any (fun s => s.who = 0xFD) then (match go with
    | [] => []
    | h :: _ => if h.who = 0xFD then [h] else go.takeWhile (fun s => s.who ≠ 0xFD)) else go
  if go.isEmpty then .next st
  else
    let st := st.until st.brs.offAt
    let rest := st.brs.offs.drop go.length
    let gap := if st.car.emergency then 100000 else 1000000
    let st := { st with brs := { st.brs with offs := rest, offAt := st.now + gap } }
    let last := go.any (fun s => s.who = 0xFD && s.fn = st.anchor)
    let st := go.foldl (fun st s => st.switchOff s) st
    if last then .next st.darken
    else .next ((List.range 16).foldl (fun st p => st.fallOn p) st)

/-! ## The 48 V entry (R85-R88) -/

/-- Mean of the entry power samples in mW. -/
def Carrier.meanPower (c : Carrier) : Nat := c.powers.foldl (· + ·) 0 / max 1 c.powers.length

/-- The start of an excursion: kept while it lasts. -/
def keepSince (on : Bool) (since : Option Nat) (t : Nat) : Option Nat := if on then some (since.getD t) else none

/-- Whether an excursion that began at `since` first reaches its persistence between two samples. -/
def firstPast (since : Option Nat) (before t ns : Nat) : Bool :=
  match since with
  | some s => decide (s + ns ≤ t) && !decide (s + ns ≤ before)
  | none => false

/-- ENTRY_SAMPLE: the carrier's 10 µs measurement, `vin` in 10 mV and `iin` in 0.1 A (R85): PWR_ENTRY_SENSE, the excursions
with their starts, the warnings after 100 µs (R86), the onset of the module cap (R88, R622); a module
reset that waits for the entry goes on when it is back in range (R601). Until 1 ms of samples exist, the 13.5 kW fault is judged
on the mean of the samples so far (R88, log 26). -/
def execEntrySample (vin iin : Nat) (st : State) : Out1 :=
  let before := st.car.tick
  let t := if st.clock then max (before + 10000) st.now else before + 10000
  let st := if st.clock then st.until t else st
  let c := st.car
  let powers := (vin * iin :: c.powers).take 100
  let mean := Carrier.meanPower { c with powers := powers }
  let low := keepSince (vin < 4100) c.lowSince t
  let high := keepSince (5900 < vin) c.highSince t
  let cap := if powers.length < 100 then c.capActive else if 12500000 < mean then true
    else if mean ≤ 12000000 then false else c.capActive
  let st := { st with car := { c with
    tick := t, powers := powers, lowSince := low, highSince := high,
    outSince := keepSince (vin < 4000 || 6000 < vin) c.outSince t,
    tripSince := keepSince (vin < 3600 || 6300 < vin) c.tripSince t,
    overSince := keepSince (13500000 < mean) c.overSince t,
    inSince := if c.trip then keepSince (4000 ≤ vin && vin ≤ 6000) c.inSince t else none,
    capActive := cap } }
  let e := Reg.PWR_ENTRY_SENSE
  let st := ((st.wf e 15 0 vin).wf e 31 16 iin).wf e 47 32 (mean / 1000)
  let warn (st : State) (b : Nat) : State :=
    (st.setb Reg.PWR_ENTRY_STATUS b).notice 0x22 0xFF 0xFF 0xFF 0xFF (st.rn e) 0
  let st := if firstPast low before t 100000 then warn st 0 else st
  let st := if firstPast high before t 100000 then warn st 1 else st
  .next st.finishReset

/-- EMERGENCY_POWER_DOWN: after 1 ms outside 40-60 V, or 100 µs above 13.5 kW, every partition falls and every field goes
off in reverse table order, then F55 and the anchor (R86-R88, R98). Partitions fall with no cause of R482 and status 2. -/
def execEmergencyPowerDown (st : State) : Out1 :=
  let past (s : Option Nat) (ns : Nat) : Bool := match s with
    | some x => decide (x + ns ≤ st.car.tick)
    | none => false
  if !st.brs.running || st.car.emergency || !(past st.car.outSince 1000000 || past st.car.overSince 100000) then .next st
  else
    let st := (st.setb Reg.PWR_ENTRY_STATUS 2).latchFault
    let st := st.notice 0x23 0xFF 0xFF 0xFF 0xFF (st.rn Reg.PWR_ENTRY_SENSE) 0
    let st := { st with car := { st.car with emergency := true }, brs := { st.brs with ons := [] } }
    let st := (List.range 16).foldl (fun st p => st.takeDown p 0 2) st
    let up := Config.sites.filter (fun fn => (st.field fn).power != .off)
    let body := (st.reverseOrder (up.filter (fun fn => !((fn = 44 || fn = 55) && (st.field fn).power == .base)))).map
      (fun fn => ({ fn := fn, target := if fn = 44 || fn = 55 then .base else .off, entry := 0, who := 0xFE } : Switch))
    let other := (up.filter (fun fn => (fn = 44 || fn = 55) && fn ≠ st.anchor)).map
      (fun fn => ({ fn := fn, target := .off, entry := 0, who := 0xFD } : Switch))
    let tail : List Switch := other ++ [{ fn := st.anchor, target := .off, entry := 0, who := 0xFD }]
    .next ({ st with brs := { st.brs with offs := body ++ tail, offAt := st.now } }.wf Reg.PWR_SEQ_STATUS 11 8 4)

/-- CARRIER_TRIP: after 20 µs outside 36-63 V the carrier removes every rail at once (R86). -/
def execCarrierTrip (st : State) : Out1 :=
  match st.car.tripSince with
  | none => .next st
  | some s =>
    if st.car.tick < s + 20000 || st.car.trip then .next st
    else
      let st := st.waferLost
      .next { st with car := { st.car with trip := true, railsOn := false, inSince := none } }

/-- TRIP_RECOVERY: after 100 ms back within 40-60 V, the module powers up as after a module reset, with CAUSE 5 and TRIPPED
(R86, R601). -/
def execTripRecovery (st : State) : Out1 :=
  match st.car.inSince with
  | none => .next st
  | some s =>
    if !st.car.trip || st.car.tick < s + 100000000 then .next st
    else
      let st := { st with car := { st.car with trip := false, railsOn := true, entryUp := true, tick := 0, inSince := none } }
      .next (st.moduleReset 5)

end Sys2Proof.Machine
end

