-- ==== Sys2Proof/Machine/Parts.lean ====
section
/-! DEFINITION. The partition power commands (R99-R101, R459, R482, R485, R499): START, STOP, RETAIN, WAKE and RESET, as
management items and as control items of a partition's own queue, and the drain timeout of a RETAIN (R100). -/

namespace Sys2Proof.Machine

/-- A partition command, by its opcode in a control queue or in a management queue. -/
def State.onPart (st : State) (it : Item) (cop mop : Nat) (f : Started → Nat → State → State) : Out1 :=
  st.onItem it (if it.managed then mop else cop) (fun x st =>
    let p := targetPart it
    if 15 < p then st.endItem x.num 3 0 0
    else if !(st.part p).defined then st.endCmd x.num 2 0xE 0
    else f x p st)

/-- Refuse a command because its partition is RISING, FALLING or draining (R101, R485). -/
def State.partBusy (st : State) (num p : Nat) : State := (st.wf (Reg.PWR_PART_STATE p) 31 24 1).endCmd num 1 0xD 0

/-- Refuse a command that the partition's state does not admit (R99). -/
def State.partWrong (st : State) (num p : Nat) : State := st.endCmd num 2 0xE (st.partState p)

/-- Whether START, WAKE or RETAIN meets a busy partition (R101). -/
def State.partMoving (st : State) (p : Nat) : Bool :=
  st.partState p = 1 || st.partState p = 4 || (st.part p).drainAt.isSome

/-- PART_START: an OFF partition rises: its fields go to FULL in table order and load their sections (R99). It is refused in
test mode (R606), after a thermal trip that has not cooled (R300), and where the source cannot be read (R147). -/
def execPartStart (it : Item) (st : State) : Out1 :=
  st.onPart it 0x100 0x42 (fun x p st =>
    if st.brs.testMode then st.endItem x.num 2 0 0
    else if st.partMoving p then st.partBusy x.num p
    else if st.partState p ≠ 0 then st.partWrong x.num p
    else if st.hotFields p then (st.wf (Reg.PWR_PART_STATE p) 31 24 6).endItem x.num 2 0 0
    else if !st.rb Reg.AXB_CFG_STATUS 8 then
      let st := (st.wf (Reg.PWR_PART_STATE p) 31 24 4).recordErr { code := 0x1A }
      st.endItem x.num 7 0 (st.rn Reg.AXB_CFG_ERR)
    else
      let st := (st.beginRise p true).queueOns p
      st.setPart p { st.part p with cmd := some x.num })

/-- The take-down that STOP and RESET command (R99, R482, R485). -/
def State.stopPart (st : State) (x : Started) (p cause : Nat) : State :=
  if st.partState p = 4 then st.endCmd x.num 0 0 0
  else if st.partState p = 0 then st.partWrong x.num p
  else st.takeDown p cause 0 (some x.num)

/-- PART_STOP: the partition is taken down to OFF with cause 1 (R99, R482). -/
def execPartStop (it : Item) (st : State) : Out1 := st.onPart it 0x20 0x43 (fun x p st => st.stopPart x p 1)

/-- PART_RESET: as a stop, with cause 2 (R99, R482). -/
def execPartReset (it : Item) (st : State) : Out1 := st.onPart it 0x23 0x46 (fun x p st => st.stopPart x p 2)

/-- PART_RETAIN: queues stop starting items, and the fields go to RETAIN once every core is idle or the drain timeout expires
(R99, R100). -/
def execPartRetain (it : Item) (st : State) : Out1 :=
  st.onPart it 0x21 0x44 (fun x p st =>
    if st.partMoving p then st.partBusy x.num p
    else if st.partState p ≠ 2 then st.partWrong x.num p
    else
      let st := st.wf (Reg.PWR_PART_STATE p) 31 24 0
      (st.setPart p { st.part p with cmd := some x.num, drainAt := some (st.now + st.drainNs) }).retainOn p)

/-- RETAIN_DRAIN_TIMEOUT: the drain timeout of a RETAIN has expired; work in flight is abandoned, its items end with
"abandoned by power change", and the fields go to RETAIN (R100). -/
def execRetainDrainTimeout (p : Nat) (st : State) : Out1 :=
  match (st.part p).drainAt with
  | none => .next st
  | some due =>
    let st := st.until due
    if (st.part p).drainAt.isNone then .next st
    else
      let st := (st.partFields p).foldl (fun st fn => (List.range 4).foldl (fun st s =>
        if st.isFull fn && st.present fn s then (st.flushCore fn s).abandonSlot fn s 3 else st) st) st
      .next ((st.wf (Reg.PWR_PART_STATE p) 31 24 2).retainDone p)

/-- PART_WAKE: a RETAINED partition's fields go back to FULL through the shared schedule (R99, R100). -/
def execPartWake (it : Item) (st : State) : Out1 :=
  st.onPart it 0x22 0x45 (fun x p st =>
    if st.partMoving p then st.partBusy x.num p
    else if st.partState p ≠ 3 then st.partWrong x.num p
    else
      let st := (st.beginRise p false).queueOns p
      st.setPart p { st.part p with cmd := some x.num })

end Sys2Proof.Machine
end

