-- ==== Sys2Proof/Machine/Timebase.lean ====
section
/-! DEFINITION. The timebase in service (chapter 03) and the beat monitor (R52-R54): the reference clock (R61), the link
synchronisation protocol (R63, R65), lock loss and recoupling (R68, R70), the capture unit (R79-R81). -/

namespace Sys2Proof.Machine

/-! ## Reference clock (R61) -/

/-- REF_CLOCK_LOST: the reference node enters HOLDOVER and TIMEBASE_REF_LOST is raised (R61). -/
def execRefClockLost (st : State) : Out1 :=
  let a := st.anchor
  let st := { st with car := { st.car with refClock := false } }
  .next (st.when (st.clock && st.powered a && st.tbsState a ≠ 4) (fun st =>
    let st := ((st.nodeEnter a 4).setb (Reg.TBS_EVENT a) 5).setb (Reg.TBS_EVENT a) 2
    st.tbsUpdate.notice 0x20 0xFF a 0xFF 0xFF 0 0))

/-- REF_CLOCK_RESTORED: TB_REFCLK has been within its limits for 1 ms again: the reference node leaves HOLDOVER (R61), for
LOCKED in coupled mode whatever it was before (log 39). -/
def execRefClockRestored (st : State) : Out1 :=
  let a := st.anchor
  let st := { st with car := { st.car with refClock := true } }
  .next (st.when (st.clock && st.powered a && st.tbsState a = 4) (fun st =>
    if st.mesh.rebuildAt.isSome then st else (st.nodeEnter a st.nodeMode).tbsUpdate))

/-! ## Link synchronisation, lock loss, recoupling (R63-R70) -/

/-- LINK_SYNC_EXCHANGE: a FREE node exchanges timestamps with its parent every 1 µs; `offset` is its estimate in 1/16 ns.
An offset beyond 10 ns, half the bound of R64, for 10 µs sets SKEW_BOUND; one that 200 ppm cannot remove between two
exchanges (3 units) for more than 1 ms sets SLEW_LIMIT (R58, R84). -/
def execLinkSyncExchange (fn : Nat) (offset : Int) (st : State) : Out1 :=
  .next (st.when (st.powered fn && (st.field fn).joined && st.tbsState fn = 3 && fn ≠ st.anchor) (fun st =>
    let st := st.until ((st.field fn).syncAt + 1000)
    let f := st.field fn
    let skew := keepSince (decide (160 < offset.natAbs)) f.skewSince st.now
    let slew := keepSince (decide (3 < offset.natAbs)) f.slewSince st.now
    let st := st.setField fn { f with syncAt := st.now, skewSince := skew, slewSince := slew }
    let st := st.wf (Reg.TBS_OFFSET fn) 31 0 (twos 32 offset)
    let st := if skew.any (· + 10000 ≤ st.now) then st.setb (Reg.TBS_EVENT fn) 6 else st
    let st := if slew.any (· + 1000000 < st.now) then st.setb (Reg.TBS_EVENT fn) 3 else st
    st.tbsUpdate))

/-- The partitions that own a field or route transit through it (R68 step 6). -/
def State.partsAt (st : State) (fn : Nat) : List Nat :=
  (List.range 16).filter (fun p => (st.part p).defined && (st.owner fn = p ||
    (List.range 24).any (fun i =>
      let e := tget 0 st.mesh.transit ((fn * 2 + st.mesh.gen % 2) * 24 + i)
      e ≠ 0 && bitsOf e 7 0 = p)))

/-- LOCK_LOSS: a LOCKED node of coupled mode stops its links between flits, runs in HOLDOVER, retrains its links
source-synchronous within 4 µs and becomes FREE; TIMEBASE_DEGRADED goes to the module and to every partition concerned
(R68). -/
def execLockLoss (fn : Nat) (st : State) : Out1 :=
  .next (st.when (st.powered fn && (st.field fn).joined && st.tbsState fn = 2 && !st.brs.indep) (fun st =>
    let e := Reg.TBS_EVENT fn
    let st := ((st.wn (Reg.TBS_LOSS_TIME fn) st.now).setb e 2).setb e 0
    let st := st.setField fn { st.field fn with retrainUntil := st.now + 4000, syncAt := st.now }
    let st := (st.nodeEnter fn 3).tbsUpdate
    let rec_ (p : Nat) : List Byte := recordBytes 0x21 5 p fn 0xFF 0xFF 0 st.now (st.rn (Reg.TBS_LOSS_TIME fn)) 0
    let st := st.offer 0 0x21 fn (rec_ (st.owner fn))
    (st.partsAt fn).foldl (fun st p => st.offer (p + 1) 0x21 fn (rec_ p)) st))

/-- RECOUPLE: the management command "recouple field" (R70). `locked` says whether the node's phase lock has held for 50 µs
within 1 ms (log 2); without it, or without a LOCKED neighbour to follow, the field stays FREE. -/
def execRecouple (it : Item) (locked : Bool) (st : State) : Out1 :=
  st.onItem it 0x47 (fun x st =>
    let fn := x.item.u 0x20 1
    if !Config.sitePresent fn then st.endItem x.num 3 0 0
    else if st.brs.indep || !st.powered fn || st.tbsState fn = 1 || st.tbsState fn = 4 then st.endItem x.num 2 0 0
    else if st.tbsState fn = 2 then st.endItem x.num 0 0 0
    else if locked && (List.range 4).any (fun p => st.portUp fn p &&
        (Config.neighbour fn p).any (fun n => st.tbsState n = 2 || n = st.anchor)) then
      let st := st.setField fn { st.field fn with retrainUntil := st.now + 4000 }
      let st := (st.nodeEnter fn 2).setb (Reg.TBS_EVENT fn) 1
      st.tbsUpdate.endItem x.num 0 0 0
    else st.endItem x.num 8 0 0)

/-! ## Capture unit (R79-R83) -/

/-- Whether a capture input has a source in a field (R79). The strobe of an island in reset, or within 4 cycles of the
timebase after its release, does not cross (R78). -/
def State.captSource (st : State) (fn i : Nat) : Bool :=
  if i < 2 then Config.hasSnp fn
  else if i < 6 then
    let x := tget {} st.isl (fn * 4 + (i - 2))
    (tget {} st.brs.islCfg (fn * 4 + (i - 2))).present && st.isFull fn && !x.rstLow && decide (x.upAt + 4 ≤ st.now)
  else i = 6 && (fn = 44 || fn = 55)

/-- ENABLE and EDGE as they count for an edge that arrives now: a write counts from 3 teller cycles, 2.5 ns, on (R83). -/
def State.captSetting (st : State) (fn : Nat) : Nat :=
  match (st.field fn).captSets.find? (fun e => decide (e.1 ≤ st.now)) with
  | some e => e.2
  | none => 0

/-- A write of TBS_CAPT_CTL: its settings count from 3 ns on; the ones that count until then are kept (R83). -/
def State.captCtlWrite (st : State) (fn : Nat) (v : Word) : State :=
  let c := Reg.TBS_CAPT_CTL fn
  let f := st.field fn
  let now := st.captSetting fn
  let coming := f.captSets.filter (fun e => decide (st.now < e.1))
  let st := st.setField fn { f with captSets := (st.now + 3, bitsOf v 15 0) :: coming ++ [(0, now)] }
  let old := st.rn c
  st.wn c (bitsOf v 15 0 + (nbits old 31 24 &&& (255 - bitsOf v 31 24)) * 2 ^ 24)

/-- CAPTURE_EDGE: an edge of the enabled direction records wafer time; a value not yet read is overwritten and sets OVERRUN
(R79, R81, R83). -/
def execCaptureEdge (fn input : Nat) (falling : Bool) (st : State) : Out1 :=
  let c := Reg.TBS_CAPT_CTL fn
  let set := st.captSetting fn
  .next (st.when (decide (input < 8) && st.powered fn && (st.field fn).joined && st.captSource fn input &&
      nbit set input && nbit set (8 + input) == falling) (fun st =>
    let f := st.field fn
    let st := if f.captEdge.testBit input then st.setb c (24 + input) else st
    let st := st.setField fn { f with captEdge := f.captEdge ||| 2 ^ input }
    st.wn (Reg.TBS_CAPT fn input) st.now))

/-- A read of TBS_CAPTn marks its value as read (R81). -/
def State.captRead (st : State) (who : Who) (fn input : Nat) : State :=
  let r := Reg.TBS_CAPT fn input
  match st.fieldReason who fn with
  | some e => st.accErr who e false r
  | none =>
    let f := st.field fn
    (st.setField fn { f with captEdge := if f.captEdge.testBit input then f.captEdge - 2 ^ input else f.captEdge }).answer
      (st.rn r)

/-- CAPTURE_READ: a 64-bit read of TBS_CAPTn (R81). -/
def execCaptureRead (who : Who) (fn input : Nat) (st : State) : Out1 :=
  .next (if input < 8 then st.captRead who fn input else st)

/-! ## Beat monitor (R52-R54) -/

/-- Length of a measurement window in ns. -/
def bmLen (w : Nat) : Nat := [5000, 20000, 80000, 320000].getD w 0

/-- BEATMON_WINDOW_END: at the end of its window the monitor, which has counted `beats`, writes RATE, RAIL_CHANGED, SEQ and
END together, and the next window starts with the WINDOW then set (R53-R55). -/
def execBeatmonWindowEnd (fn beats : Nat) (st : State) : Out1 :=
  .next (st.when (st.powered fn && (st.field fn).joined && st.rb (Reg.FLD_BEATMON_CTL fn) 0) (fun st =>
    let f := st.field fn
    let due := f.bmStart + bmLen f.bmWindow
    let st := st.until due
    let r := Reg.FLD_BEATMON_RATE fn
    let rate := beats * 1000 / bmLen f.bmWindow
    let v := min 65535 rate + (st.rf r 23 16 + 1) % 256 * 65536 + (if f.bmRail then 2 ^ 30 else 0) + 2 ^ 31
    let st := ((st.wn r v).wn (Reg.FLD_BEATMON_STAMP fn) due).add (Reg.FLD_BEATMON_COUNT fn) 63 0 beats
    st.setField fn { st.field fn with bmStart := due, bmWindow := st.rf (Reg.FLD_BEATMON_CTL fn) 2 1, bmRail := false }))

/-- FLD_BEATMON_COUNT takes the beats of a window that is abandoned (R52, R54): how many there were no command says, and they
are a free value (log 1). -/
def State.countBeats (st : State) (fn : Nat) : State :=
  let d := st.draw
  d.2.add (Reg.FLD_BEATMON_COUNT fn) 63 0 d.1.toNat

/-- A write of FLD_BEATMON_CTL (R54). -/
def State.beatmonWrite (st : State) (who : Who) (fn value : Nat) : State :=
  let c := Reg.FLD_BEATMON_CTL fn
  st.fieldWrite who fn c true (fun st =>
    let was := st.rb c 0
    let on := nbit value 0
    let st := st.wf c 2 0 value
    if was && !on then
      (st.countBeats fn).clrb (Reg.FLD_BEATMON_RATE fn) 31
    else if !was && on then
      st.setField fn { st.field fn with bmStart := st.now, bmWindow := nbits value 2 1, bmRail := false }
    else st)

/-- BEATMON_CTL_WRITE: WINDOW takes effect at the end of the window in progress; ENABLE stops or starts the ring (R54). -/
def execBeatmonCtlWrite (who : Who) (fn value : Nat) (st : State) : Out1 := .next (st.beatmonWrite who fn value)

end Sys2Proof.Machine
end

