-- ==== Sys2Proof/Machine/Pace.lean ====
section
/-! DEFINITION. The pace unit of a field (chapter 04): pace marks and slack (R105, R106), the step with its window, caps and
notices (R104-R117), policy writes (R108-R110), the power limit and chaff settings (R126), thermal trips (R116, R300) and
the pace fault (R118). -/

namespace Sys2Proof.Machine

/-! ## Marks (R105, R106) -/

/-- PACE_MARK_ARRIVAL: a mark reaches the pace unit of a FULL field of its group. Mark 0 sets the frame reference, of which
the two most recent frames' are kept; a later mark counts with its slack, or as an orphan when its frame's mark 0 has not
arrived. -/
def execPaceMarkArrival (fn : Nat) (m : Msg) (st : State) : Out1 :=
  if m.kind ≠ 8 || m.dstUnit ≠ 9 || m.dstFn ≠ fn then .next st
  else st.onArrived m (fun st =>
    let f := st.field fn
    if !st.isFull fn || st.rf (Reg.FLD_PWR_STATE fn) 31 24 ≠ m.a then st
    else if m.c = 0 then
      st.setField fn { f with markCount := f.markCount + 1, mark0 := ((m.b, m.d) :: f.mark0.filter (fun e => e.1 ≠ m.b)).take 2 }
    else
      match f.mark0.find? (fun e => e.1 = m.b), (tget [] st.brs.marks m.a)[m.c]? with
      | some t, some p =>
        let s : Int := (t.2 : Int) + p - m.d
        let least : Int := match f.markMin with
          | some z => if z < s then z else s
          | none => s
        st.setField fn { f with markCount := f.markCount + 1, markMin := some least }
      | _, _ => st.addSat (Reg.FLD_PACE_LAST fn) 47 40 1)

/-! ## The step (R104, R111-R117) -/

/-- The thermal cap after a sample (R114), in 1/16 degree. -/
def thermalCap (cap rail : Nat) (tj : Int) : Nat :=
  if 95 * 16 ≤ tj then rail - 2 else if tj ≤ 92 * 16 then min 50 (cap + 1) else cap

/-- The power cap after a step's mean power, in 1/16 W (R115). -/
def powerCap (cap rail limit power : Nat) : Nat :=
  if 16 * limit < power then rail - 2 else if 10 * power ≤ 9 * 16 * limit then min 50 (cap + 1) else cap

/-- The module cap at a step (R88): it acts once 1 ms of entry samples exist. -/
def State.moduleCap (st : State) (cap rail : Nat) : Nat :=
  if st.car.powers.length < 100 then cap
  else if Carrier.meanPower st.car ≤ 12000000 then min 50 (cap + 1)
  else if st.car.capActive then rail - 1 else cap

/-- The want of a step (R111), `s` the minimum slack of the marks counted. -/
def paceWant (pol slack : Word) (rail : Nat) (s : Option Int) : Int :=
  let lo := bitsOf slack 31 0
  let hi := bitsOf slack 63 32
  match bitsOf pol 25 24 with
  | 1 => bitsOf pol 23 16
  | 2 => bitsOf pol 7 0
  | _ =>
    match s with
    | none => rail
    | some z =>
      if z < 0 then (rail : Int) + bitsOf pol 31 28
      else if z < lo then (rail : Int) + 1
      else if (hi : Int) < z then (rail : Int) - 1
      else rail


/-- The step that ends at wafer time `t` with reading `r` (R111-R117, R622). Where only mark 0 was counted in it, NONE reads 1
and SLACK 0, since mark 0 gives no slack (log 38). -/
def State.paceStep (st : State) (fn t : Nat) (r : RailReading) : State :=
  let f := st.field fn
  let pol := st.rd (Reg.FLD_PACE_POLICY fn)
  let rail := st.rf (Reg.FLD_PWR_STATE fn) 23 16
  let floor_ := bitsOf pol 7 0
  let ceil := bitsOf pol 15 8
  let pl := Reg.FLD_PLIMIT fn
  /- sensors and caps at the step's end -/
  let sense := r.volt % 65536 + r.curr % 65536 * 2 ^ 16 + twos 16 r.tj * 2 ^ 32 + r.power % 65536 * 2 ^ 48
  let th := thermalCap (st.rf pl 23 16) rail r.tj
  let pw := powerCap (st.rf pl 31 24) rail (st.rf pl 7 0) (r.power % 65536)
  let mo := st.moduleCap (st.rf pl 15 8) rail
  let st := (st.wn (Reg.FLD_RAIL_SENSE fn) sense).wf pl 31 8 (mo + th * 2 ^ 8 + pw * 2 ^ 16)
  /- the new rail code -/
  let want := paceWant pol (st.rd (Reg.FLD_PACE_SLACK fn)) rail f.markMin
  let win : Nat := (if want < floor_ then (floor_ : Int) else want).toNat
  let win := min win ceil
  let cap := min th (min pw mo)
  let next := min win cap
  let st := st.setRail fn next
  /- status, counters and events -/
  let up := decide ((ceil : Int) < want)
  let down := decide (want < floor_)
  let low := decide (next < floor_)
  let cause := (if th < win then 1 else 0) + (if pw < win then 2 else 0) + (if mo < win then 4 else 0)
  let s := Reg.FLD_PACE_STATUS fn
  let seq := st.rf s 7 0 + 1
  let st := st.wn s (seq % 256 + cause * 2 ^ 10 + (if low then 2 ^ 13 else 0) + (if down then 2 ^ 14 else 0) +
    (if up then 2 ^ 15 else 0) + cap * 2 ^ 16 + min 255 want.toNat * 2 ^ 24)
  let slackField : Nat := match f.markMin with
    | some z => twos 32 (if z < -(2 ^ 31) then -(2 ^ 31) else if 2 ^ 31 - 1 < z then 2 ^ 31 - 1 else z)
    | none => 0
  let l := Reg.FLD_PACE_LAST fn
  let st := ((st.wf l 63 48 (satN 16 f.markCount)).wf l 32 32 (if f.markMin.isNone then 1 else 0)).wf l 31 0 slackField
  let k := Reg.FLD_PACE_COUNTS fn
  let st := if up then st.addSat k 15 0 1 else st
  let st := if down then st.addSat k 31 16 1 else st
  let st := if low then st.addSat k 47 32 1 else st
  let st := if cause ≠ 0 then (st.addSat k 63 48 1).setb (Reg.FLD_PACE_EVENT fn) 4 else st
  let beyond := if up then 1 else if down then 2 else 0
  let was := if f.firstStep then 0 else f.beyond
  let st := if beyond ≠ 0 && beyond ≠ was then
      ((st.setb (Reg.FLD_PACE_EVENT fn) (if up then 0 else 1)).wn (Reg.FLD_PACE_LIMIT_TIME fn) t).notice 0x24 (st.owner fn) fn
        0xFF 0xFF (if up then 1 else 0) (twos 64 want)
    else st
  let st := if low && (f.firstStep || !f.wasLow) then
      ((st.setb (Reg.FLD_PACE_EVENT fn) 3).wn (Reg.FLD_PACE_OVR_TIME fn) t).notice 0x25 (st.owner fn) fn 0xFF 0xFF cause next
    else st
  let st := st.setField fn { st.field fn with
    markMin := none, markCount := 0, firstStep := false, beyond := beyond, wasLow := low, lastStep := t,
    hotSince := keepSince (th = 0 && decide (95 * 16 ≤ r.tj)) f.hotSince t }
  (st.latchPolicy fn t).moduleCapBit.pins

/-- Whether the loop of a field steps: it is FULL, its partition has gone ON (R99) and PACE_FAULT does not hold the loop
(R104, R118). -/
def State.paceRuns (st : State) (fn : Nat) : Bool := st.isFull fn && (st.field fn).paceOn && !(st.field fn).loopHeld

/-- PACE_STEP: at the next multiple of 20 µs the loop of a field steps, where it runs (R99, R104, R118). -/
def execPaceStep (fn : Nat) (r : RailReading) (st : State) : Out1 :=
  .next (st.when (st.paceRuns fn) (fun st =>
    let n := Config.paceStepNs
    let st := st.until (((st.field fn).lastStep / n + 1) * n)
    st.paceStep fn (st.now / n * n) r))

/-- PACE_FAULT: the housekeeper has seen no step for 3 steps: it sets the rail to CEILING, capped by the thermal cap, and
raises PACE_FAULT; the loop is held until a partial reload of the field (R118). A RETAIN and a WAKE do not end the hold:
R118 names the reload alone (log 38). -/
def execPaceFault (fn : Nat) (st : State) : Out1 :=
  .next (st.when (st.paceRuns fn && (st.field fn).hkUp) (fun st =>
    let n := Config.paceStepNs
    let st := st.until (((st.field fn).lastStep / n + 3) * n)
    let st := st.setRail fn (min (st.rf (Reg.FLD_PACE_POLICY fn) 15 8) (st.rf (Reg.FLD_PLIMIT fn) 23 16))
    let st := (st.setField fn { st.field fn with loopHeld := true }).setb (Reg.FLD_PACE_EVENT fn) 6
    st.fault 0x15 2 (st.owner fn) fn 0xFF 0xFF 0 0))

/-! ## Policy, limit and chaff writes (R107-R110, R126) -/

def State.policyErr (st : State) (fn : Nat) : State := st.setb (Reg.FLD_PACE_EVENT fn) 5

/-- A write of FLD_PACE_POLICY or FLD_PACE_SLACK that has reached the block (R108, R109); it replaces its half of the
policies that the bursar has staged for common boundaries still to come (R110). -/
def State.stagePolicy (st : State) (fn : Nat) (slack : Bool) (value : Nat) : State :=
  let f := st.field fn
  if slack then
    if slackOk value then
      st.setField fn { f with slackSets := (st.now, BitVec.ofNat 64 value) :: f.slackSets,
                              common := f.common.map (fun c => if st.now < c.1 then (c.1, c.2.1, none) else c) }
    else st.policyErr fn
  else if policyOk value then
    st.setField fn { f with polSets := (st.now, BitVec.ofNat 64 value &&& 0xF3FFFFFF) :: f.polSets,
                            common := f.common.map (fun c => if st.now < c.1 then (c.1, none, c.2.2) else c) }
  else st.policyErr fn

def State.policyWrite (st : State) (who : Who) (fn : Nat) (slack : Bool) (value : Nat) : State :=
  st.fieldWrite who fn (if slack then Reg.FLD_PACE_SLACK fn else Reg.FLD_PACE_POLICY fn) true
    (fun st => st.stagePolicy fn slack value)

/-- PACE_POLICY_WRITE: a write of FLD_PACE_POLICY or FLD_PACE_SLACK is checked and staged (R108, R109). -/
def execPacePolicyWrite (who : Who) (fn : Nat) (slack : Bool) (value : Nat) (st : State) : Out1 :=
  .next (st.policyWrite who fn slack value)

/-- The bursar's copy of a partition's policy and slack to a field, for a common boundary; it leaves earlier ones to their
own boundaries (R110). -/
def State.commonPolicy (st : State) (fn due : Nat) (pol slack : Word) : State :=
  let f := st.field fn
  let ok := slackOk slack.toNat
  let st := st.setField fn { f with common := f.common ++ [(due, some pol, if ok then some slack else none)] }
  if ok then st else st.policyErr fn

/-- A write of PWR_PART_POLICY (R108, R110), by PF0 or by the partition's VF. -/
def State.partPolicyWrite (st : State) (who : Who) (p value : Nat) : State :=
  let r := Reg.PWR_PART_POLICY p
  let mine := match who with
    | .pf0 => true
    | .bursar => true
    | .vf n => n = p + 1 && (st.part p).defined
    | _ => false
  if st.brs.recovery then st.accErr who 9 true r
  else if !mine then st.accErr who 5 true r
  else
    let fs := (st.partFields p).filter (fun fn => (st.field fn).power == .full || (st.field fn).power == .retain)
    if policyOk value then
      let st := st.wr r (BitVec.ofNat 64 value &&& 0xF3FFFFFF)
      let due := (st.now + 60000 + Config.paceStepNs - 1) / Config.paceStepNs * Config.paceStepNs
      fs.foldl (fun st fn => st.commonPolicy fn due (st.rd r) (st.rd (Reg.PWR_PART_SLACK p))) st
    else fs.foldl (fun st fn => st.policyErr fn) st

/-- PART_POLICY_WRITE: the bursar copies the policy with the partition's slack into every FULL or RETAIN field of the
partition, for the first boundary at least 60 µs later (R110). -/
def execPartPolicyWrite (who : Who) (p value : Nat) (st : State) : Out1 :=
  .next (if p < 16 then st.partPolicyWrite who p value else st)

def State.plimitWrite (st : State) (who : Who) (fn value : Nat) : State :=
  st.fieldWrite who fn (Reg.FLD_PLIMIT fn) true (fun st =>
    let l := nbits value 7 0
    if l = 0 || 140 < l then st.policyErr fn else st.wf (Reg.FLD_PLIMIT fn) 7 0 l)

/-- PLIMIT_WRITE: a limit of 1 to 140 W takes effect at the next step; another is refused (R126). -/
def execPlimitWrite (who : Who) (fn value : Nat) (st : State) : Out1 := .next (st.plimitWrite who fn value)

def State.chaffWrite (st : State) (who : Who) (fn n value : Nat) : State :=
  let r := Reg.FLD_CHAFF_CTL fn n
  st.fieldWrite who fn r true (fun st =>
    if 16 < nbits value 20 16 || 2000 < nbits value 15 0 then st.policyErr fn else st.wf r 20 0 value)

/-- CHAFF_CTL_WRITE: the settings take effect at the next gap; values beyond their range are refused (R126). -/
def execChaffCtlWrite (who : Who) (fn n value : Nat) (st : State) : Out1 :=
  .next (if n < 4 then st.chaffWrite who fn n value else st)

/-! ## Thermal trip (R116, R300) -/

/-- A trip: the compute domain is gated, the leases of the field are quarantined, its partition falls with cause 6, and
THERMAL_TRIP is recorded; the third trip within 24 hours retires the field. -/
def State.trip (st : State) (fn : Nat) (tj : Int) : State :=
  let p := st.owner fn
  let st := (List.range 4).foldl (fun st s => st.abandonSlot fn s 3) st
  let st := (st.quarantineAll 2 (Lease.ofField fn)).setb (Reg.FLD_PACE_EVENT fn) 7
  let f := st.field fn
  let trips := st.now :: f.trips.filter (fun t => decide (st.now < t + 86400000000000))
  let st := st.setField fn { f with tripped := true, coolSince := none, trips := trips }
  let st := st.toBase fn
  let up := p < 16 && st.partState p ≠ 0 && st.partState p ≠ 4
  let st := if up then st.bursarDown p 6 6 0x14 fn (twos 64 tj) 0
    else st.fault 0x14 2 p fn 0xFF 0xFF (twos 64 tj) 0
  if 3 ≤ trips.length then st.retireField fn 5 3 0 else st.pins

/-- THERMAL_TRIP: junction temperature `tj`, in 1/16 degree, as the field's sensor reports it. A FULL field at 105 degrees, or
whose thermal cap has stood at code 0 with T_j at or above 95 degrees for 1 ms, trips (R116). A field that has tripped
reports its cooling: at or below 85 degrees for 100 ms frees its partition's START (R300). -/
def execThermalTrip (fn : Nat) (tj : Int) (st : State) : Out1 :=
  let f := st.field fn
  if st.isFull fn then
    let hot := f.hotSince.any (· + 1000000 ≤ st.now)
    .next (if 105 * 16 ≤ tj || (hot && 95 * 16 ≤ tj) then st.trip fn tj else st)
  else if f.tripped then .next (st.setField fn { f with coolSince := keepSince (decide (tj ≤ 85 * 16)) f.coolSince st.now })
  else .next st

end Sys2Proof.Machine
end

