-- ==== Sys2Proof/Machine/Recovery.lean ====
section
/-! DEFINITION. Recovery from faults of configuration and arithmetic (chapters 05, 12): scrubbing and frame repair
(R158-R160), spare patches (R157), column retirement (R291-R295, R326), the retirement of commands with its record (R182,
R187, R203), and the revocation of leases (R304, R305, R309). -/

namespace Sys2Proof.Machine

/-! ## Scrubbing (R158-R160) -/

/-- The frame address at a position of the scrub cycle over all 6,144 frames. -/
def scrubFrameAt (n : Nat) : Nat :=
  if n < 1536 then n else if n < 3584 then 0x2000 + (n - 1536) else if n < 4608 then 0x4000 + (n - 3584)
  else 0x6000 + (n - 4608)

/-- Who owns a frame: core slot `s`, the island of slot `s` (16 + s), or 0xFF where it stops the whole compute domain (R160). -/
def FieldSt.frameOwner (f : FieldSt) (a : Nat) : Nat :=
  match a / 2 ^ 13 with
  | 0 => match tget 0 f.blocks (a / 4) with
    | 0 => 0xFF
    | n => if 16 ≤ n then n else n - 1
  | 3 => 0xFF
  | _ => frameSlot a

/-- What stops with an owner: a slot, an island, or every slot and island of the compute domain. -/
def ownerUnits (o : Nat) : List Nat := if o = 0xFF then [0, 1, 2, 3, 16, 17, 18, 19] else [o]

/-- Whether slot `u`, or island `u - 16`, is stopped for the repair of a frame. -/
def FieldSt.stopped (f : FieldSt) (u : Nat) : Bool := f.repair.any (fun a => (ownerUnits (f.frameOwner a)).contains u)

/-- Stop a core slot as steps 1 and 2 of R157 do: what is in flight is discarded and the slot is held in reset. -/
def State.holdSlot (st : State) (fn s : Nat) : State :=
  if !st.present fn s then st
  else
    let st := (st.flushCore fn s).abandonSlot fn s 2
    st.setCore fn s { st.core fn s with held := true }

/-- Stop the owner of a frame (R160). -/
def State.stopOwner (st : State) (fn a : Nat) : State :=
  (ownerUnits ((st.field fn).frameOwner a)).foldl (fun st u =>
    if u < 4 then st.holdSlot fn u
    else if (tget {} st.brs.islCfg (fn * 4 + (u - 16))).present then st.islDown fn (u - 16) else st) st

/-- Release what the owner of a repaired frame had stopped, but for what a further frame under repair stops, and for a slot that
stays in reset as unrepairable (R295, R298). -/
def State.releaseOwner (st : State) (fn a : Nat) : State :=
  ((ownerUnits ((st.field fn).frameOwner a)).filter (fun u => !(st.field fn).stopped u)).foldl (fun st u =>
    if u < 4 then
      (st.setCore fn u { st.core fn u with held := (st.core fn u).held && (st.core fn u).unrepairable }).ssGoOn fn
    else if (tget {} st.brs.islCfg (fn * 4 + (u - 16))).present then st.islUp fn (u - 16) else st) st

/-- The scrub position moves on; a pass ends with the last frame. -/
def State.scrubNext (st : State) (fn : Nat) : State :=
  let f := st.field fn
  let n := f.scrubNext + 1
  let st := st.setField fn { f with scrubNext := n % 6144 }
  if n = 6144 then st.add (Reg.FLD_SCRUB_STATUS fn) 15 0 1 else st

/-- SCRUB_FRAME: at its interval the housekeeper reads back the next frame: `corrected` single-bit words are rewritten and
counted; `bad` stands for a double-bit error or a CRC mismatch, which stops the frame's owner until the frame is repaired.
Frames of a slot that is held are skipped (R158-R160). An interval taken late counts in DUTY_LATE (R457). -/
def execScrubFrame (fn corrected : Nat) (bad : Bool) (st : State) : Out1 :=
  let ctl := Reg.FLD_SCRUB_CTL fn
  .next (st.when (st.powered fn && (st.field fn).hkUp && st.rb (Reg.FLD_CFG_STATUS fn) 31 && st.rb ctl 31) (fun st =>
    let due := (st.field fn).scrubAt + 1000 * st.rf ctl 9 0
    let st := if due < st.now then st.addSat (Reg.FLD_HK_STATUS fn) 47 32 1 else st
    let st := st.until due
    let f := st.field fn
    let a := scrubFrameAt f.scrubNext
    let st := (st.setField fn { f with scrubAt := st.now }).scrubNext fn
    let slot := f.frameOwner a
    let skip := (if slot = 0xFF then f.repair.any (fun b => f.frameOwner b = 0xFF) else f.stopped slot) ||
      (slot < 4 && (st.core fn slot).held)
    if skip then st
    else
      let s := Reg.FLD_SCRUB_STATUS fn
      let st := st.addSat s 31 16 corrected
      let st := if bad || corrected ≠ 0 then (st.wf s 63 48 a).wn (Reg.FLD_SCRUB_TIME fn) st.now else st
      if bad then
        let st := (st.addSat s 47 32 1).stopOwner fn a
        st.setField fn { st.field fn with repair := (st.field fn).repair ++ [a] }
      else st))

/-- CFG_REPAIR_COMPLETE: the bursar has re-read the field's FRAMES section (`ok`: it could be read and verified): the frame, the
first of those that wait for it, is rewritten from it and its owner released, recorded as CFG_REPAIRED; otherwise CFG_UNCORRECTABLE is recorded and the
partition reset (R160, R297, R482). -/
def execCfgRepairComplete (fn : Nat) (ok : Bool) (st : State) : Out1 :=
  match (st.field fn).repair with
  | [] => .next st
  | a :: rest =>
    let p := st.owner fn
    let slot := (st.field fn).frameOwner a
    let sl := if slot < 4 then slot else 0xFF
    let st := st.setField fn { st.field fn with repair := rest }
    if ok && st.rb Reg.AXB_CFG_STATUS 8 then
      let fr := (allFrames (st.section 0x13 fn)).find? (fun x => x.1 = a)
      let bytes := match fr with
        | some x => (x.2.zipIdx).foldl (fun t e => tput 0 t e.2 e.1) ([] : List (Nat × Byte))
        | none => []
      let f := st.field fn
      let st := st.setField fn { f with frames := tput [] f.frames a bytes }
      .next ((st.releaseOwner fn a).fault 0x09 0 p fn sl 0xFF a 0)
    else if p < 16 && st.partState p ≠ 0 && st.partState p ≠ 4 then .next (st.bursarDown p 5 0 0x0A fn a 0)
    else .next (st.fault 0x0A 2 p fn sl 0xFF a 0)

/-! ## Spare patches (R157, R179) -/

/-- The live group-map entry of slice group `g` (R179). -/
def State.sliceMap (st : State) (fn g : Nat) : Nat :=
  st.rf (Reg.FLD_SLICE_MAP fn (g / 4)) (16 * (g % 4) + 15) (16 * (g % 4))

def State.setSliceMap (st : State) (fn g v : Nat) : State :=
  st.wf (Reg.FLD_SLICE_MAP fn (g / 4)) (16 * (g % 4) + 15) (16 * (g % 4)) v

/-- The group that holds a position now. -/
def State.groupOf (st : State) (fn entry : Nat) : Option Nat :=
  (List.range 64).find? (fun g => st.sliceMap fn g = entry)

/-- The lowest-numbered patch of a group whose spare group is unused and not in `taken`. -/
def State.patchFor (st : State) (fn s g : Nat) (taken : List Nat) : Option SpareEnt :=
  let f := st.field fn
  (spareEnts f.spare).find? (fun e => e.slot = s && e.group = g && !f.spareUsed.contains e.spare && !taken.contains e.spare)

/-- The patches that retire a list of groups, each with a spare group of its own; `none` when one is missing (R293). -/
def State.patchesFor (st : State) (fn s : Nat) : List Nat → List Nat → Option (List SpareEnt)
  | [], _ => some []
  | g :: t, taken =>
    match st.patchFor fn s g taken with
    | none => none
    | some e => (State.patchesFor st fn s t (e.spare :: taken)).map (e :: ·)

/-- Write the words of a patch and recompute the checks of the frames it touches (R139, R157 steps 3 and 4). -/
def State.patchFrames (st : State) (fn : Nat) (e : SpareEnt) : State :=
  let f := st.field fn
  let word (t : List (Nat × List (Nat × Byte))) (k : Nat) : List (Nat × List (Nat × Byte)) :=
    let o := e.pos + 16 * k
    let a := leAt f.spare o 2
    let at_ := 8 * leAt f.spare (o + 2) 2
    let body := ((bytesAt f.spare (o + 8) 8).zipIdx).foldl (fun t x => tput 0 t (at_ + x.2) x.1) (tget [] t a)
    tput [] t a body
  let frames := (List.range e.words).foldl word f.frames
  let crc (t : List (Nat × Nat)) (k : Nat) : List (Nat × Nat) :=
    let a := leAt f.spare (e.pos + 16 * k) 2
    tput 0 t a (crc32 0x82F63B78 ((List.range 4096).map (fun i => tget 0 (tget [] frames a) i)))
  st.setField fn { f with frames := frames, frameCrc := (List.range e.words).foldl crc f.frameCrc }

/-- Apply one patch (R157): the position moves from the retired group to the spare one (R179). The retired group is gated as
long as the load lasts (R168), which `retired` says; the spare group is ungated from the patch on (log 27). -/
def State.applyPatch (st : State) (fn s : Nat) (e : SpareEnt) : State :=
  let old := st.sliceMap fn e.group
  let st := ((st.patchFrames fn e).setSliceMap fn e.group (0xFD00 + old % 256)).setSliceMap fn e.spare old
  let f := st.field fn
  let st := st.setField fn { f with spareUsed := f.spareUsed ++ [e.spare] }
  let st := st.add (Reg.FLD_CFG_STATUS fn) 15 8 1
  let c := st.core fn s
  let l := st.ledOf fn
  let gone (g : Nat) : Bool := g ≠ e.group
  ((st.setCore fn s { c with retired := c.retired ++ [e.group], quiet := c.quiet.filter (fun q => gone q.1),
                             gated := c.gated.filter gone, waking := c.waking.filter (fun q => gone q.1) }).setLed fn { l with spareFree := l.spareFree - 1 }).ledgerEvent

/-! ## Column retirement (R291-R295, R326) -/

/-- A slot becomes unrepairable (R295): it stays halted until its field is loaded again, its items end with "core lost", its
leases are quarantined (R303). -/
def State.loseSlot (st : State) (fn s first : Nat) : State :=
  let c := st.core fn s
  let mask := c.retired.foldl (fun v g => v ||| 2 ^ g) 0
  let st := st.setCore fn s { c with unrepairable := true }
  let st := (st.setb (Reg.GZC_STATUS fn s) 2).abandonSlot fn s 4
  let st := st.fault 0x05 1 (st.owner fn) fn s 0xFF first mask
  (st.quarantineAll 1 (Lease.ofSlot fn s)).refresh fn s

/-- The times of a list that lie within SPAN seconds (FLD_CS_POLICY). -/
def State.inSpan (st : State) (fn : Nat) (t : Nat) : Bool :=
  decide (st.now < t + st.rf (Reg.FLD_CS_POLICY fn) 23 16 * 1000000000)

/-- Record CS_UNLOCALISED; the slot that has UNLOC_LIMIT of them within SPAN becomes unrepairable (R292). -/
def State.unlocalised (st : State) (fn s first verdict resid : Nat) : State :=
  let st := st.fault 0x03 1 (st.owner fn) fn s 0xFF first (verdict * 2 ^ 48 + resid)
  let f := st.field fn
  let l := (s, st.now) :: f.unloc.filter (fun e => st.inSpan fn e.2)
  let st := st.setField fn { f with unloc := l }
  if st.rf (Reg.FLD_CS_POLICY fn) 11 8 ≤ (l.filter (fun e => e.1 = s)).length then st.loseSlot fn s first else st

/-- A slot about to be patched loses what it has in flight and its weights, in the way of a FLUSH (R157 step 2, R201, R214). -/
def State.patchFlush (st : State) (fn s : Nat) : State := (st.flushCore fn s).abandonSlot fn s 2

/-- Retire the groups that hold some positions of a slot, each by one patch, all or none (R293). -/
def State.retirePositions (st : State) (fn s unit first resid : Nat) (entries : List Nat) : State :=
  let groups := entries.filterMap (st.groupOf fn)
  match if groups.length = entries.length then st.patchesFor fn s groups [] else none with
  | none => st.loseSlot fn s first
  | some ps =>
    let st := st.patchFlush fn s
    let st := ps.foldl (fun st e =>
      (st.applyPatch fn s e).fault 0x02 1 (st.owner fn) fn s unit first
        (e.spare * 2 ^ 56 + e.group * 2 ^ 48 + resid)) st
    st.csClear fn s

/-- A verdict against one column or matrix-vector position that did not reproduce (R292, R326). -/
def State.softVerdict (st : State) (fn s key unit first verdict resid : Nat) (entries : List Nat) : State :=
  let f := st.field fn
  let l := (s * 64 + key, st.now) :: f.soft.filter (fun e => st.inSpan fn e.2)
  let st := st.setField fn { f with soft := l }
  if st.rf (Reg.FLD_CS_POLICY fn) 3 0 ≤ (l.filter (fun e => e.1 = s * 64 + key)).length then
    st.retirePositions fn s unit first resid entries
  else (st.fault 0x01 1 (st.owner fn) fn s unit first (verdict * 2 ^ 48 + resid)).csClear fn s

/-- The check of R291: the first cell k of the frozen tile, which is the rows of its LOAD_W, that differs from the one recomputed over the frozen COL_MASK
(R283), read through the narrow view. -/
def State.wrongCell (st : State) (fn s : Nat) (f : Frozen) : Option Nat :=
  let rows := st.rows fn s
  let cols := st.cols fn s
  let lw := f.load
  let l := lanesOf lw.format
  let sc := st.load lw.saddr (scaleLen rows cols lw)
  let subs : CoreSt := { subs := (st.core fn s).latchSubs rows cols lw (nibbleAt sc) }
  let on := bitList cols f.run.runCols
  let es := if lw.esc then (st.readEscs fn s lw.escAddr cols lw.escCount 0 none {}).1.entries else []
  let cellBad (k : Nat) : Bool :=
    let r := k / l
    let j := k % l
    let w : RowW := { fmt := lw.format, esc := lw.esc, codes := st.load (lw.waddr + r * rowPitch cols lw.format) (cols * 32 + 3 * l) }
    let plain := on.foldl (fun a n => a + w.code n j * 2 ^ subs.sub r (j / 32) n) (0 : Int)
    let extra := (es.filter (fun e => on.contains e.n && e.k = f.run.kBase + k)).foldl
      (fun a e => a + e.v * 2 ^ (if e.rel then subs.sub r (j / 32) e.n else 0)) (0 : Int)
    decide (w.cell cols j ≠ plain + extra)
  (List.range (rows * l)).find? (fun k => lw.lwRows.testBit (k / l) && cellBad k)

/-- The response to the verdict of the array's diagnostic (R291, R292). -/
def State.actOnVerdict (st : State) (fn s : Nat) (f : Frozen) : State :=
  let cs := Reg.GZC_CS_STATUS fn s
  let verdict := st.rf cs 26 24
  let col := st.rf cs 15 8
  let first := st.rn (Reg.GZC_CS_FIRST fn s)
  let resid := st.rf (Reg.GZC_CS_RESID fn s) 47 0
  let entries := (List.range (st.rows fn s / 16)).map (fun g => s * 256 + col * 2 + g)
  match verdict with
  | 2 => st.retirePositions fn s col first resid entries
  | 1 => st.softVerdict fn s col col first 1 resid entries
  | 3 =>
    match st.wrongCell fn s f with
    | some k => (st.fault 0x04 1 (st.owner fn) fn s 0xFF first k).csClear fn s
    | none => (st.unlocalised fn s first 3 resid).csClear fn s
  | v => (st.unlocalised fn s first v resid).csClear fn s

/-- The response to a failed checksum block of the matrix-vector path (R326). -/
def State.actOnMv (st : State) (fn s : Nat) : State :=
  let first := st.rn (Reg.GZC_MV_CS_FIRST fn s)
  let resid := st.rf (Reg.GZC_MV_CS_RESID fn s) 47 0
  match bitList 4 (first % 16) with
  | [p] => st.softVerdict fn s (48 + p) p first 7 resid [s * 256 + 0x80 + p]
  | _ => (st.unlocalised fn s first 4 resid).csClear fn s

/-- COLUMN_RETIREMENT: the housekeeper acts on the verdict of a slot whose diagnostic is complete, or on the positions of a
failed matrix-vector block, under FLD_CS_POLICY (R292, R293, R326). -/
def execColumnRetirement (fn s : Nat) (st : State) : Out1 :=
  .next (st.when (st.isFull fn && st.present fn s && (st.field fn).hkUp && !(st.core fn s).unrepairable &&
      (st.core fn s).flushAt.isNone) (fun st =>
    match (st.core fn s).frozen with
    | some f =>
      if st.rb (Reg.GZC_CS_STATUS fn s) 29 then st.actOnVerdict fn s f
      else if st.rb (Reg.GZC_MV_STATUS fn s) 31 && !st.rb (Reg.GZC_CS_STATUS fn s) 31 then st.actOnMv fn s
      else st
    | none => if st.rb (Reg.GZC_MV_STATUS fn s) 31 then st.actOnMv fn s else st))

/-! ## Retirement of core commands (R182, R187, R203) -/

/-- COMMAND_RETIREMENT: the head command of class queue `cls` retires once its tail has passed (R182); a RETAIN that waits for
idle cores goes on (R100). -/
def execCommandRetirement (fn s cls : Nat) (st : State) : Out1 :=
  .next (st.when (st.isFull fn && (st.core fn s).flushAt.isNone && decide (cls < 5)) (fun st =>
    ((if cls = 4 then st.ctrlTail fn s else st).retire fn s cls).retainOn (st.owner fn)))

/-- The wafer address of an uncorrectable read whose bits [47:16] a core reports (R202, R296). -/
def State.eccAddr (st : State) (fn s detail : Nat) : Nat := tget (detail * 65536) (st.core fn s).badReads detail

/-- What a retirement record tells the teller of the item that it serves (R452, R502): the command of that TAG is done, and
the item of the last one is DONE, or CORE with the command's status (R294). -/
def State.noteRecord (st : State) (fn s : Nat) (v : Word) : State :=
  let tag := bitsOf v 15 0
  let status := bitsOf v 31 24
  match (st.slotItems fn s).find? (fun x => x.num % 65536 = tag && !x.cmds.isEmpty) with
  | none => st
  | some x =>
    let c := st.core fn s
    if status ≠ 0 && c.holds tag && !st.halted fn s then
      st.modItem x.num (fun y => { y with fail := y.fail.or (some (status, st.rn (Reg.GZC_LAST_ERR fn s))) })
    else
      let st := st.modItem x.num (fun y => { y with cmds := [] })
      let st := if x.item.op = 2 then
          if status = 0 then st.endItem x.num 0 0 0
          else if status = 0x0A || status = 0x04 then st.endItem x.num 0xC 0 x.detail
          else if status = 0x0B then st.endItem x.num 9 0 (st.eccAddr fn s (bitsOf v 63 32))
          else st.endItem x.num 1 status (st.rn (Reg.GZC_LAST_ERR fn s))
        else match x.fail with
          | some (e, d) => st.endItem x.num 1 e d
          | none => if status = 0 then st.endItem x.num 0 0 0
            else st.endItem x.num 1 status (st.rn (Reg.GZC_LAST_ERR fn s))
      st.tellerItems fn s

/-- A read of GZC_RETIRE: teller `s` takes the oldest record; any other reader receives 0 and removes nothing (R187,
R203). -/
def State.retireTake (st : State) (who : Who) (fn s : Nat) : State :=
  match st.slotReason who fn s with
  | some r => st.accErr who r false (Reg.GZC_RETIRE fn s)
  | none =>
    let c := st.core fn s
    if who == .teller fn s then
      match c.retire with
      | [] => st.answer 0xFF0000
      | v :: t => ((st.putCore fn s { c with retire := t }).noteRecord fn s v).answer v.toNat
    else st.answer 0

/-- RETIRE_READ (R203). -/
def execRetireRead (who : Who) (fn s : Nat) (st : State) : Out1 := .next (st.retireTake who fn s)

/-! ## Leases (R301, R304, R305, R309) -/

/-- FN, SLOT and UNIT of a LEASE_REVOKED record (R309). -/
def Lease.party (l : Lease) : Nat × Nat × Nat :=
  match l.hkind with
  | 1 => (l.holder / 256, l.holder % 256, 0xFF)
  | 6 => (l.holder / 256, l.holder % 256, 0xFF)
  | 2 => (l.holder / 256, 0xFF, l.holder % 256)
  | 4 => (Config.kvlField l.holder, 0xFF, l.holder)
  | _ => (0xFF, 0xFF, l.holder)

/-- A granule that has returned to its pool goes to the slot for which a LEASE_GRANULE item waits (R344). -/
def State.granuleMove (st : State) (fn g : Nat) : State :=
  match st.host.started.find? (fun x => x.item.op = 0x25 && !x.item.managed && x.acted && x.status.isNone &&
      x.item.u 0x20 1 = fn && x.item.u 0x21 1 = g) with
  | none => st
  | some x =>
    let st := (st.grantLease 7 (st.owner fn) 1 (fn * 256 + x.item.u 0x22 1) (fn * 16 + g)).2
    (st.granuleRegs fn).endItem x.num 0 0 0

/-- Reclaim the resource of a revoked lease by its kind (R305). -/
def State.reclaim (st : State) (l : Lease) : State :=
  match l.kind with
  | 2 =>
    /- the holder's flits in the lane that have not drained (R376) -/
    let fn := l.resource / 65536
    let b : Span := { fn := fn, inp := l.resource / 256 % 256 - 1, lane := l.resource % 256, n := 0 }
    let mine (f : Flight) : Bool := f.msg.part = l.holder && f.spans.any (·.here b)
    let st := (st.mesh.flights.filter mine).foldl (fun st f => st.dropFlits f) st
    { st with mesh := { st.mesh with flights := st.mesh.flights.filter (fun f => !mine f) } }
  | 3 =>
    let k := ownerKey (l.resource / 65536 % 256) (l.resource / 256 % 256)
    let w := l.resource % 256
    let x := st.window k w
    st.setWindow k w { x with state := 0, closing := false, scrip := x.scrip, outstanding := 0 }
  | 5 => st.snpDownPort l.resource
  | 6 => st.kvlDown l.resource 8
  | 7 =>
    let fn := l.resource / 16
    let g := l.resource % 16
    let s := l.holder % 256
    (((st.cacheDropGranule fn s g).staleObjs l.owner fn s (granBase fn g) 0x1000000).granuleRegs fn).granuleMove fn g
  | _ => st

/-- Step 4 and 5 of R304: the lease is FREE with its GEN incremented, the uses still in flight are discarded and counted, the
resource is reclaimed, LEASE_REVOKED is recorded. -/
def State.revokeNow (st : State) (i : Nat) : State :=
  let l := st.lease i
  let st := st.setLease i { l with state := 0, gen := (l.gen + 1) % 65536, inflight := 0, due := 0, scope := 0 }
  let st := st.reclaim l
  let u := l.party
  st.fault 0x12 l.scope l.owner u.1 u.2.1 u.2.2 (i + l.kind * 65536) (l.resource + l.inflight * 2 ^ 32)

/-- LEASE_REVOKE: a quarantined lease is revoked once nothing of it is in flight, or at the end of its drain (R304); a
take-down that waited for it goes on (R483). -/
def execLeaseRevoke (i : Nat) (st : State) : Out1 :=
  if (st.lease i).state ≠ 2 then .next st
  else
    let st := if (st.lease i).inflight = 0 then st else st.until (st.lease i).due
    .next ((List.range 16).foldl (fun st p => st.fallOn p) (st.revokeNow i))

/-- The words of a lease entry as AXB_LEASE_LO and AXB_LEASE_HI show them (R301). -/
def Lease.lo (l : Lease) : Nat :=
  l.kind + l.state * 2 ^ 8 + l.owner * 2 ^ 16 + l.hkind * 2 ^ 24 + l.holder * 2 ^ 32 + l.gen * 2 ^ 48
def Lease.hi (l : Lease) : Nat := l.resource + l.inflight * 2 ^ 32

/-- Why an access to the module's registers (AXB_, PWR_, HST_, QUE_M) is not performed: recovery (R451), or a VF, whose
partition view does not show them (R426). -/
def State.moduleReason (st : State) (who : Who) : Option Nat :=
  if st.brs.recovery then some 9
  else match who with
  | .vf _ => some 9
  | .island _ _ => some 9
  | _ => none

/-- A read of AXB_LEASE_HI: the lease's upper bytes, and INDEX moves on (R301). -/
def State.leaseHiTake (st : State) (who : Who) : State :=
  match st.moduleReason who with
  | some r => st.accErr who r false Reg.AXB_LEASE_HI
  | none =>
    let i := st.rf Reg.AXB_LEASE_INDEX 11 0
    (st.wf Reg.AXB_LEASE_INDEX 11 0 (i + 1)).answer (st.lease i).hi

/-- LEASE_HI_READ: a 64-bit read of AXB_LEASE_HI (R301). -/
def execLeaseHiRead (who : Who) (st : State) : Out1 := .next (st.leaseHiTake who)

end Sys2Proof.Machine
end

