-- ==== Sys2Proof/Machine/Watch.lean ====
section
/-! DEFINITION. Watchdogs, heartbeats and halts (chapter 18, R294-R299), link failure (R364), and the commit of route
generations (R373, R374). -/

namespace Sys2Proof.Machine

/-! ## Halts (R294, R296, R454) -/

/-- The completion of the item whose command halted its core (R294): CORE with the command's status, or what COPY_OUT
names for its own push (R496, R503). -/
def State.endHalted (st : State) (fn s : Nat) (x : Started) (status detail : Nat) : State :=
  if x.item.op = 2 && (status = 0x0A || status = 0x04) then st.endItem x.num 0xC 0 x.detail
  else if x.item.op = 2 && status = 0x0B then st.endItem x.num 9 0 (st.eccAddr fn s detail)
  else st.endItem x.num 1 status (st.rn (Reg.GZC_LAST_ERR fn s))

/-- Whether the teller of a core slot runs: teller `s`, or the housekeeper for slot 3 (R444). -/
def State.tellerRuns (st : State) (fn s : Nat) : Bool :=
  if s = 3 then (st.field fn).hkUp else st.rf (Reg.FLD_TELLER_STATUS fn s) 34 32 = 2

/-- What becomes of an item whose commands are in the core at a halt (R294): with a failed command, the command's status; with
commands that the flush discards, "abandoned by fault"; otherwise it awaits the record of its last command. -/
def State.haltItem (st : State) (fn s : Nat) (c : CoreSt) (x : Started) (tag status detail : Nat) : State :=
  let mine := x.num % 65536
  let failed := (c.retire.filter (fun v => bitsOf v 15 0 = mine && bitsOf v 31 24 ≠ 0)).map (fun v => bitsOf v 31 24)
  if mine = tag then st.endHalted fn s x status detail
  else match failed with
    | e :: _ => st.endHalted fn s x e 0
    | [] => if c.holds mine then st.endItem x.num 2 0 0 else st

/-- HALT_RESPONSE: the core teller of a halted slot reads GZC_LAST_ERR; the slot is flushed, at a CHECKSUM halt with the
frozen window kept for the housekeeper's diagnosis; the items are completed under R294, and an uncorrectable read is
recorded (R296, R454). A slot that is unrepairable stays halted (R295). -/
def execHaltResponse (fn s : Nat) (st : State) : Out1 :=
  .next (st.when (st.isFull fn && st.present fn s && st.tellerRuns fn s && st.halted fn s &&
      (st.core fn s).flushAt.isNone && !(st.core fn s).unrepairable) (fun st =>
    let e := Reg.GZC_LAST_ERR fn s
    let tag := st.rf e 63 48
    let status := st.rf e 39 32
    let detail := st.rf e 31 0
    let unit := st.rf e 47 40
    let c := st.core fn s
    let st := ((st.slotItems fn s).filter (fun x => !x.cmds.isEmpty)).foldl (fun st x => st.haltItem fn s c x tag status detail) st
    let st := if status = 0x0B then st.fault 0x08 1 (st.owner fn) fn s 0xFF (st.eccAddr fn s detail) tag else st
    /- a failed entry test of a MINT (R286) -/
    let st := if status = 0x0C && unit = 3 then
        st.fault 0x06 1 (st.owner fn) fn s 0xFF (tag * 2 ^ 48 + detail) c.entryRes else st
    ((st.flushCore fn s).tellerItems fn s).retainOn (st.owner fn)))

/-! ## Watchdogs (R298, R299, R465-R468) -/

/-- A core teller is hung (R298): recorded, its leases quarantined, its slot flushed with its items abandoned, and its
firmware restarted; where the flush does not complete, the slot is held in reset and unrepairable. -/
def State.tellerHang (st : State) (fn t : Nat) (stuck : Bool) : State :=
  let r := Reg.FLD_TELLER_STATUS fn t
  let st := ((st.addSat r 63 48 1).wf r 34 32 4).addSat Reg.AXB_WDOG_STATUS 63 48 1
  let st := st.fault 0x10 1 (st.owner fn) fn t t t 0
  let st := st.quarantineAll 1 (fun l => l.hkind = 2 && l.holder = fn * 256 + t)
  let st := if st.present fn t then
      let st := (st.flushCore fn t).abandonSlot fn t 2
      let st := if stuck then (st.setCore fn t { st.core fn t with held := true }).loseSlot fn t 0 else st
      (st.tellerItems fn t).retainOn (st.owner fn) else st
  let f := st.field fn
  ((st.setField fn { f with beatAt := tput 0 f.beatAt t st.now }).dropRequester (.teller fn t)).wf r 34 32
    (if st.present fn t then 2 else 3)

/-- TELLER_WATCHDOG_CHECK: 10 µs after its last check the housekeeper looks at the heartbeats of tellers 0 to 2; `beats`
are the advances since that check. One without advance for 100 µs is hung (R465, R466); `stuck` names those whose slot's
flush would not complete (R298). A housekeeper that is itself
hung checks nothing (R467). -/
def execTellerWatchdogCheck (fn : Nat) (beats stuck : List Nat) (st : State) : Out1 :=
  .next (st.when (st.isFull fn && (st.field fn).hkUp) (fun st =>
    let st := st.until (tget 0 (st.field fn).beatAt 3 + 10000)
    let f := st.field fn
    let st := st.setField fn { f with beatAt := tput 0 f.beatAt 3 st.now }
    (List.range 3).foldl (fun st t =>
      let r := Reg.FLD_TELLER_STATUS fn t
      let n := beats.getD t 0
      let up := st.rf r 34 32 = 2 || st.rf r 34 32 = 3
      if !up then st
      else if n ≠ 0 then
        let f := st.field fn
        (st.setField fn { f with beatAt := tput 0 f.beatAt t st.now }).add r 31 0 n
      else if tget 0 (st.field fn).beatAt t + 100000 ≤ st.now then st.tellerHang fn t (stuck.contains t)
      else st) st))

/-- HOUSEKEEPER_HEARTBEAT: 100 µs after the last one the housekeeper sends a heartbeat (R456, R465). -/
def execHousekeeperHeartbeat (fn : Nat) (st : State) : Out1 :=
  .next (st.when (st.powered fn && (st.field fn).hkUp) (fun st =>
    let st := st.until ((st.field fn).hkBeatAt + 100000)
    let st := st.setField fn { st.field fn with hkBeatAt := st.now }
    (st.add (Reg.FLD_HK_STATUS fn) 31 0 1).add (Reg.FLD_TELLER_STATUS fn 3) 31 0 1))

/-- The standby anchor that can take over: named by AXB_GRADE and still usable, or none. -/
def State.standby (st : State) : Option Nat :=
  let f := st.rf Reg.AXB_GRADE 31 24
  if f ≠ 0xFF && st.powered f && (st.field f).joined then some f else none

/-- HOUSEKEEPER_HANG: 500 µs after its last heartbeat, a housekeeper other than the active anchor's is reset and restarted
by the bursar; with its third hang within SPAN its field is retired (R299, R465). MIRROR reads 0 while F55's restarts
(R463). -/
def execHousekeeperHang (fn : Nat) (st : State) : Out1 :=
  .next (st.when (st.powered fn && (st.field fn).hkUp && fn ≠ st.anchor && st.brs.running) (fun st =>
    let st := st.until ((st.field fn).hkBeatAt + 500000)
    let r := Reg.FLD_HK_STATUS fn
    let st := ((st.addSat r 63 48 1).addSat (Reg.FLD_TELLER_STATUS fn 3) 63 48 1).addSat Reg.AXB_WDOG_STATUS 47 32 1
    let st := if st.standby = some fn then st.clrb Reg.AXB_BURSAR_STATUS 0 else st
    let st := st.fault 0x11 2 (st.owner fn) fn 0xFF 3 (st.rf r 63 48) 0
    let f := st.field fn
    let l := st.now :: f.hkHangs.filter (st.inSpan fn)
    let st := (st.setField fn { f with hkHangs := l, hkBeatAt := st.now }).dropRequester (.teller fn 3)
    if 3 ≤ l.length then st.retireField fn 4 3 0 else st))

/-- BURSAR_STROBE: each 1 ms the bursar strobes the carrier watchdog when every task was started within its bound; a strobe
that is not given is counted (R466). -/
def execBursarStrobe (inBounds : Bool) (st : State) : Out1 :=
  .next (st.when (st.brs.running && st.clock) (fun st =>
    let past := st.now - st.car.strobeAt
    let st := st.until (st.car.strobeAt + 1000000 * (if past ≤ 1000000 then 1 else (past + 999999) / 1000000))
    if inBounds then { st with car := { st.car with strobeAt := st.now } }.emit .strobe
    else st.addSat Reg.AXB_WDOG_STATUS 31 0 1))

/-- WATCHDOG_MODULE_RESET: 5 ms without a strobe, on a module with no standby anchor, cause a module reset with CAUSE 4
(R465, R602). -/
def execWatchdogModuleReset (st : State) : Out1 :=
  .next (st.when (st.brs.running && st.clock && st.standby.isNone) (fun st =>
    (st.until (st.car.strobeAt + 5000000)).moduleReset 4))

/-- MIRROR_RESYNC: F55 is in BASE or higher with its housekeeper running; the whole mirror is written and MIRROR set
(R463). -/
def execMirrorResync (st : State) : Out1 :=
  .next (st.when (st.brs.running && st.standby.any (fun f => (st.field f).hkUp)) (fun st => st.setb Reg.AXB_BURSAR_STATUS 0))

/-! ## Link failure (R364, R32) -/

/-- LINK_FAILURE: 3 retrains of a link have failed within 1 ms; both ends disable the port, a new generation is owed, and
fields that the anchor no longer reaches are retired (R32, R364). -/
def execLinkFailure (fn port : Nat) (st : State) : Out1 :=
  match Config.neighbour fn port with
  | none => .next st
  | some n =>
    .next (st.when (decide (port < 4) && st.portUp fn port) (fun st =>
      let back := (port + 2) % 4
      let before := st
      let st := (st.add (Reg.MSH_PORT fn port) 47 32 3).add (Reg.MSH_PORT n back) 47 32 3
      let st := { st with mesh := { st.mesh with
        dead := st.mesh.dead ++ [fn * 4 + port, n * 4 + back], owed := true } }.ledgerEvent
      ((st.cutOff before).foldl (fun st f => st.retireOne f 3 3 0) st).tbsUpdate))

/-! ## Route generations (R373, R374) -/

/-- MSH_ROUTE_STATUS.STATE of every router that has loaded its routes. -/
def State.routeState (st : State) (v : Nat) : State :=
  Config.sites.foldl (fun st fn => if (st.field fn).routes then st.wf (Reg.MSH_ROUTE_STATUS fn) 31 24 v else st) st

/-- The partitions that a route set leaves with no complete route. -/
def State.routeless (st : State) (r : RouteSet) : List Nat :=
  (List.range 16).filter (fun p => (st.walks r p).any (fun w =>
    w.2.2.2.bad.isSome || !w.2.2.2.done || 32 < w.2.2.2.hops.length))

/-- ROUTE_COMMIT: after a retirement or link failure the bursar computes the next generation over the enabled ports, resets
each partition left with no complete route, and writes the entries into the inactive bank of every router; the switch
time is the first multiple of 20 µs at least 40 µs later (R373 steps 1 and 2). A commit waits for the previous one
(R374). -/
def execRouteCommit (st : State) : Out1 :=
  .next (st.when (st.mesh.owed && st.mesh.commit.isNone && st.brs.running && !st.brs.fields.isEmpty) (fun st =>
    let w := st.planned
    let owners := (st.brs.fields.filter (fun e => w.usable e.1)).map (fun e => (e.1, e.2.1))
    let r := w.newRoutes owners
    let bank := (st.mesh.gen + 1) % 2
    let bad := w.routeless r
    let st := st.setBank bank (w.anchorFill r)
    let st := Config.sites.foldl (fun st fn =>
      if (st.field fn).retiring = 1 then st.setField fn { st.field fn with retiring := 2 } else st) st
    let t := (st.now + 40000 + 19999) / 20000 * 20000
    let st := { st with mesh := { st.mesh with
      owed := false, commit := some { phase := 1, gen := (st.mesh.gen + 1) % 65536, tSwitch := t } } }
    let st := (List.range 16).foldl (fun st p =>
      if st.partState p ≠ 0 && st.partState p ≠ 4 then st.grantTransit bank p else st) st
    let st := st.routeState 1
    bad.foldl (fun st p => st.bursarDown p 4 0 0x13 0xFF 3 0) st))

/-- ROUTE_SWITCH: at T_s the generation increments in every router, and new heads carry the new bit (R373 step 3). -/
def execRouteSwitch (st : State) : Out1 :=
  match st.mesh.commit with
  | none => .next st
  | some c =>
    .next (st.when (c.phase = 1) (fun st =>
      let st := st.until c.tSwitch
      let st := { st with mesh := { st.mesh with gen := c.gen, commit := some { c with phase := 2 } } }
      let st := Config.sites.foldl (fun st fn =>
        if (st.field fn).routes then (st.loadRoutes fn).wn (Reg.MSH_ROUTE_TIME fn) c.tSwitch else st) st
      (st.routeState 2).drainCounts))

/-- ROUTE_DRAIN_TIMEOUT: at T_s + 10 ms every router discards the old-bit flits that it still holds (R374). -/
def execRouteDrainTimeout (st : State) : Out1 :=
  match st.mesh.commit with
  | none => .next st
  | some c =>
    .next (st.when (c.phase = 2) (fun st =>
      let st := st.until (c.tSwitch + 10000000)
      let old := st.mesh.flights.filter (fun f => f.msg.gen ≠ st.genBit)
      let st := old.foldl (fun st f => st.dropFlits f) st
      let st := { st with mesh := { st.mesh with flights := st.mesh.flights.filter (fun f => f.msg.gen = st.genBit) } }
      st.drainCounts))

/-- Whether a bank holds the transit reservation that a lease records. -/
def State.bankHolds (st : State) (bank : Nat) (l : Lease) : Bool :=
  st.mesh.transit.any (fun e => e.1 / 24 % 2 = bank && e.1 / 48 = l.resource / 65536 && bitsOf e.2 7 0 = l.holder &&
    bitsOf e.2 10 8 = l.resource / 256 % 256 && bitsOf e.2 18 16 = l.resource % 256)

/-- ROUTE_DRAIN_DONE: no old-bit message is left; reservations that only the old bank holds are released, the old bank is
writable (R373 step 5), and the fields retired in order are powered off (R31). -/
def execRouteDrainDone (st : State) : Out1 :=
  match st.mesh.commit with
  | none => .next st
  | some c =>
    .next (st.when (c.phase = 2 && st.mesh.flights.all (fun f => f.msg.gen = st.genBit)) (fun st =>
      let gone := st.leases.filter (fun e => e.2.kind = 2 && e.2.state = 1 && !st.bankHolds (st.mesh.gen % 2) e.2)
      let st := gone.foldl (fun st e => st.releaseLease e.1) st
      let st := { st.drainCounts with mesh := { st.mesh with commit := none } }.routeState 0
      /- what a retirement in order still has to do (R31) -/
      (Config.sites.filter (fun fn => (st.field fn).retiring = 2)).foldl (fun st fn => st.retireOff fn) st))

end Sys2Proof.Machine
end

