-- ==== Sys2Proof/Machine/Serve.lean ====
section
/-! DEFINITION. The servers of the queues (R452, R461, R492-R505): starting items, work items and their completion, the
control items that move granules and set objects. -/

namespace Sys2Proof.Machine

/-! ## Starting (R452, R500, R501) -/

/-- AXB_BURSAR_STATUS.CMDS_RUNNING: management commands started and not yet completed. -/
def State.cmdsRunning (st : State) : State :=
  st.wf Reg.AXB_BURSAR_STATUS 23 16 (st.host.started.filter (fun x => x.item.managed)).length

/-- Who serves a queue (chapter 20): the core slot that a work queue is bound to, or 255 for the bursar; 254 for a work queue
of a partition without cores. -/
def State.serverOf (st : State) (key : Nat) : Nat × Nat :=
  if 4096 ≤ key || key % 256 = 0 then (255, 0)
  else
    let b := st.rf (Reg.QUE_Q_BIND (key / 256) (key % 256)) 15 0
    if b = 0xFFFF then (254, 0) else (b / 256, b % 256)

/-- The status and detail with which the head item of a queue is consumed whatever it waits for: it is malformed, names a
foreign tally, or its wait was refused (R493, R515); a management item that breaks its layout or that recovery does not
admit is refused with ARG (R451, R460, R509). -/
def State.atOnce (st : State) (key : Nat) (it : Item) : Option (Nat × Nat) :=
  if it.managed then
    if it.malformed.isSome then some (3, 0)
    else if st.brs.recovery && !(key = 4096 && (it.op = 0x4B || it.op = 0x4E)) then some (3, 0)
    else none
  else match it.malformed with
  | some o => some (6, o)
  | none =>
    match st.foreignTally it with
    | some t => some (0xA, t)
    | none =>
      match (st.queue key).wake with
      | some (2, _) => some (0xA, it.waitTally)
      | _ => none

/-- FLD_WDOG_CTL.ITEMS as the teller's firmware takes it: series 5 always keeps 4 (R452, R543). -/
def State.itemLimit (st : State) (fn : Nat) : Nat :=
  if st.rf Reg.AXB_REVISION 7 0 = 5 then 4 else st.rf (Reg.FLD_WDOG_CTL fn) 3 0

/-- Whether the conditions of R501 and R452 let an item start: its fence, its wait, and room in its core. -/
def State.startable (st : State) (key : Nat) (it : Item) : Bool :=
  let s := st.serverOf key
  let fence := !it.fence || !st.host.started.any (fun x => x.item.queue = key)
  let waited := !it.waitEn || (st.queue key).wake.any (fun w => w.1 = 0)
  let held := ((st.slotItems s.1 s.2).filter (fun x => x.item.op = 1 || x.item.op = 2)).length
  let room := queueKind key ≠ 0 || !(it.op = 1 || it.op = 2) || held < st.itemLimit s.1
  fence && waited && room

/-- Whether the head of a queue as it stands is one to take: a slot that could not be read, or an item that is refused at once
or may start. -/
def State.canTake (st : State) (key : Nat) : Head → Bool
  | .none => false
  | .lost _ _ => true
  | .item it => (st.atOnce key it).isSome || st.startable key it

/-- Slots of a queue's head. -/
def Head.slots : Head → Nat
  | .item it => it.bytes.length / 64
  | _ => 1

/-- Whether a queue's server may take the item at its head now. -/
def State.mayStart (st : State) (key : Nat) : Bool :=
  let p := key / 256
  let s := st.serverOf key
  let served := if 4096 ≤ key then true
    else st.qAdmits key && st.rf (Reg.QUE_CTX_STATE p (st.rf (qCfg key) 21 16)) 1 0 = 1 &&
      (key % 256 = 0 || ((st.part p).drainAt.isNone && decide (s.1 < 100) && st.tellerRuns s.1 s.2))
  st.qEnabled key && !st.rb (qStatus key) 0 && served && st.canTake key (st.qHeadItem key)

/-- Arrival order of the doorbell that committed the item at a queue's head (R452). -/
def State.headOrder (st : State) (key : Nat) : Nat :=
  let m := (st.qHeadItem key).slots
  (((st.queue key).orders.find? (fun e => decide (m ≤ cnt32 e.1 (st.qHeadN key)))).map (·.2)).getD 0

/-- How many management queues come before queue `4096 + m` when the bursar serves them round-robin (R461). -/
def State.manTurn (st : State) (m : Nat) : Nat := (m + 31 - st.brs.lastM) % 16

/-- Whether it is the turn of a queue: no other queue of the same core teller could start an item whose doorbell came earlier
(R452), and no other management queue that could start one comes before it in the round (R461). -/
def State.isOldest (st : State) (key : Nat) : Bool :=
  let s := st.serverOf key
  if 4096 ≤ key then
    (List.range 16).all (fun m => 4096 + m = key || !st.mayStart (4096 + m) || st.manTurn (key - 4096) < st.manTurn m)
  else s.1 = 255 || st.host.queues.all (fun e =>
    e.1 = key || st.serverOf e.1 ≠ s || !st.mayStart e.1 || st.headOrder key ≤ st.headOrder e.1)

/-- The status and detail with which an item that its server starts is refused at once: not admitted in RETAINED (R500), or
addressed to a slot that is lost (R295). -/
def State.refusedItem (st : State) (key : Nat) (it : Item) : Option (Nat × Nat) :=
  let s := st.serverOf key
  if it.managed then none
  else if key % 256 = 0 then
    if st.partState (key / 256) = 3 && !(it.op = 0x22 || it.op = 0x20 || it.op = 0x23 || it.op = 0x24 || it.op = 0)
    then some (0xE, 3) else none
  else if (st.core s.1 s.2).unrepairable then some (4, 0) else none

/-- The server of a queue takes item `it` from its head; one that cannot be carried out is completed with its status. -/
def State.takeItem (st : State) (queue : Nat) (it : Item) : State :=
  let s := st.serverOf queue
  let bad := (st.atOnce queue it).or (st.refusedItem queue it)
  let r := (st.consume queue (it.bytes.length / 64)).startItem it s.1 s.2
  (match bad with
    | some (e, d) => r.2.endItem r.1 e 0 d
    | none => r.2).cmdsRunning

/-- The server of a queue takes `m` slots whose read from host address `a` failed: their item completes with an error. A header
that the host did not deliver has a TAG, an OPCODE and an EVENT flag that nothing gives: they are free (log 1). -/
def State.takeLost (st : State) (queue m a : Nat) : State :=
  let s := st.serverOf queue
  let d := st.draw
  let v := d.1.toNat
  let bytes := leBytes 1 v ++ leBytes 1 m ++ leBytes 2 (v / 256 % 2) ++ leBytes 4 (v / 2 ^ 32)
  let it : Item := { queue := queue, pos := st.qHeadN queue, epoch := st.qEpoch queue, bytes := bytes }
  let r := (d.2.consume queue m).startItem it s.1 s.2
  (r.2.endItem r.1 (if it.managed then 3 else 8) 0 (if it.managed then 0 else a)).cmdsRunning

/-- The server of a queue takes its head. -/
def State.takeHead (st : State) (queue : Nat) : Head → State
  | .none => st
  | .lost m a => st.takeLost queue m a
  | .item it => st.takeItem queue it

/-- ITEM_START: the server of a queue takes the item at its head, in ring order, the oldest first among the queues of a core
teller (R452, R492, R501), and in turn among the management queues (R461). An item that cannot be carried out is completed
with its status and does nothing else. -/
def execItemStart (queue : Nat) (st : State) : Out1 :=
  .next (st.when (st.mayStart queue && st.isOldest queue) (fun st =>
    let st := st.takeHead queue (st.qHeadItem queue)
    if 4096 ≤ queue then { st with brs := { st.brs with lastM := queue - 4096 } } else st))

/-- The timeout of the wait of item `it`, registered at `t`, expires, and its server cancels the wait (R515). -/
def State.waitExpires (st : State) (queue : Nat) (it : Item) (t : Nat) : State :=
  let q := st.queue queue
  if it.waitTimeout = 0 || q.wake.isSome || q.expired.isSome then st
  else
    let e := t + 1000 * it.waitTimeout
    let st := st.until e
    let st := st.setQueue queue { st.queue queue with expired := some (st.tally it.waitTally) }
    st.cancelWait queue it.waitTally e

/-- The timeout of the wait of a queue's head, where it waits. -/
def State.headExpires (st : State) (queue : Nat) : Head → Option Nat → State
  | .item it, some t => st.waitExpires queue it t
  | _, _ => st

/-- ITEM_WAIT_TIMEOUT: the timeout of the wait of a queue's oldest item expires, and its server cancels the wait (R501, R515);
the tally unit's answer settles whether the item completes with WAIT_TIMEOUT. -/
def execItemWaitTimeout (queue : Nat) (st : State) : Out1 :=
  .next (st.headExpires queue (st.qHeadItem queue) (st.queue queue).waitSince)

/-! ## Completing (R452, R461, R502) -/

/-- ITEM_COMPLETE: the completion record of an item that has its status is written, then its tally is signalled and its
context's vector is sent (R502); a partition that drains for RETAIN may then be done (R100). -/
def execItemComplete (num : Nat) (st : State) : Out1 :=
  match st.item num with
  | none => .next st
  | some x => .next (if st.completeNext x then
      let st := (st.copyClose x).completeItem x
      let st := st.cmdsRunning
      if x.item.managed then st else st.retainOn x.item.part
    else st)

/-! ## Work items (R494-R498) -/

/-- ITEM_NOP: completes with no other action (R494, R499). -/
def execItemNop (it : Item) (st : State) : Out1 := st.onItem it 0x00 (fun x st => st.endItem x.num 0 0 0)

/-- Whether the teller of an item's slot can submit `n` commands of it now: it runs, the core takes commands, and no earlier
item of the slot has still to submit (R452); while a mismatch is being handled it issues nothing (R293, R454). -/
def State.canSubmit (st : State) (x : Started) (n : Nat) : Bool :=
  let c := st.core x.fn x.slot
  st.isFull x.fn && st.tellerRuns x.fn x.slot && c.flushAt.isNone && !c.held && !c.unrepairable &&
    !st.halted x.fn x.slot && !st.rb (Reg.GZC_CS_STATUS x.fn x.slot) 31 && !st.rb (Reg.GZC_MV_STATUS x.fn x.slot) 31 &&
    decide (c.intake.length + n ≤ 32) &&
    !(st.slotItems x.fn x.slot).any (fun y => y.num < x.num && !y.acted && (y.item.op = 1 || y.item.op = 2))

/-- A command as the teller submits it (R495): NOTIFY on the last of its item only, BARRIER as the host wrote it, TAG the
item number. -/
def tellerWord (num : Nat) (last : Bool) (w : CmdWords) : CmdWords :=
  let b := (if last then 1 else 0) + (if w.barrier then 2 else 0)
  { w with w0 := withBits (withBits w.w0 15 8 b) 31 16 (num % 65536) }

/-- CORE: the teller submits the COUNT commands in order; the item completes when the last retires (R495). -/
def execCore (it : Item) (st : State) : Out1 :=
  let n := it.cmdCount
  st.onItemIf it 0x01 (fun x => st.canSubmit x n) (fun x st =>
    let st := (List.range n).foldl (fun st i => st.submit x.fn x.slot (tellerWord x.num (i + 1 = n) (it.cmd i))) st
    (st.modItem x.num (fun y => { y with cmds := [x.num % 65536] })).tellerItems x.fn x.slot)

/-- The object that a work item names, when it is valid, of the bound slot, and holds the range (R496, R498, R505): its
first address. -/
def State.objRange (st : State) (x : Started) (i off len : Nat) : Option Nat :=
  let o := st.obj x.item.part i
  if i < 64 && o.state = 1 && o.fn = x.fn && o.slot = x.slot && off + len ≤ o.size then some (o.base + off) else none

/-- The lowest copy window of a partition that is not in use (R496). -/
def State.freeCopy (st : State) (p : Nat) : Option Nat :=
  (List.range 64).find? (fun w => !(st.part p).copyWins.any (fun e => e.1 = w))

/-- COPY_OUT: the endpoint opens a copy window for the item and grants it to the bound slot, and the teller submits a PUSH of
the range to it (R496). With all 64 windows in use the item waits. -/
def execCopyOut (it : Item) (st : State) : Out1 :=
  let i := it.u 0x20 2
  let len := it.u 0x38 4
  let p := it.part
  let free := st.freeCopy p
  st.onItemIf it 0x02 (fun x => st.canSubmit x 1 && (free.isSome || (st.objRange x i (it.u 0x28 8) len).isNone)) (fun x st =>
    match st.objRange x i (it.u 0x28 8) len with
    | none => st.endItem x.num 7 0 i
    | some src =>
      let w := free.getD 0
      let h := coreHolder x.fn x.slot
      match st.freeGrant h with
      | none => st.endItem x.num 0xB 0 w
      | some g =>
        let base := (0xE0 + p) * 2 ^ 40 + w * 2 ^ 34
        let y := st.part p
        let st := st.setPart p { y with copyWins := y.copyWins ++ [(w, it.u 0x30 8, len, x.num, len)] }
        let st := st.setGrant h g { base := base, size := len, scrip := 512, total := 512, state := 1, window := w,
                                    ownerFn := st.anchor, ownerSlot := 5 }
        let cmd : CmdWords := ⟨BitVec.ofNat 64 (5 + 2 ^ 8 + x.num % 65536 * 2 ^ 16), BitVec.ofNat 64 src,
                               BitVec.ofNat 64 base, BitVec.ofNat 64 len⟩
        let st := st.submit x.fn x.slot cmd
        (st.modItem x.num (fun z => { z with cmds := [x.num % 65536], copyWin := some w, detail := 0xFF })).tellerItems
          x.fn x.slot)

/-- FETCH: the endpoint reads host memory and deposits it under a host grant of the VF (R497). -/
def execFetch (it : Item) (st : State) : Out1 := st.onItem it 0x03 (fun x st => st.fetchPump x.num)

/-- Whether a holder named by WIN_OPEN lies in the window owner's partition: a core slot or an input route of an owned sensor
port, an owned Kevenlink port, or the partition's VF (R479, R498, R556). -/
def State.holderAllowed (st : State) (p hk holder : Nat) : Bool :=
  let fn := holder / 256
  let s := holder % 256
  if hk = 4 then decide (holder < 8) && st.kvlOwner holder = p
  else if hk = 5 then holder = p + 1
  else st.owner fn = p && ((decide (s < 4) && st.present fn s) ||
    (decide (16 ≤ s ∧ s < 20) && (List.range 8).any (fun q =>
      Config.snpField q = fn && q % 2 = (s - 16) / 2 && st.snpOwner q = p)))

/-- WIN_OPEN: a window of the bound slot is opened to a holder, which receives a GRANT (R380, R381, R498). A new grant to a VF
waits for the revocation of its FLR (R441). -/
def execWinOpen (it : Item) (st : State) : Out1 :=
  let w := it.u 0x20 1
  let hk := it.u 0x2A 1
  let holder := it.u 0x2C 2
  let size := it.u 0x24 4
  let settling := hk = 5 && st.leases.any (fun l => l.2.state = 2 && l.2.hkind = 5 && l.2.holder = holder)
  st.onItemIf it 0x04 (fun _ => !settling) (fun x st =>
    match st.objRange x (it.u 0x28 2) (it.u 0x30 8) size with
    | none => st.endItem x.num 7 0 (it.u 0x28 2)
    | some base =>
      let oneGran := isNear base || base / 0x1000000 = (base + size - 1) / 0x1000000
      if 64 ≤ w || !windowForm base size (it.u 0x22 2) (it.u 0x21 1) || !st.ownRange x.fn x.slot base size || !oneGran ||
          !st.holderAllowed it.part hk holder then st.endItem x.num 0xB 0 w
      else
        let r := st.openWindow x.fn x.slot w base size (it.u 0x22 2) (it.u 0x21 1) hk holder (it.u 0x38 8)
        if r.2 then r.1 else r.1.endItem x.num 0xB 0 w)

/-- WIN_CLOSE (R387, R498). -/
def execWinClose (it : Item) (st : State) : Out1 :=
  let w := it.u 0x20 1
  st.onItem it 0x05 (fun x st =>
    let y := st.window (ownerKey x.fn x.slot) w
    if 64 ≤ w || y.state = 2 then st.endItem x.num 0xB 0 w
    else (st.closeWindow x.fn x.slot w).endItem x.num 0 0 0)

/-- SCRIP_RETURN: units of a window in MODE OWNER go back to its holder (R384, R498). -/
def execScripReturn (it : Item) (st : State) : Out1 :=
  let w := it.u 0x20 1
  let n := it.u 0x24 4
  st.onItem it 0x06 (fun x st =>
    let k := ownerKey x.fn x.slot
    let y := st.window k w
    if 64 ≤ w || y.state ≠ 1 || y.mode = 0 || y.outstanding < n then st.endItem x.num 0xB 0 w
    else
      let u := st.holderUnit y.hkind y.holder
      let st := (st.setWindow k w { y with outstanding := y.outstanding - n }).send x.fn
        { kind := 6, part := it.part, srcUnit := x.slot, dst := unitDst u.1 u.2, window := w, wgen := y.gen, units := n }
      st.endItem x.num 0 0 0)

/-! ## Control items (R344, R499, R505) -/

/-- LEASE_GRANULE: the granule leaves its holder under revocation and then goes to the named slot (R304, R344). A granule
that the slot already holds stays, and one in the pool goes to the slot at once. -/
def execLeaseGranule (it : Item) (st : State) : Out1 :=
  let fn := it.u 0x20 1
  let g := it.u 0x21 1
  let s := it.u 0x22 1
  let res := fn * 16 + g
  st.onItem it 0x25 (fun x st =>
    if st.owner fn ≠ it.part then st.endItem x.num 6 0 0x20
    else if 12 ≤ g || !st.brs.carve.any (fun e => e.1 = fn * 12 + g) then st.endItem x.num 6 0 0x21
    else if 4 ≤ s || !st.present fn s then st.endItem x.num 6 0 0x22
    else match st.leases.find? (fun l => l.2.kind = 7 && l.2.resource = res && l.2.state ≠ 0) with
      | some (i, l) =>
        if l.state = 1 && l.holder = fn * 256 + s then st.endItem x.num 0 0 0 else st.quarantine i 0
      | none => st.granuleMove fn g)

/-- OBJECT_SET: sets a memory object entry, or with SIZE 0 invalidates it (R505). -/
def execObjectSet (it : Item) (st : State) : Out1 :=
  let i := it.u 0x20 1
  let fn := it.u 0x21 1
  let s := it.u 0x22 1
  let size := it.u 0x24 4
  let base := it.u 0x28 8
  st.onItem it 0x26 (fun x st =>
    let oneGran := isNear base || base / 0x1000000 = (base + size - 1) / 0x1000000
    if 64 ≤ i then st.endItem x.num 7 0 i
    else if size = 0 then
      (st.setObj it.part i { base := 0, size := 0, fn := 0, slot := 0, state := 0 }).endItem x.num 0 0 0
    else if st.owner fn ≠ it.part || 4 ≤ s || !st.present fn s || base % 64 ≠ 0 || size % 64 ≠ 0 ||
        !st.ownRange fn s base size || !oneGran then st.endItem x.num 7 0 i
    else (st.setObj it.part i { base := base, size := size, fn := fn, slot := s, state := 1 }).endItem x.num 0 0 0)

end Sys2Proof.Machine
end

