-- ==== Sys2Proof/Machine/Failover.lean ====
section
/-! DEFINITION. Standby-anchor failover (R307): what F55 takes over when the carrier watchdog expires (R62, R103, R147, R153,
R468, R517). The steps of R307 are taken together at t0; their bounds are not modelled (log 29). -/

namespace Sys2Proof.Machine

/-- In independent mode the tree is rebuilt from the new reference: for at most 1 ms every node runs in HOLDOVER (R62). -/
def State.rebuildTree (st : State) : State :=
  let st := { st with mesh := { st.mesh with rebuildAt := some (st.now + 1000000) } }
  Config.sites.foldl (fun st fn =>
    if st.powered fn && (st.field fn).joined then (st.nodeEnter fn 4).setb (Reg.TBS_EVENT fn) 2 else st) st

/-- Step 3 of R307 and the roles of R26: `b` takes the reference role from `a`, and wafer time goes on (R62). A node keeps
its state, but `a` follows again what it left for want of TB_REFCLK, and the new reference runs in HOLDOVER where TB_REFCLK
is absent (R61). TBS_MODULE of `a` reads 0 from then on. -/
def State.moveReference (st : State) (a b : Nat) : State :=
  let st := (st.setb (Reg.TBS_EVENT a) 4).setb (Reg.TBS_EVENT b) 4
  let st := (st.wf Reg.AXB_GRADE 23 16 b).wf Reg.AXB_GRADE 31 24 0xFF
  let st := st.wn (Reg.TBS_MODULE a) 0
  let st := st.nodeEnter a (if st.tbsState a = 4 then st.nodeMode else st.tbsState a)
  let st := if st.car.refClock then st.nodeEnter b (st.tbsState b)
    else ((st.nodeEnter b 4).setb (Reg.TBS_EVENT b) 5).setb (Reg.TBS_EVENT b) 2
  (if st.brs.indep then st.rebuildTree else st).tbsUpdate

/-- The shadow becomes the active tally unit: its values and its pending waits (R517). -/
def State.takeShadow (st : State) : State :=
  let st := (List.range 1024).foldl (fun (st : State) t => st.wf (Reg.TLY_VALUE t) 47 0 (bitsOf (tget 0 st.host.shadow t) 47 0)) st
  st.setWaits st.host.shadowWaits

/-- Management commands accepted before the failover complete no more. -/
def State.dropManaged (st : State) : State :=
  let st := { st with host := { st.host with started := st.host.started.filter (fun x => !x.item.managed) },
                      brs := { st.brs with loadBy := none } }
  let st := (List.range 16).foldl (fun (st : State) p =>
    match (st.part p).cmd with
    | some n => if (st.item n).isNone then st.setPart p { st.part p with cmd := none } else st
    | none => st) st
  st.cmdsRunning

/-- A load that was running at the failover (R153): its error is recorded with the next field it would have loaded, and it
ends; the build it committed stays active. -/
def State.cutLoad (st : State) : State :=
  if !st.loading then st
  else
    let st := st.recordErr { code := 0x1B, fn := ((st.brs.toLoad.head?).map (·.fn)).getD 0xFF }
    let st := if st.rf Reg.AXB_CFG_STATUS 3 0 = 2 then st.wf Reg.AXB_CFG_STATUS 3 0 3 else st
    { st with brs := { st.brs with settling := [] } }

/-- Whether a lease is held at a field that the anchor does not reach (R307 step 5). -/
def Lease.lost (ok : List Nat) (l : Lease) : Bool :=
  ((l.hkind = 1 || l.hkind = 2 || l.hkind = 6) && !ok.contains (l.holder / 256)) ||
    (l.hkind = 4 && !ok.contains (Config.kvlField l.holder))

/-- Without a current mirror the bursar on F55 resets every partition that is not OFF, and no lease survives (R468). Each
entry keeps its GEN (log 29). The TAG entries are those of the active build's LEDGER section where that can be read again, and
none otherwise (21_ledger_and_identity.md, R543). -/
def State.rebuild (st : State) : State :=
  let st := (List.range 16).foldl (fun (st : State) p => st.bursarDown p 8 5 0x18 0xFF 44 55) st
  let st := (st.leases.filter (fun e => e.2.state ≠ 0)).foldl (fun (st : State) e => st.releaseLease e.1) st
  let lost := 8 ≤ st.car.flash.source || st.rf Reg.AXB_REVISION 7 0 = 5 || st.rf Reg.AXB_REVISION 7 0 = 6
  let st := match st.brs.image with
    | none => st
    | some i =>
      let parts := (List.range 16).filter (fun p => (st.part p).defined)
      let tags := if lost then [] else (ledgerOf (st.secBody i 9 0xFF) parts).1
      let st := { st with brs := { st.brs with tags := tags } }
      if lost then st.setb Reg.AXB_LEDGER_STATUS 31 else st
  let st := { st with brs := { st.brs with ledgerSeq := 0, led := st.brs.led.filter (fun (e : Nat × LedField) => st.isFull e.1) } }.setb Reg.AXB_BURSAR_STATUS 1
  (List.range 16).foldl (fun (st : State) p => st.fallOn p) st

/-- With the mirror, partitions found RISING are taken down as interrupted, and those FALLING go on to OFF (R103). -/
def State.carryOver (st : State) : State :=
  let st := (List.range 16).foldl (fun (st : State) p =>
    if st.partState p = 1 then st.bursarDown p 8 5 0x18 0xFF 44 55 else st.fallOn p) st
  let ok := st.reachable
  let st := st.quarantineAll 4 (Lease.lost ok)
  st.clrb Reg.AXB_BURSAR_STATUS 1

/-- What the standby anchor `b` takes over from `a` (R307 steps 2 to 8); `back` says whether the housekeeper of `a` starts
again in time, without which the field is retired. -/
def State.failover (st : State) (a b : Nat) (back : Bool) : State :=
  let mirror := st.rb Reg.AXB_BURSAR_STATUS 0
  let st := st.endpointDown
  let st := { st with car := { st.car with laneF55 := true, strobeAt := st.now } }
  let st := (st.moveReference a b).takeShadow.dropManaged.cutLoad
  let st := if mirror then st.carryOver else st.rebuild
  let st := if 8 ≤ st.car.flash.source then st.clrb Reg.AXB_CFG_STATUS 8 else st
  let st := { st with brs := { st.brs with onAt := st.now + 2000000, offAt := st.now + 2000000 } }
  let r := Reg.AXB_BURSAR_STATUS
  let st := (st.clrb r 0).wf r 31 24 (st.rf r 31 24 + 1)
  let st := (st.addSat (Reg.FLD_HK_STATUS a) 63 48 1).ledgerEvent
  let st := st.setField a { st.field a with hkUp := back, hkBeatAt := st.now }
  let st := st.fault 0x18 4 0xFF 0xFF 0xFF 0xFF a (b + if mirror then 0 else 2 ^ 63)
  if back then st else (st.until (st.now + 100000000)).retireField a 4 3 0

/-- ANCHOR_FAILOVER: 5 ms after the last strobe of the carrier watchdog, F55 takes over from F44 where it stands by as the
standby anchor (R22, R307, R465). `back` says whether F44's housekeeper starts again within 100 ms (R307 step 8). -/
def execAnchorFailover (back : Bool) (st : State) : Out1 :=
  match st.standby with
  | none => .next st
  | some b =>
    .next (st.when (st.brs.running && st.clock) (fun st => (st.until (st.car.strobeAt + 5000000)).failover st.anchor b back))

end Sys2Proof.Machine
end

