-- ==== Sys2Proof/Machine/Island.lean ====
section
/-! DEFINITION. Extension islands (chapter 23): user registers (R580, R581), attention (R582), words from the island at the
pre-feeder tap (R585), the store-side tap (R589-R592), transceiver lanes (R593), island reset and tap flush (R594-R596). -/

namespace Sys2Proof.Machine

/-- The record of an island in the active build (R574). -/
def State.islCfg (st : State) (fn s : Nat) : IslCfg := tget {} st.brs.islCfg (fn * 4 + s)

/-- Whether the island of a slot runs: present, its field FULL, and out of reset (R572, R594). -/
def State.islRuns (st : State) (fn s : Nat) : Bool :=
  (st.islCfg fn s).present && st.isFull fn && !(st.island fn s).rstLow

/-- A number of island cycles in ns, rounded up (R572). -/
def State.islNs (st : State) (fn cycles : Nat) : Nat :=
  let f := max 1 (tget 0 st.brs.islFreq fn)
  (cycles * 1000 + f - 1) / f

/-! ## User registers (R580, R581) -/

/-- A 32-bit access to user register `i` of an island: a write becomes one REG_REQ; a read becomes one and waits for its
REG_RSP; while the island is in reset it completes at once under reason 10 (R580, R581). -/
def State.islUser (st : State) (who : Who) (fn s i : Nat) (isWrite : Bool) (value : Nat) : State :=
  let off := Reg.ISL_USER fn s i
  let bad (r : Nat) : State := st.accErr who r isWrite off
  match st.fieldReason who fn with
  | some r => bad r
  | none =>
    if !(st.islCfg fn s).present then (if isWrite then bad 9 else st.answer 0)
    else if !(st.hostOf who fn || Who.tellerOf who fn s) then bad 3
    else if (st.islCfg fn s).regs ≤ i then bad 9
    else if !st.islRuns fn s then bad 10
    else if isWrite then
      let x := st.island fn s
      let old := x.writes.filter (fun r => decide (st.now ≤ r.time + st.islNs fn 1024))
      (st.setIsl fn s { x with writes := old ++ [{ who := who, off := off, time := st.now }] }).emit
        (.island fn s 4 [i, 1, value % 2 ^ 32])
    else
      let x := st.island fn s
      let st := st.setIsl fn s { x with reads := x.reads ++ [{ who := who, off := off, time := st.now }] }
      { st with reply := none }.emit (.island fn s 4 [i, 0, 0])

/-- ISL_USER_ACCESS (R580). -/
def execIslUserAccess (who : Who) (fn s i : Nat) (isWrite : Bool) (value : Nat) (st : State) : Out1 :=
  .next (st.when (decide (s < 4 ∧ i < 256)) (fun st => st.islUser who fn s i isWrite value))

/-- ISL_REG_RSP: the island's answer completes the oldest read, or is discarded where that read has timed out (R580, R581). -/
def execIslRegRsp (fn s : Nat) (word : List Nat) (st : State) : Out1 :=
  let x := st.island fn s
  .next (match x.reads with
    | [] => st
    | r :: t =>
      let st := st.setIsl fn s { x with reads := t, writes := x.writes.filter (fun w => decide (r.time < w.time)) }
      if r.late then st else st.answer (word.headD 0 % 2 ^ 32))

/-- ISL_REG_TIMEOUT: 1,024 island cycles after its transfer the oldest open read completes under reason 10, and so does
(`isWrite`) the oldest write request that the island has not accepted (R581). -/
def execIslRegTimeout (fn s : Nat) (isWrite : Bool) (st : State) : Out1 :=
  let x := st.island fn s
  if isWrite then
    match x.writes with
    | [] => .next st
    | r :: t =>
      let st := st.until (r.time + st.islNs fn 1024)
      .next ((st.setIsl fn s { st.island fn s with writes := t }).accErr r.who 10 true r.off)
  else match x.reads.find? (fun r => !r.late) with
  | none => .next st
  | some r =>
    let st := st.until (r.time + st.islNs fn 1024)
    let reads := x.reads.map (fun (y : IslRead) => if y = r then { y with late := true } else y)
    .next ((st.setIsl fn s { st.island fn s with reads := reads }).accErr r.who 10 false r.off)

/-- When a pulse that reaches an ATTN adapter now crosses: one in 4 cycles of the teller clock, 4 ns; one further pulse is
held, and a third is refused (R77). -/
def IslSt.attnCross (x : IslSt) (now : Nat) : Option Nat :=
  match x.attnX with
  | none => some now
  | some t => if t + 4 ≤ now then some now else if t ≤ now then some (t + 4) else none

/-- ISLAND_ATTN: every pulse that the adapter takes is counted; a notice is raised at most once per 10 µs, and pulses before it
coalesce (R582). The adapter takes none in the 4 receiving cycles after its release (R78). -/
def execIslandAttn (fn s : Nat) (st : State) : Out1 :=
  .next (st.when (st.islRuns fn s && decide ((st.island fn s).upAt + 4 ≤ st.now) &&
      ((st.island fn s).attnCross st.now).isSome) (fun st =>
    let x := st.island fn s
    let st := (st.setIsl fn s { x with attnX := x.attnCross st.now }).addSat (Reg.ISL_STATUS fn s) 63 32 1
    let x := st.island fn s
    if x.attnAt.all (· + 10000 ≤ st.now) then st.attnNotice fn s else st.setIsl fn s { x with attnWait := true }))

/-! ## The pre-feeder tap (R585) -/

/-- PF_IN_WORD: the tap takes a word while it holds fewer than 32, and gives it by count to the row-token it answers; in
RESYNC it discards words up to END (R585, R586). -/
def execPfInWord (fn s : Nat) (word : List Nat) (st : State) : Out1 :=
  .next (st.when (st.islRuns fn s && nbit (st.islCfg fn s).attach 0) (fun st =>
    let x := st.island fn s
    let last := nbit (word.getD 17 0) 22
    if x.resync then st.setIsl fn s { x with resync := !last, inItem := false }
    else if 32 ≤ x.inq.length then st
    else (st.setIsl fn s { x with inq := x.inq ++ [word], inItem := !last }).pfMatch fn s 64))

/-! ## The store-side tap (R589-R592) -/

/-- SS_REQ: a request of OP, ADDR, WDATA and TALLY enters the tap, which holds at most 16, and is performed and answered in
order (R589). -/
def execSsReq (fn s : Nat) (word : List Nat) (st : State) : Out1 :=
  .next (st.when (st.islRuns fn s && nbit (st.islCfg fn s).attach 2) (fun st =>
    let x := st.island fn s
    if 16 ≤ x.ss.length then st
    else
      let e : SsPend := { op := word.getD 0 0 % 4, addr := word.getD 1 0 % 2 ^ 48, data := word.getD 2 0 % 2 ^ 64,
                          tally := word.getD 3 0 % 1024 }
      (st.setIsl fn s { x with ss := x.ss ++ [e] }).ssPump fn s 16))

/-! ## Transceiver lanes (R593) -/

/-- The field and island that own a lane's group, if the group is owned and its island runs (R477, R593). -/
def State.laneIsland (st : State) (lane : Nat) : Option (Nat × Nat) :=
  let g := lane / 4
  let fn := Config.utxField g
  (List.range 4).find? (fun s => decide (lane < 32) && st.brs.utxOwned.contains g && (st.islCfg fn s).utx = g &&
    st.islRuns fn s) |>.map (fun s => (fn, s))

/-- UTX_RX_WORD: a received word enters the lane's FIFO of 64 words, from which the island takes one word a cycle; a word that
finds it full is discarded and counted (R593). -/
def execUtxRxWord (lane word : Nat) (st : State) : Out1 :=
  match st.laneIsland lane with
  | none => .next st
  | some (fn, s) =>
    let x := st.island fn s
    let k := lane % 4
    let gone := (st.now - tget 0 x.rxAt k) * tget 0 st.brs.islFreq fn / 1000
    let fill := tget 0 x.rxFill k - gone
    let at' := if gone = 0 then tget 0 x.rxAt k else st.now
    .next (if 64 ≤ fill then st.addSat (Reg.ISL_UTX_OVF fn s) 63 0 1
      else (st.setIsl fn s { x with rxFill := tput 0 x.rxFill k (fill + 1), rxAt := tput 0 x.rxAt k at' }).emit
        (.island fn s 6 [k, word % 2 ^ 128]))

/-- UTX_TX_WORD: the lane adapter takes a word of the island and transmits it (R593). -/
def execUtxTxWord (lane word : Nat) (st : State) : Out1 :=
  .next (match st.laneIsland lane with
    | none => st
    | some _ => st.emit (.utx lane (word % 2 ^ 128)))

/-! ## ISL_CTL (R594-R598) -/

/-- The RESET bit of ISL_CTLs: the island and its adapters are reset; outstanding reads of its user registers complete under
reason 10 (R581, R594). -/
def State.islReset (st : State) (fn s : Nat) (on : Bool) : State :=
  let st := st.wf (Reg.ISL_CTL fn s) 0 0 (if on then 1 else 0)
  if on then
    let open' := (st.island fn s).reads.filter (fun (r : IslRead) => !r.late)
    let st := (st.islDown fn s).dropRequester (.island fn s)
    let st := st.setIsl fn s { st.island fn s with reads := [] }
    open'.foldl (fun (st : State) r => st.accErr r.who 10 false r.off) st
  else if (st.field fn).stopped (16 + s) then st
  else st.islUp fn s

/-- A mode field of ISL_CTLs: 3 is ignored, and a mode of a tap that the island has not attached is ignored and sets
CTL_REFUSED. -/
def State.islMode (st : State) (fn s tap lo v : Nat) : State :=
  if v = 3 || v = st.rf (Reg.ISL_CTL fn s) (lo + 1) lo then st
  else if nbit (st.islCfg fn s).attach tap then st.wf (Reg.ISL_CTL fn s) (lo + 1) lo v
  else st.setb (Reg.ISL_STATUS fn s) 2

/-- A write of ISL_CTLs by PF0, the owning VF, teller `s` or the housekeeper. -/
def State.islCtlWrite (st : State) (who : Who) (fn s : Nat) (f : State → State) : State :=
  let off := Reg.ISL_CTL fn s
  match st.fieldReason who fn with
  | some r => st.accErr who r true off
  | none =>
    if !(st.islCfg fn s).present then st.accErr who 9 true off
    else if st.hostOf who fn || Who.tellerOf who fn s then f st
    else st.accErr who 3 true off

/-- What a whole value written to ISL_CTLs does: RESET before FLUSH (R598). -/
def State.islCtl (st : State) (fn s value : Nat) : State :=
  let st := if nbit value 0 = st.rb (Reg.ISL_CTL fn s) 0 then st else st.islReset fn s (nbit value 0)
  let st := ((st.islMode fn s 0 2 (nbits value 3 2)).islMode fn s 1 4 (nbits value 5 4)).wf (Reg.ISL_CTL fn s) 8 8 (nbits value 8 8)
  if nbit value 9 then st.tapFlush fn s else st

/-- ISLAND_RESET (R594). -/
def execIslandReset (who : Who) (fn s : Nat) (on : Bool) (st : State) : Out1 :=
  .next (st.when (decide (s < 4)) (fun st => st.islCtlWrite who fn s (fun st => st.islReset fn s on)))

/-- TAP_FLUSH (R596). -/
def execTapFlush (who : Who) (fn s : Nat) (st : State) : Out1 :=
  .next (st.when (decide (s < 4)) (fun st => st.islCtlWrite who fn s (fun st => st.tapFlush fn s)))

end Sys2Proof.Machine
end

