-- ==== Sys2Proof/Machine/Rates.lean ====
section
/-! DEFINITION. Beat rates (chapter 02): the typical rate (R39-R41), the characterised curve of a field with its guaranteed
rate (R43, R44), and the conversion of a figure in beats (R45-R47). They state figures and move no state. -/

namespace Sys2Proof.Machine

/-- Typical rates at 55 degrees, in Mbeat/s, at rail codes 0, 10 .. 50 (R39). -/
def typicalColumns : List Nat := [620, 750, 900, 1050, 1200, 1330]

/-- The typical rate at 55 degrees and a rail code, in tenths of a Mbeat/s: linear between two columns (R40). -/
def typicalTenths (code : Nat) : Nat :=
  let a := typicalColumns.getD (code / 10) 0
  let b := typicalColumns.getD (code / 10 + 1) a
  a * 10 + (code % 10) * (b - a)

/-- The derating factor at `tj` degrees, as a fraction of 800; not specified above 95 degrees (R41). -/
def derating (tj : Int) : Option Nat := if 95 < tj then none else some (800 - (tj - 55).toNat)

/-- The typical rate at a rail code and a junction temperature, in 1/8000 Mbeat/s (R39-R41). -/
def typicalRate (code : Nat) (tj : Int) : Option Nat := (derating tj).map (fun d => typicalTenths code * d)

/-- A curve that R43 admits: 16 points, codes rising from 0 to 50, rates that never fall and lie between 80 % and all of the
typical rate at 95 degrees. -/
def curveOk (l : List (Nat × Nat)) : Bool :=
  l.length = 16 && (l.head?.map (·.1)) == some 0 && (l.getLast?.map (·.1)) == some Config.maxCode &&
    (l.zip l.tail).all (fun e => decide (e.1.1 < e.2.1) && decide (e.1.2 ≤ e.2.2)) &&
    l.all (fun e => match typicalRate e.1 95 with
      | some t => decide (e.2 * 8000 ≤ t ∧ t * 4 ≤ e.2 * 8000 * 5)
      | none => false)

/-- The characterised curve of a field, as the fuses hold it (R43). -/
def Fuses.curve (f : Fuses) (fn : Nat) : List (Nat × Nat) := tget Config.shippedCurve f.curves fn

/-- The guaranteed rate of a curve at a rail code, as a fraction in Mbeat/s: linear between two points (R44). -/
def guaranteed : List (Nat × Nat) → Nat → Nat × Nat
  | a :: b :: t, c =>
    if c < b.1 then (a.2 * (b.1 - a.1) + (c - a.1) * (b.2 - a.2), b.1 - a.1) else guaranteed (b :: t) c
  | [a], _ => (a.2, 1)
  | [], _ => (0, 1)

/-- Whether a rate that the beat monitor reports at a steady rail and junction temperature agrees with the beat rate of the
slowest powered slice group: never above it, and at least 97 % of it, or 95 % on silicon step 0x10 (R52, R543). -/
def State.monitorAgrees (st : State) (slowest rate : Nat) : Bool :=
  decide (rate ≤ slowest ∧ slowest * (if st.rf Reg.AXB_REVISION 31 24 = 0x10 then 95 else 97) ≤ rate * 100)

/-- The lowest of several rates, as fractions (R45, R47). -/
def lowestRate : List (Nat × Nat) → Nat × Nat
  | [] => (0, 1)
  | [a] => a
  | a :: t => let b := lowestRate t; if a.1 * b.2 ≤ b.1 * a.2 then a else b

/-- The bound of a figure in beats at a rail code, in ps: the beats over the lowest guaranteed rate among the fields
involved, rounded up (R45). -/
def State.boundPs (st : State) (beats code : Nat) (fields : List Nat) : Nat :=
  let r := lowestRate (fields.map (fun fn => guaranteed (st.car.fuses.curve fn) code))
  (beats * 1000000 * r.2 + r.1 - 1) / max 1 r.1

end Sys2Proof.Machine
end

