-- ==== Sys2Proof/Machine/Ledger.lean ====
section
/-! DEFINITION. The ledger as the bursar builds it and the host reads it (chapter 21): the header (R521), the entries (R522 to
R530) in the order of R522, and the partition ledger of a VF (R538). PART of a MODULE, FIELD, CURVE or PORT entry is 0xFF, that
of every other entry its partition (log 32). -/

namespace Sys2Proof.Machine

/-- An entry of the ledger: the partition that sees it beside the module (0xFF: only the module; 0x100: every partition), and
its bytes. -/
structure LedEntry where
  owner : Nat
  bytes : List Byte
deriving DecidableEq, Repr

/-- An entry of type `typ` (R522): `body` follows the 8-byte entry header. -/
def ledEntry (owner typ part key : Nat) (body : List Byte) : LedEntry :=
  { owner := owner, bytes := leBytes 1 typ ++ leBytes 1 part ++ leBytes 2 (8 + body.length) ++ leBytes 4 key ++ body }

/-- Whether the active build exists (R535). -/
def State.configured (st : State) : Bool := st.brs.image.isSome

/-- The fields that the ledger lists: functional and not retired at boot (R523). -/
def State.ledFields (st : State) : List Nat := Config.sites.filter (fun fn => st.fuseOk fn && !st.brs.bootGone.contains fn)

/-- MODULE (R524). -/
def State.ledModule (st : State) : LedEntry :=
  let g := Reg.AXB_GRADE
  let mode := if !st.configured then 0xFF else if st.brs.indep then 1 else 0
  ledEntry 0x100 1 0xFF 0 (leBytes 1 (st.rf g 7 0) ++ leBytes 1 (st.rf g 15 8) ++ leBytes 1 (st.rf g 23 16) ++
    leBytes 1 (st.rf g 31 24) ++ leBytes 1 mode ++ leBytes 1 ((List.range 16).filter (fun p => (st.part p).defined)).length ++
    leBytes 1 st.brs.fields.length ++ leBytes 1 0 ++ leBytes 8 (st.rn Reg.AXB_CFG_BUILD) ++ leBytes 8 0)

/-- The pace group that the active full build gives a field, or 0xFF (R525, R534). -/
def State.ledGroup (st : State) (fn : Nat) : Nat :=
  match st.brs.image with
  | none => 0xFF
  | some i => (((paceOf (st.secBody i 8 0xFF)).find? (fun (r : PaceRec) => r.fns.contains fn)).map (·.group)).getD 0xFF

/-- ROLES of a field (R525). -/
def State.ledRoles (st : State) (fn : Nat) : Nat :=
  let b (c : Bool) (k : Nat) : Nat := if c then 2 ^ k else 0
  b (fn = st.anchor) 0 + b (fn = st.rf Reg.AXB_GRADE 31 24) 1 + b (Config.kvlPort fn < 8) 2 + b (Config.hasSnp fn) 3 +
    b (Config.utxGroup fn < 8) 4 + b (st.field fn).listed 5 + b ((st.field fn).listed && st.owner fn = 0xFF) 6

/-- FIELD (R525). -/
def State.ledField (st : State) (fn : Nat) : LedEntry :=
  let l := st.ledOf fn
  let isl := match st.brs.image with
    | none => 0
    | some i => leAt (st.secBody i 0x11 fn) 2 2
  let ports := (List.range 4).foldl (fun a p => if st.portDisabled fn p then a else a + 2 ^ p) 0
  ledEntry (st.owner fn) 2 0xFF fn (leBytes 1 fn ++ leBytes 1 (fn % 10) ++ leBytes 1 (fn / 10) ++
    leBytes 1 (if st.isRetired fn then 2 else 1) ++ leBytes 1 (st.owner fn) ++ leBytes 1 (st.ledGroup fn) ++
    leBytes 1 l.cores.length ++ leBytes 1 (st.ledRoles fn) ++ leBytes 1 l.spareFree ++ leBytes 1 l.spareTotal ++
    leBytes 2 isl ++ leBytes 1 ports ++ leBytes 3 0)

/-- CURVE (R43, R526): the field's own 16 points. -/
def State.ledCurve (st : State) (fn : Nat) : LedEntry :=
  ledEntry (st.owner fn) 3 0xFF fn ((List.range 16).flatMap (fun i =>
    let p := (st.car.fuses.curve fn).getD i (0, 0)
    leBytes 4 (p.1 % 256 + p.2 % 65536 * 65536)))

/-- CORE entries of a field (R527). -/
def State.ledCores (st : State) (fn : Nat) : List LedEntry :=
  (st.ledOf fn).cores.map (fun (c : Nat × Word × Word) =>
    ledEntry (st.owner fn) 4 (st.owner fn) (fn * 256 + c.1) (leBytes 8 c.2.1.toNat ++ leBytes 8 c.2.2.toNat))

/-- The fields of a partition that are not retired. -/
def State.ledOwned (st : State) (p : Nat) : List Nat := (st.partFields p).filter (fun fn => !st.isRetired fn)

/-- Owned granules of a field, one bit each (R529). -/
def State.ledGranules (st : State) (fn : Nat) : Nat :=
  (st.brs.carve.filter (fun e => e.1 / 12 = fn)).foldl (fun a e => a ||| 2 ^ (e.1 % 12)) 0

/-- PARTITION (R528). -/
def State.ledPartition (st : State) (p : Nat) : LedEntry :=
  let x := st.part p
  let own := st.ledOwned p
  ledEntry p 5 p p (leBytes 1 x.contexts ++ leBytes 1 own.length ++ leBytes 2 x.queues ++ leBytes 4 x.blocks ++
    leBytes 2 ((own.map (fun fn => popN 12 (st.ledGranules fn))).sum) ++ leBytes 1 (p + 1) ++ leBytes 5 0 ++
    bytesAt x.label 0 16 ++ leBytes 8 0)

/-- PORT (R529); the partition `seen` of its field sees it whether or not it owns the port (R538). -/
def ledPort (kind num fn owner seen : Nat) : LedEntry :=
  ledEntry seen 6 0xFF (kind * 256 + num) (leBytes 1 kind ++ leBytes 1 num ++ leBytes 1 fn ++ leBytes 1 owner ++
    leBytes 1 (if kind = 2 then 0 else 4) ++ leBytes 3 0)

/-- The PORT entries of the ports that exist and whose field is not retired (R23, R534). -/
def State.ledPorts (st : State) : List LedEntry :=
  let up (fn : Nat) : Bool := st.ledFields.contains fn && !st.isRetired fn
  let ports (kind : Nat) (site own : Nat → Nat) : List LedEntry :=
    ((List.range 8).filter (fun k => up (site k))).map (fun k => ledPort kind k (site k) (own k) (st.owner (site k)))
  ports 1 Config.kvlField st.kvlOwner ++ ports 2 Config.snpField st.snpOwner ++
    ports 3 Config.utxField (fun g => if st.brs.utxOwned.contains g then st.owner (Config.utxField g) else 0xFF)

/-- TALLY (R529): a block leased to a Kevenlink port has that holder. -/
def State.ledTally (st : State) (b : Nat) : LedEntry :=
  let p := st.blockOwner b
  let h := match st.brs.kvlOwned.find? (fun (e : Nat × Nat × Nat) => nbit e.2.2 b) with
    | some e => (4, e.1)
    | none => (3, p)
  ledEntry p 7 p b (leBytes 1 b ++ leBytes 1 p ++ leBytes 1 h.1 ++ leBytes 1 h.2 ++ leBytes 2 (32 * b) ++ leBytes 2 32)

/-- CARVE (R529). -/
def State.ledCarve (st : State) (fn : Nat) : LedEntry :=
  ledEntry (st.owner fn) 8 (st.owner fn) fn (leBytes 1 fn ++ leBytes 1 (st.owner fn) ++ leBytes 2 (st.ledGranules fn) ++ leBytes 4 0)

/-- TAG entries by TAG_ID and PART (R530). -/
def State.ledTags (st : State) : List LedEntry :=
  let t := st.brs.tags.foldl (fun t (e : Nat × Nat × List Byte) =>
    tput none t (e.1 * 256 + e.2.1) (some e.2.2)) ([] : List (Nat × Option (List Byte)))
  t.map (fun (e : Nat × Option (List Byte)) => ledEntry (e.1 % 256) 0x10 (e.1 % 256) (e.1 / 256) (e.2.getD []))

/-- The entries of the ledger in the order of R522. -/
def State.ledEntries (st : State) : List LedEntry :=
  let fs := st.ledFields
  let live := fs.filter (fun fn => !st.isRetired fn)
  let parts := (List.range 16).filter (fun p => (st.part p).defined)
  [st.ledModule] ++ fs.map st.ledField ++ fs.map st.ledCurve ++ live.flatMap st.ledCores ++ parts.map st.ledPartition ++
    st.ledPorts ++ ((List.range 32).filter (fun b => st.blockOwner b < 16)).map st.ledTally ++
    (live.filter (fun fn => st.owner fn < 16 && st.ledGranules fn ≠ 0)).map st.ledCarve ++ st.ledTags

/-- The header (R521) over the entries `es`. -/
def State.ledHeader (st : State) (build : Nat) (es : List LedEntry) : List Byte :=
  leBytes 4 0x4C445A47 ++ leBytes 4 st.brs.ledgerSeq ++ leBytes 4 (64 + (es.map (fun (e : LedEntry) => e.bytes.length)).sum) ++
    leBytes 2 es.length ++ leBytes 2 0 ++ leBytes 8 build ++ bytesAt st.brs.label 0 32 ++ leBytes 8 st.brs.ledgerTime

/-- The ledger of the module (R520); empty until the bursar runs. -/
def State.ledger (st : State) : List Byte :=
  if !st.brs.running then []
  else
    let es := st.ledEntries
    st.ledHeader (st.rn Reg.AXB_CFG_BUILD) es ++ es.flatMap (fun (e : LedEntry) => e.bytes)

/-- The partition ledger of partition `p` (R538). -/
def State.ledgerOf (st : State) (p : Nat) : List Byte :=
  if !st.brs.running then []
  else
    let es := st.ledEntries.filter (fun (e : LedEntry) => e.owner = 0x100 || e.owner = p)
    let own := st.rn (Reg.AXB_CFG_PART_BUILD p)
    st.ledHeader (if own = 0 then st.rn Reg.AXB_CFG_BUILD else own) es ++ es.flatMap (fun (e : LedEntry) => e.bytes)

end Sys2Proof.Machine
end

