-- ==== Sys2Proof/Machine/Tally.lean ====
section
/-! DEFINITION. The messages of the tally unit (R411, R513-R517) and the host's writes of tally registers (R514, R519). -/

namespace Sys2Proof.Machine

/-- Whether the tally unit accepts a signal for a tally from a message's sender (R514): a block of its partition that is not
under revocation, or for a Kevenlink port a block leased to it. -/
def State.mayTally (st : State) (m : Msg) (t : Nat) : Bool :=
  let b := t / 32
  if m.srcUnit = 6 then st.portBlock (Config.kvlPort m.srcFn) b
  else m.part < 16 && st.blockOwner b = m.part &&
    !st.leases.any (fun l => l.2.kind = 4 && l.2.resource = b && l.2.hkind = 3 && l.2.state = 2)

/-- The answer of the tally unit to a signal (R514). -/
def State.tack (st : State) (m : Msg) (status : Nat) : State :=
  st.send st.anchor { kind := 0x0D, part := m.part, srcUnit := 8, tag := m.tag, dst := unitDst m.srcFn m.srcUnit, status := status }

/-- A forwarded signal that its port cannot send is lost and counted (R516). -/
def State.forwardLost (st : State) (m : Msg) : State :=
  match st.sentOf m.tag with
  | none => st
  | some x =>
    let st := st.dropSent m.tag
    match x.job with
    | .forward t => st.addSat (Reg.TLY_STAT t) 39 32 1
    | _ => st

/-- A signal that has reached Kevenlink port `p` goes to the peer under the outbound tag `t`, where one is free (R516). -/
def State.relaySignal (st : State) (m : Msg) (p : Nat) : Option Nat → State
  | none => st.forwardLost m
  | some t =>
    if st.kvlState p ≠ 5 then st.forwardLost m
    else
      let st := st.kvlAddTag p { idx := t, kind := 0x0C, tag := m.tag, fn := m.srcFn, unit := m.srcUnit, slot := 64, units := 0 }
      st.kvlQueue p { m with tag := t }

/-- A signal that has reached the tally unit takes effect and is answered (R513, R514). -/
def State.takeSignal (st : State) (m : Msg) : State :=
  let t := m.a % 1024
  if st.mayTally m t then
    let r := st.tallySignal t m.b
    r.1.tack m r.2
  else st.tack m 3

/-- TSIGNAL: a signal at the tally unit or at a Kevenlink port (R513, R514, R516). -/
def execTsignal (m : Msg) (st : State) : Out1 :=
  if m.kind ≠ 0x0C then .next st
  else st.onArrived m (fun st =>
    let p := Config.kvlPort m.dstFn
    if m.dstUnit = 6 then st.relaySignal m p (st.kvlFreeTag p)
    else if m.dstUnit = 8 && m.dstFn = st.anchor then st.takeSignal m
    else st)

/-- What an answer to a signal means for its sender (R514, R516, R558, R589). -/
def State.signalDone (st : State) (x : Sent) (status : Nat) : State :=
  match x.job with
  | .signal fn s num =>
    st.setCore fn s ((st.core fn s).modCmd 4 num (fun y => { y with result := some status }))
  | .forward t =>
    if status = 0 then st
    else (st.addSat (Reg.TLY_STAT t) 47 40 1).notice 0x2B (st.blockOwner (t / 32)) 0xFF 0xFF 0xFF t status
  | .island fn s tag =>
    st.ssSignalled fn s tag status
  | .snpSignal port => if status = 0 then st else st.setb (snpReg Reg.SNP_EVENT port) 7
  | .relay p tag =>
    let st := (st.blockLeases p (x.grant - 64)).foldl (fun st i => st.leaseUse i false) st
    if tag < 65536 && st.kvlState p = 5 then (st.kvlQueue p { kind := 0x0D, tag := tag, status := status }).kvlUnhold p 1024 else st
  | _ => st

/-- Whether a tracked message is a signal: a core's, a forwarded one, an island's, a sensor port's, or a peer's. -/
def Sent.isSignal (x : Sent) : Bool :=
  match x.job with
  | .signal _ _ _ | .forward _ | .island _ _ _ | .snpSignal _ => true
  | .relay _ _ => x.dst % 64 = 8
  | _ => false

/-- A NAK at its sender: a signal that could not be addressed (R9) is lost where it was forwarded and otherwise ends as one
that the tally unit refuses (log 51); any other message ends as R385 states. -/
def State.refused (st : State) (m : Msg) : State :=
  match st.sentOf m.tag with
  | none => st
  | some x =>
    if x.isSignal then
      match x.job with
      | .forward _ => st.forwardLost m
      | _ => (st.dropSent m.tag).signalDone x 3
    else st.answered m true

/-- NAK: units return, and the sender's PUSH or transfer ends with a refusal (R385). -/
def execNak (m : Msg) (st : State) : Out1 :=
  if m.kind = 3 then st.onArrived m (fun st => (st.refused m).snpPumpAll) else .next st

/-- TACK: the answer to a signal reaches its sender, by tag (R411, R514). -/
def execTack (m : Msg) (st : State) : Out1 :=
  if m.kind ≠ 0x0D then .next st
  else st.onArrived m (fun st =>
    match st.sentOf m.tag with
    | none => st
    | some x => (st.dropSent m.tag).signalDone x m.status)

/-- TWAIT: the tally unit registers a wait, answers at once one that is satisfied or that names a foreign tally, and answers a
cancel with RESULT 1 (R515). The waits are copied to the shadow (R517). -/
def execTwait (m : Msg) (st : State) : Out1 :=
  if m.kind ≠ 0x0E then .next st
  else st.onArrived m (fun st =>
    let t := m.a % 1024
    let others := st.host.waits.filter (fun w => w.who ≠ m.tag)
    if m.b % 2 = 1 then (st.setWaits (st.host.waits.filter (fun w => !(w.who = m.tag && w.tally = t)))).wakeMsg m.tag t 1 st.now
    else if 16 ≤ m.part || st.blockOwner (t / 32) ≠ m.part then st.wakeMsg m.tag t 2 st.now
    else if reached (st.tally t) m.c then (st.setWaits others).wakeMsg m.tag t 0 (st.reachedAt t m.c)
    else st.setWaits (others ++ [{ who := m.tag, tally := t, target := m.c }]))

/-- A TWAKE at the WAIT command of a core slot (R198, R515): RESULT 0 counts with a T_W no later than the expiry, RESULT 1
answers a cancel. -/
def State.wakeCore (st : State) (fn s : Nat) (m : Msg) : State :=
  let c := st.core fn s
  match c.ctrl with
  | [] => st
  | x :: _ =>
    let ok := x.w.op = 0x0B && x.sent ≠ 0 && x.result.isNone && x.w.tally = m.a &&
      (if m.b = 0 then decide (m.c ≤ x.expiry.getD m.c) else if m.b = 1 then x.sent = 2 else true)
    if ok then st.setCore fn s (c.modCmd 4 x.num (fun y => { y with result := some m.b })) else st

/-- A TWAKE for item `it` of a queue, whose wait was registered at `t` (R501, R515): the wait is satisfied, refused, or has
timed out, in which case the item completes with WAIT_TIMEOUT and later items proceed. -/
def State.wakeItem (st : State) (key : Nat) (m : Msg) (it : Item) (t : Nat) : State :=
  let q := st.queue key
  let expiry := t + 1000 * it.waitTimeout
  if it.waitTally ≠ m.a || q.wake.isSome then st
  else if m.b = 0 then
    if it.waitTimeout = 0 || m.c ≤ expiry then st.setQueue key { q with wake := some (0, m.c) } else st
  else if m.b = 2 then st.setQueue key { q with wake := some (2, m.c) }
  else match q.expired with
    | none => st
    | some v =>
      let s := st.serverOf key
      let r := (st.consume key (it.bytes.length / 64)).startItem it s.1 s.2
      r.2.endItem r.1 5 0 v

/-- A TWAKE at the head of a queue. -/
def State.wakeHead (st : State) (key : Nat) (m : Msg) : Head → Option Nat → State
  | .item it, some t => st.wakeItem key m it t
  | _, _ => st

/-- A TWAKE at the server of a queue. -/
def State.wakeQueue (st : State) (key : Nat) (m : Msg) : State :=
  st.wakeHead key m (st.qHeadItem key) (st.queue key).waitSince

/-- TWAKE: the tally unit's answer to a wait reaches the waiter (R515). -/
def execTwake (m : Msg) (st : State) : Out1 :=
  if m.kind ≠ 0x0F then .next st
  else st.onArrived m (fun st =>
    if 8192 ≤ m.tag then st.wakeCore ((m.tag - 8192) / 4) ((m.tag - 8192) % 4) m else st.wakeQueue m.tag m)

/-! ## Host writes (R514, R519) -/

/-- Why a party's access to the registers of tally `i` is not performed, if it is not: PF0 may signal a tally in a block that
a partition owns, a VF one of its own (R514, R519). -/
def State.tallyReason (st : State) (who : Who) (i : Nat) : Option Nat :=
  if st.brs.recovery then some 9
  else match who with
  | .pf0 => none
  | .vf n => if decide (1 ≤ n ∧ n ≤ 16) && (st.part (n - 1)).defined && st.tallyOwned (n - 1) i then none else some 5
  | _ => some 3

/-- A write of TLY_VALUE: a signal of that value (R513, R514). -/
def State.tallyValue (st : State) (who : Who) (i value : Nat) : State :=
  match st.tallyReason who i with
  | some r => st.accErr who r true (Reg.TLY_VALUE i)
  | none =>
    if st.blockOwner (i / 32) = 0xFF then st.accErr who 5 true (Reg.TLY_VALUE i)
    else (st.tallySignal i value).1

/-- TALLY_VALUE_WRITE (R514). -/
def execTallyValueWrite (who : Who) (i value : Nat) (st : State) : Out1 :=
  .next (if i < 1024 then st.tallyValue who i value else st)

/-- A write of TLY_STAT: FWD_EN, FWD_PORT and FWD_TALLY; forwarding over a port that the tally's partition does not own is
refused (R516, R519). -/
def State.tallyStat (st : State) (who : Who) (i value : Nat) : State :=
  let r := Reg.TLY_STAT i
  let p := st.blockOwner (i / 32)
  match st.tallyReason who i with
  | some e => st.accErr who e true r
  | none =>
    if value.testBit 63 && (16 ≤ p || st.kvlOwner (nbits value 62 60) ≠ p) then st.accErr who 5 true r
    else ((st.wf r 63 63 (nbits value 63 63)).wf r 62 60 (nbits value 62 60)).wf r 57 48 (nbits value 57 48)

/-- TALLY_STAT_WRITE (R519). -/
def execTallyStatWrite (who : Who) (i value : Nat) (st : State) : Out1 :=
  .next (if i < 1024 then st.tallyStat who i value else st)

end Sys2Proof.Machine
end

