-- ==== Sys2Proof/Machine/View.lean ====
section
/-! DEFINITION. What a register shows at the present moment, without any side effect: the stored value, or the view of other
state that a register is (lease words R301, window and grant entries R378 and R379, remote grants R417, wafer time, the
retirement FIFO R203, a gleaner bin R281, the route entries of the active bank R388, the ledger R520 and R538). -/

namespace Sys2Proof.Machine

/-- The 64-bit words of a window entry (R378). -/
def Window.word (x : Window) (k : Nat) : Nat :=
  [x.base, x.size + x.scrip * 2 ^ 32 + x.mode * 2 ^ 48 + x.state * 2 ^ 56,
   x.gen + x.hkind * 2 ^ 16 + x.holder * 2 ^ 32 + x.lease * 2 ^ 48, x.outstanding + x.refused * 2 ^ 32, x.deposited].getD k 0

/-- The 64-bit words of a grant entry (R379). -/
def Grant.word (x : Grant) (k : Nat) : Nat :=
  [x.base, x.size + x.scrip * 2 ^ 32 + x.state * 2 ^ 48 + x.window * 2 ^ 56,
   x.wgen + x.ownerFn * 2 ^ 16 + x.ownerSlot * 2 ^ 24 + x.mode * 2 ^ 32, x.sent].getD k 0

/-- The 64-bit words of a remote-grant slot (R417). -/
def RGrant.word (x : RGrant) (k : Nat) : Nat :=
  [x.peerBase, x.size + x.peerWindow * 2 ^ 32 + x.state * 2 ^ 40 + x.wgen * 2 ^ 48,
   x.holderFn + x.holderSlot * 2 ^ 8 + x.inflight * 2 ^ 32, x.sent].getD k 0

/-- What HST_VF_STATE of VF `n` shows (R421). -/
def State.vfState (st : State) (n : Nat) : Nat :=
  let p := n - 1
  (st.partState p) + (if (st.part p).defined then 2 ^ 8 else 0) + p * 2 ^ 24

/-- Levels at the user GPIO pins (R615): the driven ones as driven, the others free (log 33). -/
def State.gpioIn (st : State) : Nat :=
  let oe := st.rf Reg.AXB_GPIO 15 8
  let free := (Config.freeValue st.fresh).toNat % 256
  (st.rf Reg.AXB_GPIO 7 0 &&& oe) ||| (free &&& (255 - oe))

/-- The port half `h` of field `fn` as a sensor port number, or 8. -/
def snpNumber (fn h : Nat) : Nat := ((List.range 8).find? (fun n => Config.snpField n = fn && n % 2 = h)).getD 8

/-- Whether the register at window offset `w` counts what bank arbitration refused or forced: the wide and narrow conflict
counters and the gaps of a near scratchpad, and those of the bulk store (R338, R339). -/
def conflictAt (w : Nat) : Bool :=
  (0x30000 ≤ w && w < 0x31000 && (w % 0x400 = 0x40 || (0x100 ≤ w % 0x400 && w % 0x400 < 0x200))) ||
    (0x31100 ≤ w && w < 0x31400)

/-- Whether a register's value is partly free, so that each read of it draws anew: the pins that nothing drives (log 33) and
the beats of a measurement window in progress (R52, log 1), and the conflicts at a bank, which beats decide (log 46). -/
def drawsAtRead (off : Nat) : Bool :=
  off = Reg.AXB_GPIO || (0x1000000 ≤ off && off < 0x2900000 && (off % 0x40000 = 0x188 || conflictAt (off % 0x40000)))

/-- What FLD_BEATMON_COUNT shows: the beats of the windows that have ended, and while the ring runs those of the window in
progress, which are free (R52). -/
def State.beatCount (st : State) (fn : Nat) : Nat :=
  let n := st.rn (Reg.FLD_BEATMON_COUNT fn)
  if st.rb (Reg.FLD_BEATMON_CTL fn) 0 && (st.field fn).joined then (n + (Config.freeValue st.fresh).toNat) % 2 ^ 64 else n

/-- A view in the window of field `fn` at window offset `w`, where the register is one. -/
def State.viewField (st : State) (fn w : Nat) : Option Nat :=
  if w = 0x188 then some (st.beatCount fn)
  else if conflictAt w && !(w < 0x31000 && !st.present fn ((w - 0x30000) / 0x400)) then
    some ((Config.freeValue st.fresh).toNat % 2 ^ 64)
  else if w = 0x1000 then some (if (st.field fn).joined then st.now else 0)
  else if 0x20000 ≤ w && w < 0x24000 then
    let s := (w - 0x20000) / 0x1000
    let o := w % 0x1000
    if 0x10 ≤ o && !st.present fn s then some 0
    else if o = 0xA0 then some ((st.core fn s).retire.head?.map (·.toNat) |>.getD 0xFF0000)
    else if o = 0x220 then some (st.gleanBin fn s)
    else none
  else if 0x28000 ≤ w && w < 0x2A000 then
    if 0x28100 ≤ w && w < 0x28500 && (st.islCfg fn ((w - 0x28100) / 0x100)).present then none
    else if w = 0x28000 then none
    else some 0
  else if 0x34000 ≤ w && w < 0x35000 then
    let p := Config.kvlPort fn
    if 8 ≤ p then some 0
    else if w = 0x34008 then some (bitsOf (st.rd (Reg.KVL_STATUS fn)) 55 0 + st.kvlOwner p * 2 ^ 56)
    else if 0x34800 ≤ w then some ((tget {} (st.kvlPort p).rgrants ((w - 0x34800) / 32)).word (w % 32 / 8))
    else none
  else if 0x36000 ≤ w && w < 0x36800 then
    let n := snpNumber fn ((w - 0x36000) / 0x400)
    let o := w % 0x400
    if 8 ≤ n then some 0
    else if 0x200 ≤ o && o < 0x240 then some ((st.grantOf (snpHolder n ((o - 0x200) / 32)) 0).word (o % 32 / 8))
    else none
  else if 0x38000 ≤ w && w < 0x3F000 then
    let o := w - 0x38000
    let bank := st.rf (Reg.MSH_ROUTE_STATUS fn) 23 23
    if 0x100 ≤ o && o < 0x300 then
      some (if (st.field fn).routes then (tget 0 st.mesh.ovr ((fn * 2 + bank) * 64 + (o - 0x100) / 8)).toNat else 0)
    else if 0x300 ≤ o && o < 0x3C0 then
      some (if (st.field fn).routes then (tget 0 st.mesh.transit ((fn * 2 + bank) * 24 + (o - 0x300) / 8)).toNat else 0)
    else if 0x1000 ≤ o && o < 0x5000 then
      let s := (o - 0x1000) / 0x1000
      some (if st.present fn s then (st.window (ownerKey fn s) (o % 0x1000 / 64)).word (o % 64 / 8) else 0)
    else if 0x5000 ≤ o then
      let s := (o - 0x5000) / 0x800
      some (if st.present fn s then (st.grantOf (coreHolder fn s) (o % 0x800 / 32)).word (o % 32 / 8) else 0)
    else none
  else none

/-- A view in VF `n`'s own space at offset `w`. -/
def State.viewVf (st : State) (n w : Nat) : Option Nat :=
  if w = 0x2000 then some (st.vfState n)
  else if 0x2800 ≤ w && w < 0x3000 then some ((st.grantOf (vfHolder n) ((w - 0x2800) / 32)).word (w % 32 / 8))
  else if w = 0xC008 then some (st.ledgerOf (n - 1)).length
  else none

/-- Whether a staged routing entry (R512) stands at flat offset `off`. A reserved bit that a write sets in it is remembered,
since it makes COMMIT refuse the table, and reads as zero (R12). -/
def evtRouteAt (off : Nat) : Bool :=
  (0x101100 ≤ off && off < 0x101300) || (0x110000 ≤ off && off < 0x210000 && 0x3100 ≤ off % 0x10000 && off % 0x10000 < 0x3180)

/-- A view at flat offset `off`, where the register there is one. -/
def State.viewAt (st : State) (off : Nat) : Option Nat :=
  if off = Reg.AXB_LEASE_LO then some (st.lease (st.rf Reg.AXB_LEASE_INDEX 11 0)).lo
  else if off = Reg.AXB_LEASE_HI then some (st.lease (st.rf Reg.AXB_LEASE_INDEX 11 0)).hi
  else if off = Reg.AXB_GPIO then some (st.rf Reg.AXB_GPIO 15 0 + st.gpioIn * 2 ^ 24)
  else if 0x1000000 ≤ off && off < 0x2900000 then st.viewField ((off - 0x1000000) / 0x40000) (off % 0x40000)
  else if evtRouteAt off then some ((st.rd off) &&& ~~~ (maskOf 62 40)).toNat
  else if 0x4000000 ≤ off then st.viewVf ((off - 0x4000000) / 0x100000) (off % 0x100000)
  else none

/-- The value that the register at flat offset `off` shows; WO bits read 0 (R10). -/
def State.view (st : State) (off : Nat) : Word :=
  match st.viewAt off with
  | some v => BitVec.ofNat 64 v
  | none => match Reg.row? off with
    | some r => st.rd off &&& ~~~ (BitVec.ofNat 64 r.wo)
    | none => 0

/-- Whether the flat offset lies in the ledger as PF0 or a VF sees it, and the byte of which ledger (`none` for the module's)
it then names (R520, R538). -/
def State.ledgerAt (st : State) (off : Nat) : Option (Option Nat × Nat) :=
  if 0x800000 ≤ off && off < 0x1000000 then some (none, off - 0x800000)
  else if 0x4000000 ≤ off && 0xD000 ≤ off % 0x100000 && off % 0x100000 < 0x10000 then
    let n := (off - 0x4000000) / 0x100000
    some (some (n - 1), st.rf (Reg.LEDGER_VIEW n) 5 0 * 12288 + (off % 0x100000 - 0xD000))
  else none

/-- The register that holds the 32-bit word at flat offset `off`: its offset, its row, and whether the word is its high one. -/
def Reg.holding (off : Nat) : Option (Nat × Reg.Row × Bool) :=
  match Reg.row? off with
  | some r => some (off, r, false)
  | none =>
    if off % 8 = 4 then
      match Reg.row? (off - 4) with
      | some r => if r.width = 64 then some (off - 4, r, true) else none
      | none => none
    else none

/-- The 32-bit word at flat offset `off`, without side effects: a register, the ledger, or 0 within a block; `none` where no
block lies (R619). -/
def State.word32 (st : State) (off : Nat) : Option Nat :=
  match st.ledgerAt off with
  | some (p, o) =>
    let l := match p with
      | none => st.ledger
      | some p => st.ledgerOf p
    some (leAt l o 4)
  | none => match Reg.holding off with
    | some (r, _, hi) => some (if hi then bitsOf (st.view r) 63 32 else bitsOf (st.view r) 31 0)
    | none => if (Reg.locate off).isSome then some 0 else none

end Sys2Proof.Machine
end

