-- ==== Sys2Proof/Machine/Pins.lean ====
section
/-! DEFINITION. Pins of the carrier (chapter 24): RST_N (R601), the JTAG port (R611, R612), the SMBus target (R608, R609), the
PMBus host (R610) and the user GPIO (R615). -/

namespace Sys2Proof.Machine

/-! ## RST_N (R601) -/

/-- RST_N: held low for 1 µs, it starts a module reset with CAUSE 2. -/
def execRstN (st : State) : Out1 :=
  .next (if st.car.rstLow then st else State.moduleReset { st with car := { st.car with rstLow := true } } 2)

/-- RST_N_RELEASE: RST_N goes high, and a reset that waited for it goes on (R601 step 5, R605). -/
def execRstNRelease (st : State) : Out1 :=
  .next (if st.car.rstLow then State.finishReset { st with car := { st.car with rstLow := false } } else st)

/-! ## JTAG (R611, R612) -/

/-- The instruction register takes `ir`, and the pins go to mode `mode`. -/
def State.jtag (st : State) (ir mode : Nat) : State := { st with car := { st.car with jtagIr := ir, pinMode := mode } }

/-- An instruction that drives pins: outside test mode it acts as BYPASS (R611). -/
def State.jtagDrive (st : State) (ir mode : Nat) (dr : Option Nat) : State :=
  if !st.car.entryUp then st
  else if !st.brs.testMode then st.jtag 0xFF 0
  else State.jtag { st with car := { st.car with boundary := dr.getD st.car.boundary } } ir mode

/-- TAP_RESET: IDCODE is selected, and every pin returns to its function (R611, R612). -/
def execTapReset (st : State) : Out1 := .next (if st.car.entryUp then st.jtag 1 0 else st)

/-- EXTEST: in test mode the boundary cells drive the pins. -/
def execExtest (dr : Nat) (st : State) : Out1 := .next (st.jtagDrive 0 1 (some dr))

/-- IDCODE: the 32-bit code is shifted out (R611). -/
def execIdcode (st : State) : Out1 :=
  .next (if st.car.entryUp then (st.jtag 1 0).emit (.jtag 1 0x10084B4F) else st)

/-- SAMPLE_PRELOAD: the pins' levels are captured and the cells loaded, while the pins keep their function. -/
def execSamplePreload (dr pins : Nat) (st : State) : Out1 :=
  .next (if st.car.entryUp then
      ({ st with car := { st.car with boundary := dr } }.jtag 2 0).emit (.jtag 2 pins) else st)

/-- HIGHZ: in test mode the pins go to high impedance. -/
def execHighz (st : State) : Out1 := .next (st.jtagDrive 3 2 none)

/-- CLAMP: in test mode the boundary cells drive the pins, with the bypass register selected. -/
def execClamp (st : State) : Out1 := .next (st.jtagDrive 4 1 none)

/-- EXTEST_PULSE of IEEE 1149.6. -/
def execExtestPulse (dr : Nat) (st : State) : Out1 := .next (st.jtagDrive 5 1 (some dr))

/-- EXTEST_TRAIN of IEEE 1149.6. -/
def execExtestTrain (dr : Nat) (st : State) : Out1 := .next (st.jtagDrive 6 1 (some dr))

/-- BYPASS. -/
def execBypass (st : State) : Out1 := .next (if st.car.entryUp then st.jtag 0xFF 0 else st)

/-! ## SMBus target (R608, R609) -/

/-- Answer an SMBus read; the target has power while the entry is up. -/
def State.smbAnswer (st : State) (bytes : List Byte) : State := if st.car.entryUp then st.emit (.smbus bytes) else st

/-- AXB_REVISION as the management controller gives it: bits [23:0] are 0 before the bursar starts. -/
def State.smbRevision (st : State) : Nat := if st.brs.running then st.rn Reg.AXB_REVISION else st.car.fuses.step * 2 ^ 24

/-- SMB_IDENT. -/
def execSmbIdent (st : State) : Out1 := .next (st.smbAnswer (leBytes 4 Config.ident ++ leBytes 4 st.smbRevision))

/-- SMB_ENTRY. -/
def execSmbEntry (st : State) : Out1 := .next (st.smbAnswer (leBytes 8 (st.rn Reg.PWR_ENTRY_SENSE)))

/-- The hottest FULL field with its junction temperature, the lowest-numbered one of equals. -/
def State.hottest (st : State) : Option (Nat × Int) :=
  (Config.sites.filter st.isFull).foldl (fun (a : Option (Nat × Int)) fn =>
    let t := sext 16 (st.rf (Reg.FLD_RAIL_SENSE fn) 47 32)
    match a with
    | none => some (fn, t)
    | some x => if x.2 < t then some (fn, t) else some x) none

/-- SMB_STATUS. -/
def execSmbStatus (st : State) : Out1 :=
  let b (c : Bool) (k : Nat) : Nat := if c then 2 ^ k else 0
  let flags := b (st.rb Reg.HST_READY 0) 0 + b (st.rb Reg.AXB_STAT_CTL 0) 1 + b st.car.statTherm 2 + b st.brs.recovery 3 +
    b st.brs.testMode 4
  .next (st.smbAnswer (leBytes 1 flags ++ leBytes 1 (st.rf Reg.AXB_RESET_STATUS 7 0) ++
    leBytes 1 (st.rf Reg.AXB_CFG_STATUS 3 0) ++ leBytes 1 ((st.hottest.map (·.1)).getD 0xFF)))

/-- SMB_TEMP. -/
def execSmbTemp (st : State) : Out1 :=
  .next (st.smbAnswer (leBytes 2 ((st.hottest.map (fun x => twos 16 x.2)).getD 0x8000)))

/-- REG_OFFSET. -/
def execRegOffset (off : Nat) (st : State) : Out1 :=
  .next (if st.car.entryUp then { st with car := { st.car with regOffset := off % 2 ^ 32 } } else st)

/-- The five bytes of a REG_READ at an offset: 2 for an invalid offset, 1 while the bursar does not run, else the 32-bit word
with no side effect (R608, R609). -/
def State.regReadBytes (st : State) (off : Nat) : List Byte :=
  if off % 4 ≠ 0 || 0xFFFFFC < off then 2 :: List.replicate 4 0xFF
  else if !st.brs.running then 1 :: List.replicate 4 0xFF
  else 0 :: leBytes 4 ((st.word32 off).getD 0xFFFFFFFF)

/-- REG_READ: REG_OFFSET then advances by 4. Where the word shows a free value, a new one is drawn for the next read. -/
def execRegRead (st : State) : Out1 :=
  let off := st.car.regOffset
  .next (if st.car.entryUp then
      let st := st.smbAnswer (st.regReadBytes off)
      { st with car := { st.car with regOffset := (off + 4) % 2 ^ 32 },
                fresh := if drawsAtRead off then st.fresh + 1 else st.fresh }
    else st)

/-- SMB_ALERT_N is released until FAULT_LATCH is next set. -/
def State.alertRelease (st : State) : State := State.pins { st with car := { st.car with alertAck := true } }

/-- ALERT_ACK. -/
def execAlertAck (st : State) : Out1 := .next (if st.car.entryUp then st.alertRelease else st)

/-- ALERT_RESPONSE: a read of the Alert Response Address returns this module's address while it drives SMB_ALERT_N low, and
releases the pin (R609). -/
def execAlertResponse (st : State) : Out1 :=
  .next (if st.car.entryUp && st.car.alertLow then
      (st.smbAnswer [BitVec.ofNat 8 (0x4C + st.rf Reg.AXB_STRAPS 1 0)]).alertRelease else st)

/-! ## PMBus (R610) -/

/-- PMBUS_POLL: 10 ms after the last one, the bursar reads the status of an enabled regulator. A fault, or the third poll in a
row without an answer, is a regulator fault: the field is handled under R102 and retired with cause 2. The regulator of a failed
or retired field is only read. -/
def execPmbusPoll (fn : Nat) (answered fault : Bool) (st : State) : Out1 :=
  .next (if !st.brs.running || !Config.sitePresent fn then st
    else if !st.usable fn then st.emit (.pmbus fn 0x79)
    else if !st.car.regulator.contains fn then st
    else
      let st := (st.until (tget 0 st.car.pmbusAt fn + 10000000)).emit (.pmbus fn 0x79)
      let n := if answered then 0 else tget 0 st.car.pmbusMiss fn + 1
      let bad := fault || decide (3 ≤ n)
      let st := { st with car := { st.car with
        pmbusAt := tput 0 st.car.pmbusAt fn st.now, pmbusMiss := tput 0 st.car.pmbusMiss fn (if bad then 0 else n) } }
      if bad then st.upFailure fn 2 else st)

/-! ## User GPIO (R615) -/

/-- A write of AXB_GPIO: OE and OUT take effect together at the pins. -/
def State.gpioSet (st : State) (value : Nat) : State :=
  let st := st.wf Reg.AXB_GPIO 15 0 (nbits value 15 0)
  { st with car := { st.car with gpioOut := nbits value 7 0, gpioOe := nbits value 15 8 } }

/-- Why a write of the module's own registers is not performed: PF0 writes them (R424), and the bursar, which is their unit. -/
def State.moduleWriteReason (st : State) (who : Who) : Option Nat :=
  match st.moduleReason who with
  | some r => some r
  | none => if who == .pf0 || who == .bursar then none else some 3

/-- GPIO_WRITE. -/
def execGpioWrite (who : Who) (value : Nat) (st : State) : Out1 :=
  .next (match st.moduleWriteReason who with
    | some r => st.accErr who r true Reg.AXB_GPIO
    | none => st.gpioSet value)

end Sys2Proof.Machine
end

