-- ==== Sys2Proof/Machine/QueueCmd.lean ====
section
/-! DEFINITION. The host's writes of queue, context and event registers (R490, R491, R503, R504, R508, R511, R512). -/

namespace Sys2Proof.Machine

/-! ## Who may write (R490, R519) -/

/-- Why a party's write to the QUE_ registers of partition `p` (16 for PF0's own) is not performed, if it is not: PF0 and the
partition's VF may write them. -/
def State.queReason (st : State) (who : Who) (p : Nat) : Option Nat :=
  if st.brs.recovery then some 9
  else match who with
  | .pf0 => none
  | .vf n => if p < 16 && n = p + 1 then (if (st.part p).defined then none else some 5) else if p < 16 then some 5 else some 9
  | _ => some 3

/-- The partition whose registers a queue or context key belongs to. -/
def keyPart (per key : Nat) : Nat := if 4096 ≤ key then 16 else key / per

/-- Perform a write to a register of a queue: the party's check, then the queue's existence (R490). -/
def State.qWrite (st : State) (who : Who) (key off : Nat) (f : State → State) : State :=
  match st.queReason who (keyPart 256 key) with
  | some r => st.accErr who r true off
  | none => if st.qExists key then f st else st.accErr who 9 true off

/-- Whether a context exists (R490). -/
def State.ctxExists (st : State) (c : Nat) : Bool :=
  if 4096 ≤ c then decide (c < 4112) else (st.part (c / 64)).defined && decide (c % 64 < (st.part (c / 64)).contexts)

/-- Perform a write to a register of a context or of a management queue's completion ring. -/
def State.ctxWrite (st : State) (who : Who) (c off : Nat) (f : State → State) : State :=
  match st.queReason who (keyPart 64 c) with
  | some r => st.accErr who r true off
  | none => if st.ctxExists c then f st else st.accErr who 9 true off

/-! ## Queues (R491, R508) -/

/-- Whether a partition's context is enabled. -/
def State.ctxOn (st : State) (p c : Nat) : Bool :=
  decide (c < (st.part p).contexts) && st.rb (Reg.QUE_CTX_CFG p c) 31

/-- A write that breaks the context rule is dropped and marked at the context it names (R491). -/
def State.ctxRefused (st : State) (p c : Nat) : State :=
  if c < (st.part p).contexts then st.setb (Reg.QUE_CTX_STATE p c) 31 else st

/-- A write of QUE_Q_CFG or QUE_M_CFG: ENABLE, CONTEXT and LOG2, and FLUSH (R491, R508). -/
def State.qCfgWrite (st : State) (who : Who) (key value : Nat) : State :=
  st.qWrite who key (qCfg key) (fun st =>
    let p := key / 256
    let c := nbits value 21 16
    if key < 4096 && value.testBit 31 && !st.ctxOn p c then st.ctxRefused p c
    else
      let r := qCfg key
      let st := (st.wf r 31 31 (nbits value 31 31)).wf r 4 0 (nbits value 4 0)
      let st := if key < 4096 then st.wf r 21 16 c else st
      let st := if value.testBit 30 then st.flushQueue key else st
      (st.pump key 64).headWait key)

/-- A flush of a queue by the host (R508). -/
def State.qFlushWrite (st : State) (who : Who) (key : Nat) : State :=
  st.qWrite who key (qCfg key) (fun st => st.flushQueue key)

/-- QUEUE_FLUSH: a write of QUE_Q_CFG.FLUSH that leaves the other fields as they are (R508). -/
def execQueueFlush (who : Who) (queue : Nat) (st : State) : Out1 :=
  .next (if queue < 4112 then st.qFlushWrite who queue else st)

/-! ## Contexts (R491, R503, R504) -/

/-- A write of QUE_CTX_CFG: ENABLE, LOG2, VECTOR and STOP, and RESUME (R491, R504). Records that wait for a context that is
disabled are discarded (R519). -/
def State.ctxCfgWrite (st : State) (who : Who) (p c value : Nat) : State :=
  let r := Reg.QUE_CTX_CFG p c
  let s := Reg.QUE_CTX_STATE p c
  st.ctxWrite who (p * 64 + c) r (fun st =>
    let used := (List.range (st.part p).queues).any (fun q =>
      st.rb (Reg.QUE_Q_CFG p q) 31 && st.rf (Reg.QUE_Q_CFG p q) 21 16 = c)
    if !value.testBit 31 && used then st.ctxRefused p c
    else
      let st := (((st.wf r 31 31 (nbits value 31 31)).wf r 20 16 (nbits value 20 16)).wf r 11 8 (nbits value 11 8)).wf r 0 0
        (nbits value 0 0)
      if value.testBit 31 then
        let old := st.rf s 1 0
        st.wf s 1 0 (if old = 0 || value.testBit 30 then 1 else old)
      else (st.wf s 1 0 0).dropWaiting (p * 64 + c))

/-- A write of QUE_M_CQ_CFG (R509). -/
def State.mcqCfgWrite (st : State) (who : Who) (m value : Nat) : State :=
  let r := Reg.QUE_M_CQ_CFG m
  st.ctxWrite who (4096 + m) r (fun st =>
    let st := ((st.wf r 31 31 (nbits value 31 31)).wf r 21 16 (nbits value 21 16)).wf r 4 0 (nbits value 4 0)
    if value.testBit 31 then st else st.dropWaiting (4096 + m))

/-- A write at flat offset `off` of a register that enables queues, contexts or management rings; one of any other register
changes nothing. -/
def State.enableWrite (st : State) (who : Who) (off value : Nat) : State :=
  let b := off - 0x100000
  let p := b / 0x10000
  let o := b % 0x10000
  if off < 0x100000 || 0x210000 ≤ off then st
  else if p = 0 then
    if o < 0x400 && o % 64 = 8 then st.qCfgWrite who (4096 + o / 64) value
    else if o < 0x400 && o % 64 = 0x28 then st.mcqCfgWrite who (o / 64) value
    else st
  else if o < 0x2000 && o % 32 = 8 then st.qCfgWrite who ((p - 1) * 256 + o / 32) value
  else if 0x2000 ≤ o && o < 0x3000 && o % 64 = 8 then st.ctxCfgWrite who (p - 1) ((o - 0x2000) / 64) value
  else st

/-- QUEUE_ENABLE: a write of a configuration register of a queue, a context or a management ring, at an offset of the party's
register space (R491). -/
def execQueueEnable (who : Who) (off value : Nat) (st : State) : Out1 :=
  let x := st.resolve who off
  .next (match x.2 with
    | some r => st.accErrAt who r true 0 0 off
    | none => st.enableWrite who x.1 value)

/-- A write of QUE_CTX_CFG.RESUME (R504). -/
def State.ctxResume (st : State) (who : Who) (p c : Nat) : State :=
  st.ctxWrite who (p * 64 + c) (Reg.QUE_CTX_CFG p c) (fun st =>
    let s := Reg.QUE_CTX_STATE p c
    if st.rf s 1 0 = 2 then st.wf s 1 0 1 else st)

/-- CONTEXT_RESUME: the queues of a STOPPED context start items again (R504). -/
def execContextResume (who : Who) (p c : Nat) (st : State) : Out1 :=
  .next (if p < 16 && c < 64 then st.ctxResume who p c else st)

/-- A write of CQ_HEAD: records that waited for space are written (R503). -/
def State.cqHeadWrite (st : State) (who : Who) (c value : Nat) : State :=
  st.ctxWrite who c (cqHead c) (fun st => (st.wf (cqHead c) 31 0 value).drainWaiting c 65536)

/-- CQ_HEAD_WRITE: `ctx` is `p * 64 + c`, or `4096 + m` for management queue m (R503). -/
def execCqHeadWrite (who : Who) (ctx value : Nat) (st : State) : Out1 :=
  .next (if ctx < 1024 || (4096 ≤ ctx && ctx < 4112) then st.cqHeadWrite who ctx value else st)

/-! ## Events (R511, R512) -/

/-- Perform a write to an event register of function `f`. -/
def State.evtWrite (st : State) (who : Who) (f off : Nat) (g : State → State) : State :=
  match st.queReason who (if f = 0 then 16 else f - 1) with
  | some r => st.accErr who r true off
  | none => g st

/-- A write of EVT_HEAD: an EVENTS_LOST record that is owed is written now that there is space (R511). -/
def State.evtHeadWrite (st : State) (who : Who) (f value : Nat) : State :=
  st.evtWrite who f (evtReg f 0x14) (fun st =>
    let st := st.wf (evtReg f 0x14) 31 0 value
    if st.rb (evtReg f 8) 31 then (st.payOwed f).1 else st)

/-- EVENT_HEAD_WRITE (R511). -/
def execEventHeadWrite (who : Who) (func value : Nat) (st : State) : Out1 :=
  .next (if func ≤ 16 then st.evtHeadWrite who func value else st)

/-- The staged routing entry `i` of a function (R512). -/
def State.stagedRoute (st : State) (f i : Nat) : Word :=
  st.rd (if f = 0 then Reg.PF0_QUE_EVT_ROUTE i else Reg.QUE_EVT_ROUTE (f - 1) i)

/-- Whether an entry may be committed: its VECTOR lies within the function's, and no reserved bit is set (R512). -/
def routeEntryOk (f : Nat) (e : Word) : Bool := decide (bitsOf e 37 32 < vectorsOf f) && bitsOf e 62 40 = 0

/-- Whether two valid entries share a class and an FN (R512); an entry with FN_FIRST 0xFF matches only records with FN
0xFF, and no other entry matches those. -/
def routeMeet (a b : Word) : Bool :=
  let none_ (e : Word) : Bool := bitsOf e 23 16 = 0xFF
  a.getLsbD 63 && b.getLsbD 63 &&
    decide (max (bitsOf a 7 0) (bitsOf b 7 0) ≤ min (bitsOf a 15 8) (bitsOf b 15 8)) &&
    (if none_ a || none_ b then none_ a && none_ b
     else decide (max (bitsOf a 23 16) (bitsOf b 23 16) ≤ min 0xFE (min (bitsOf a 31 24) (bitsOf b 31 24))))

/-- A write of QUE_EVT_CTL.COMMIT: the staged table is checked as a whole and installed, or refused (R512). -/
def State.evtCommit (st : State) (who : Who) (f : Nat) : State :=
  let r := evtReg f 8
  st.evtWrite who f r (fun st =>
    let n := routesOf f
    let es := (List.range n).map (fun i => (i, st.stagedRoute f i))
    if !es.all (fun e => routeEntryOk f e.2) then st.setb r 29
    else
      let clash := es.any (fun a => es.any (fun b => a.1 < b.1 && routeMeet a.2 b.2))
      let t := es.foldl (fun t e => tput 0 t (f * 64 + e.1) e.2) st.host.evtRoute
      let st := { st with host := { st.host with evtRoute := t } }
      if clash then st.setb r 28 else st)

/-- EVENT_ROUTE_COMMIT (R512). -/
def execEventRouteCommit (who : Who) (func : Nat) (st : State) : Out1 :=
  .next (if func ≤ 16 then st.evtCommit who func else st)

end Sys2Proof.Machine
end

