-- ==== Sys2Proof/Machine/Sensor.lean ====
section
/-! DEFINITION. Sensor ports (chapter 22): frames (R547-R550), input records (R552-R557), output routes, gain and zero
crossing (R559-R561), start, stop, flush and clock loss (R562-R567). Choices where the spec is silent: log 30. -/

namespace Sys2Proof.Machine

/-! ## Layout and samples (R547, R548, R554, R555, R560) -/

def snpDw (w : Word) : Nat := widthCode (bitsOf w 12 11)
def snpSw (w : Word) : Nat := widthCode (bitsOf w 10 9)
def snpSlots (w : Word) : Nat := bitsOf w 17 13 + 1
def snpBclk (w : Word) : Nat := bitsOf w 31 20

def State.snpCfg (st : State) (n : Nat) : Word := st.rd (snpReg Reg.SNP_CFG n)

/-- ZC_TIMEOUT in ns. -/
def snpZcNs (w : Word) : Nat := bitsOf w 63 48 * 10000

/-- Record a refusal in SNP_STATUS.ERR. -/
def State.snpErr (st : State) (n code : Nat) : State := st.wf (snpReg Reg.SNP_STATUS n) 14 7 code

/-- Saturate to `w` bits. -/
def satI (w : Nat) (z : Int) : Int := clampI (-(2 ^ (w - 1))) (2 ^ (w - 1) - 1) z

/-- The bytes of an input sample `s` of DW bits (R554). -/
def packSample (dw pack : Nat) (s : Int) : List Byte :=
  match pack with
  | 0 => leBytes 2 (twos 16 (if dw = 16 then s else satI 16 (rnd s (dw - 16 : Nat))))
  | 1 => leBytes 3 (twos 24 (if dw ≤ 24 then s else satI 24 (rnd s 8)))
  | 2 => leBytes 4 (twos 32 s)
  | _ => leBytes 4 (twos 32 (s * 2 ^ (32 - dw)))

/-- The DW-bit sample that a stored value `v` unpacks to (R555). -/
def unpackSample (dw pack : Nat) (v : Int) : Int :=
  match pack with
  | 0 => if dw = 16 then v else v * 2 ^ (dw - 16)
  | 1 => if dw ≤ 24 then satI dw (rnd v (24 - dw : Nat)) else v * 2 ^ 8
  | 2 => satI dw v
  | _ => satI dw (rnd v (32 - dw : Nat))

/-- What a slot emits for sample `x` under a setting (R560). -/
def SnpSet.emit (y : SnpSet) (dw : Nat) (x : Int) : Int := if y.mute then 0 else satI dw (rnd (x * y.gain) 14)

/-! ## Input routes (R552, R553, R557) -/

/-- A route takes a new SNP_IROUTEr value at a record boundary: newly enabled it starts at record 0 with RESTART. -/
def SnpIn.adopt (i : SnpIn) (w : Word) : SnpIn :=
  if w.getLsbD 40 && !i.route.getLsbD 40 then { i with route := w, k := 0, restart := true } else { i with route := w }

/-- The bytes of the record in progress (R552, R553). -/
def SnpIn.record (i : SnpIn) (dw : Nat) : List Byte :=
  let w := i.route
  let flags := (if i.gap then 1 else 0) + (if i.resync then 2 else 0) + (if i.restart then 4 else 0)
  let head := leBytes 8 i.time ++ leBytes 4 i.frame ++ leBytes 1 (routeG w) ++ leBytes 1 (routeC w) ++ leBytes 2 flags
  bytesAt (head ++ i.frames.flatMap (fun f => f.flatMap (packSample dw (bitsOf w 33 32)))) 0 (inBytes w)

/-- Close the record in progress of a route if it holds its G frames, and send what can be sent (R557). -/
def State.snpClose (st : State) (n r : Nat) : State :=
  let x := st.snpPort n
  let i := x.inp r
  if i.frames.isEmpty || i.frames.length ≠ routeG i.route then st
  else
    let e : SnpRec := { k := i.k, bytes := i.record (snpDw (st.snpCfg n)) }
    let i := { i with frames := [], k := i.k + 1, gap := false, resync := false, restart := false, closed := i.closed ++ [e] }
    (st.setSnp n (x.setIn r (i.adopt (st.rd (snpReg2 Reg.SNP_IROUTE n r))))).snpPump n r 48

/-- The samples of the frame now beginning enter a route's record; one that meets a full buffer is overrun (R557). No record
begins while the port is STOPPING (R564). -/
def State.snpTake (st : State) (n r : Nat) (data : List Nat) : State :=
  let x := st.snpPort n
  let i := x.inp r
  if 0 < i.skip then st.setSnp n (x.setIn r { i with skip := i.skip - 1 })
  else
    let i := if i.frames.isEmpty then i.adopt (st.rd (snpReg2 Reg.SNP_IROUTE n r)) else i
    if !i.route.getLsbD 40 || (i.frames.isEmpty && st.snpState n = 3) then st.setSnp n (x.setIn r i)
    else if i.frames.isEmpty && 8 ≤ i.closed.length then
      let st := st.setSnp n (x.setIn r { i with gap := true, wasOver := true })
      let st := (st.addSat (snpReg Reg.SNP_OVERRUN n) (32 * r + 31) (32 * r) 1).setb (snpReg Reg.SNP_EVENT n) 3
      if i.wasOver then st else st.snpNotice n 0x32 (1 + 256 * r)
    else
      let dw := snpDw (st.snpCfg n)
      let f := (maskSlots (bitsOf i.route 31 0)).map (fun s => sext dw (data.getD s 0))
      let i := if i.frames.isEmpty then { i with frames := [f], time := st.now, frame := x.frameNo, wasOver := false }
        else { i with frames := i.frames ++ [f] }
      st.setSnp n (x.setIn r i)

/-- A frame error on input: the frame is lost, and with it the record it belongs to, whose frames are consecutive (R550,
R557). -/
def State.snpLoseFrame (st : State) (n : Nat) : State :=
  let x := st.snpPort n
  st.setSnp n ((List.range 2).foldl (fun (x : SnpSt) r =>
    let i := x.inp r
    if i.route.getLsbD 40 then x.setIn r { i with frames := [], gap := true } else x) x)

/-! ## Output routes (R559) -/

/-- What an output route plays in a frame: nothing, what UNDERRUN gives, or the frame's samples from an address on. -/
inductive Play where
  | silent
  | underrun
  | play (addr : Nat)
deriving DecidableEq, Repr

/-- The frame `d` frames after a route's first one: a finished record returns its units, a record that came less than 2 BCLK
periods before its due frame is late, and a missing one is an underrun (R559). -/
def State.snpPlayAt (st : State) (n r d edges ns : Nat) : State × Play :=
  let w := st.rd (snpReg2 Reg.SNP_OROUTE n r)
  let g := routeG w
  let rb := outBytes w
  let o := (st.snpPort n).outp r
  let j := o.base + d / g
  let start := d % g = 0
  let done := start && decide (0 < d) && o.present.any (fun e => e.1 + 1 = j)
  let o := { o with present := o.present.filter (fun e => !(start && decide (e.1 < j))),
                    mask := if start then bitsOf w 31 0 else o.mask }
  let st := st.setSnp n ((st.snpPort n).setOut r o)
  let st := if done then st.snpReturn n r (rb / 64) else st
  let late := start && o.present.any (fun e => e.1 = j && decide ((st.now - e.2) * edges < 2 * ns))
  let st := if late then
      (st.setSnp n ((st.snpPort n).setOut r { o with present := o.present.filter (fun e => e.1 ≠ j) })).snpLate n r (rb / 64)
    else st
  let x := st.snpPort n
  let o := x.outp r
  if o.present.any (fun e => e.1 = j) then
    let c := (maskSlots o.mask).length
    (st.setSnp n (x.setOut r { o with wasUnder := false }),
      .play (snpBuf n r + j % max 1 (routeN w) * rb + d % g * (c * routeB w)))
  else
    let st := st.setSnp n (x.setOut r { o with wasUnder := true })
    let st := (st.addSat (snpReg Reg.SNP_UNDERRUN n) (32 * r + 31) (32 * r) 1).setb (snpReg Reg.SNP_EVENT n) 4
    (if o.wasUnder then st else st.snpNotice n 0x32 (2 + 256 * r), .underrun)

/-- What output route `r` plays in the frame that begins: its first record starts in the (LAG + 1)-th frame whose edge 0
follows its arrival (R559); until then it follows UNDERRUN, with no last sample after a START and that of the slot after a FLUSH
(R566). -/
def State.snpPlay (st : State) (n r edges ns : Nat) : State × Play :=
  let w := st.rd (snpReg2 Reg.SNP_OROUTE n r)
  let x := st.snpPort n
  let o := x.outp r
  if !w.getLsbD 40 || routeN w = 0 || st.snpState n = 1 then (st, .silent)
  else match o.first with
    | some f => st.snpPlayAt n r (x.frameNo - f) edges ns
    | none =>
      match o.present with
      | [] => (st, .underrun)
      | e :: _ =>
        let c := o.came.getD 0 + 1
        let o := { o with base := e.1, came := some c }
        if routeLag w + 1 ≤ c then
          (st.setSnp n (x.setOut r { o with first := some x.frameNo })).snpPlayAt n r 0 edges ns
        else (st.setSnp n (x.setOut r o), .underrun)

/-- The sample of slot `s` under a route that plays as `p`, and whether it is a sample of a record. -/
def State.snpSample (st : State) (n r s : Nat) (p : Play) : Int × Bool :=
  let w := st.rd (snpReg2 Reg.SNP_OROUTE n r)
  let hold := ((st.snpPort n).slot s).hold
  match p with
  | .silent => (0, false)
  | .underrun => (if w.getLsbD 41 then hold else 0, false)
  | .play a =>
    let l := maskSlots ((st.snpPort n).outp r).mask
    if l.contains s then
      let b := routeB w
      (unpackSample (snpDw (st.snpCfg n)) (bitsOf w 33 32) (sext (8 * b) (st.loadN (a + l.findIdx (· = s) * b) b)), true)
    else (hold, false)

/-- Slot `s` emits its sample of the frame that begins; a pending setting applies at its zero crossing (R561). `zero` is a
frame in which SDOUT drives zero. -/
def State.snpEmit (st : State) (n s : Nat) (plays : List Play) (zero : Bool) : State :=
  let dw := snpDw (st.snpCfg n)
  let sample (y : SnpSet) : Int × Bool := if y.src < 2 then st.snpSample n y.src s (plays.getD y.src .silent) else (0, false)
  let y := (st.snpPort n).slot s
  let v := y.cur.emit dw (sample y.cur).1
  let cross := y.pend.isSome && (v = 0 || y.last = 0 || decide (v < 0) != decide (y.last < 0))
  let st := if cross then st.snpApply n s else st
  let x := st.snpPort n
  let y := x.slot s
  let f := sample y.cur
  let e := if zero then 0 else y.cur.emit dw f.1
  st.setSnp n (x.setSlot s { y with last := e, hold := if f.2 then f.1 else y.hold })

/-- The frame that begins on SDOUT (R546, R559, R561). -/
def State.snpOutput (st : State) (n edges ns : Nat) (zero : Bool) : State :=
  let c := st.snpCfg n
  let a := st.snpPlay n 0 edges ns
  let b := a.1.snpPlay n 1 edges ns
  let st := (List.range 32).foldl (fun (st : State) s => st.snpEmit n s [a.2, b.2] zero) b.1
  let out (s : Nat) : Option Int :=
    let y := (st.snpPort n).slot s
    if 2 ≤ y.cur.src && c.getLsbD 18 then none else some y.last
  st.emit (.snpFrame n ((List.range (snpSlots c)).map out))

/-- A STOPPING port whose outputs have settled and whose input records have closed enters STOPPED (R564, R567). -/
def State.snpStopOn (st : State) (n : Nat) : State :=
  let x := st.snpPort n
  if st.snpState n = 3 && x.busySlots.isEmpty && (List.range 32).all (fun s => (x.slot s).pend.isNone) &&
      (x.inp 0).frames.isEmpty && (x.inp 1).frames.isEmpty then
    let p := st.snpOwner n
    (st.snpStopped n).when (decide (p < 16)) (fun st => st.fallOn p)
  else st

/-- Clock loss (R565); a port that was STOPPING has stopped, and its partition's take-down may go on. `live` tells whether an
edge 0 has been seen since. -/
def State.snpLoseClock (st : State) (n cause : Nat) (live : Bool) : State :=
  let p := st.snpOwner n
  let st := st.snpLost n cause
  if st.snpState n = 0 then st.when (decide (p < 16)) (fun st => st.fallOn p)
  else st.setSnp n { st.snpPort n with live := live }

/-! ## Frames (R549-R551, R563) -/

/-- The frame that begins at this edge 0: pre-roll counts, the frame count advances, samples move. `ended` tells whether a
good frame has just ended (R563 steps 3 and 4). -/
def State.snpBegin (st : State) (n : Nat) (ended zero : Bool) (data : List Nat) (edges ns : Nat) : State :=
  let c := snpReg Reg.SNP_STATUS n
  let left := st.rf c 23 15
  let st := if st.snpState n = 1 && ended then st.wf c 23 15 (left - 1) else st
  let st :=
    if st.snpState n = 1 then
      if ended && left ≤ 1 then
        let x := st.snpPort n
        (st.setSnp n { x with frameNo := if x.fresh then 0 else x.frameNo + 1, fresh := false }).snpEnter n 2
      else st
    else
      let x := st.snpPort n
      (st.setSnp n { x with frameNo := x.frameNo + 1 }).addSat (snpReg Reg.SNP_FRAMES n) 63 0 1
  let st := if st.snpState n = 1 then st else (st.snpTake n 0 data).snpTake n 1 data
  (st.snpOutput n edges ns (zero || st.snpState n = 1)).snpStopOn n

/-- A frame of the wrong length (R550): counted, its input discarded; the fourth in a row is a clock loss. -/
def State.snpBadFrame (st : State) (n : Nat) (data : List Nat) (edges ns : Nat) : State :=
  let x := st.snpPort n
  let first := !x.wasErr
  let st := st.setSnp n { x with bad := x.bad + 1, wasErr := true }
  let st := (st.addSat (snpReg Reg.SNP_FRAME_ERR n) 63 0 1).setb (snpReg Reg.SNP_EVENT n) 6
  let st := if first then st.snpNotice n 0x32 4 else st
  if 4 ≤ x.bad + 1 then st.snpLoseClock n 4 true
  else
    let st := st.snpLoseFrame n
    let st := if st.snpState n = 1 then st.wf (snpReg Reg.SNP_STATUS n) 23 15 (bitsOf (st.snpCfg n) 40 32) else st
    st.snpBegin n false true data edges ns

/-- The frame that has just ended with `edges` sampling edges in `ns` is checked (R550, R551, R565). -/
def State.snpCheck (st : State) (n edges ns : Nat) (data : List Nat) : State :=
  let cfg := st.snpCfg n
  let c := snpReg Reg.SNP_STATUS n
  let st := st.wf c 47 32 edges
  let rate := decide (52 * ns < 1000 * edges)
  if st.snpState n = 4 then
    if edges = snpBclk cfg && !rate then
      let st := (st.snpEnter n 1).wf c 23 15 (bitsOf cfg 40 32)
      let st := (st.setb (snpReg Reg.SNP_EVENT n) 1).snpNotice n 0x30 (1 + 256 * st.rf c 5 3)
      st.snpBegin n false false data edges ns
    else st
  else if rate then st.snpLoseClock n 3 true
  else if 2 * snpBclk cfg ≤ edges then st.snpLoseClock n 2 true
  else if edges = snpBclk cfg then
    let st := st.setSnp n { st.snpPort n with bad := 0, wasErr := false }
    ((st.snpClose n 0).snpClose n 1).snpBegin n true false data edges ns
  else st.snpBadFrame n data edges ns

/-- SNP_FRAME: edge 0 of a frame, `edges` sampling edges and `ns` of wafer time after the previous one: that frame is checked,
the new one stamped, and its samples move (R549, R550). `data` are the codes on SDIN by slot. -/
def execSnpFrame (port edges : Nat) (data : List Nat) (ns : Nat) (st : State) : Out1 :=
  .next (st.when (decide (port < 8) && st.isFull (Config.snpField port) && st.snpState port ≠ 0) (fun st =>
    let x := st.snpPort port
    let st := if x.live then st.until (x.edgeAt + ns) else st
    let st := st.wn (snpReg Reg.SNP_LAST_FSYNC port) st.now
    let st := st.setSnp port { st.snpPort port with live := true, edgeAt := st.now, cur := data.map (sext (snpDw (st.snpCfg port))) }
    if x.live then st.snpCheck port edges ns data
    else if st.snpState port = 4 then st
    else st.snpBegin port false false data (snpBclk (st.snpCfg port)) ns))

/-- SNP_RECORD_CLOSE: the last data bit of the last masked slot of a record's G-th frame has been sampled (R557). -/
def execSnpRecordClose (port r : Nat) (st : State) : Out1 :=
  .next (st.when (decide (port < 8 ∧ r < 2)) (fun st => (st.snpClose port r).snpStopOn port))

/-! ## Start, stop, flush (R562-R566) -/

/-- Output record ring of a route, in bytes. -/
def ringBytes (w : Word) : Nat := routeN w * outBytes w

/-- Why a START is refused, by the first check that fails (R562). -/
def State.snpStartErr (st : State) (n : Nat) : Option Nat :=
  let p := st.snpOwner n
  let c := st.snpCfg n
  let inr (r : Nat) : Word := st.rd (snpReg2 Reg.SNP_IROUTE n r)
  let outr (r : Nat) : Word := st.rd (snpReg2 Reg.SNP_OROUTE n r)
  let on (w : Word) : Bool := w.getLsbD 40
  let used := ([inr 0, inr 1, outr 0, outr 1].filter on).map (fun w => bitsOf w 31 0)
  let held := st.leases.any (fun e => e.2.kind = 5 && e.2.resource = n && e.2.state = 1 && e.2.hkind = 3 && e.2.holder = p)
  let badIn (r : Nat) : Bool :=
    let g := st.grantOf (snpHolder n r) 0
    let rb := inBytes (inr r)
    on (inr r) && (g.state ≠ 1 || g.size % rb ≠ 0 || decide (g.size < 2 * rb))
  let badOut (r : Nat) : Bool :=
    let h := st.rn (snpReg2 Reg.SNP_OHOLDER n r)
    let hf := nbits h 15 8
    let hs := nbits h 7 0
    on (outr r) && (decide (32768 < ringBytes (outr r)) || decide (routeN (outr r) < 2) || st.owner hf ≠ p || 4 ≤ hs ||
      !st.present hf hs)
  if 16 ≤ p || !held || st.partState p ≠ 2 then some 1
  else if snpSw c < snpDw c || snpBclk c < bitsOf c 5 0 + bitsOf c 6 6 + snpSlots c * snpSw c then some 2
  else if bitsOf c 40 32 < 4 || 256 < bitsOf c 40 32 then some 3
  else if used.any (fun m => m = 0 || decide (2 ^ snpSlots c ≤ m)) then some 4
  else if on (outr 0) && on (outr 1) && bitsOf (outr 0) 31 0 &&& bitsOf (outr 1) 31 0 ≠ 0 then some 5
  else if badIn 0 || badIn 1 then some 6
  else if badOut 0 || badOut 1 then some 7
  else none

/-- The counters of a port count from its last START. -/
def State.snpZero (st : State) (n : Nat) : State :=
  st.clearRegs (snpReg Reg.SNP_FRAMES n) (snpReg Reg.SNP_ZC_TIMEOUTS n + 8)

/-- A write of SNP_CTL.START (R562, R563): PREROLL, output windows opened with MODE OWNER, and every slot of an output route
changes to it. -/
def State.snpStart (st : State) (n : Nat) : State :=
  if st.snpState n ≠ 0 then st
  else match st.snpStartErr n with
  | some e => st.snpErr n e
  | none =>
    let fn := Config.snpField n
    let x := st.snpPort n
    let x := (List.range 2).foldl (fun (x : SnpSt) r => x.setIn r { x.inp r with restart := true }) x
    let st := (st.snpZero n).setSnp n { x with fresh := true, live := false, bad := 0, wasErr := false, mute := false, outs := [] }
    let st := (st.snpEnter n 1).wf (snpReg Reg.SNP_STATUS n) 23 15 (bitsOf (st.snpCfg n) 40 32)
    (List.range 2).foldl (fun (st : State) r =>
      let w := st.rd (snpReg2 Reg.SNP_OROUTE n r)
      if !w.getLsbD 40 then st
      else
        let h := st.rn (snpReg2 Reg.SNP_OHOLDER n r)
        let st := (st.openWindow fn (snpSlot n r) (snpWin n r) (snpBuf n r) (ringBytes w) (ringBytes w / 64) 1 1
          (nbits h 15 8 * 256 + nbits h 7 0) 0).1
        let st := st.setSnp n ((st.snpPort n).setOut r { (st.snpPort n).outp r with win := true })
        (maskSlots (bitsOf w 31 0)).foldl (fun (st : State) s => st.snpChange n s (fun y => { y with src := r })) st) st

/-- A write of SNP_CTL.STOP (R564). -/
def State.snpStop (st : State) (n : Nat) : State :=
  match st.snpState n with
  | 1 => st.snpStopped n
  | 2 => ((st.snpMute n).snpEnter n 3)
  | _ => st

/-- A write of SNP_CTL.FLUSH (R566): both input routes are flushed and every queued output record is discarded. -/
def State.snpFlush (st : State) (n : Nat) : State := (st.snpFlushIn n).snpDropOut n

/-- A write of SNP_CTL: the named bit, if its writer may (R562). -/
def State.snpCtl (st : State) (who : Who) (n : Nat) (f : State → State) : State :=
  let fn := Config.snpField n
  st.fieldWrite who fn (snpReg Reg.SNP_CTL n) (st.hostOf who fn) f

/-- SNP_START (R562, R563). -/
def execSnpStart (who : Who) (port : Nat) (st : State) : Out1 :=
  .next (st.when (decide (port < 8)) (fun st => st.snpCtl who port (fun st => st.snpStart port)))

/-- SNP_STOP (R564). -/
def execSnpStop (who : Who) (port : Nat) (st : State) : Out1 :=
  .next (st.when (decide (port < 8)) (fun st => st.snpCtl who port (fun st => st.snpStop port)))

/-- SNP_FLUSH (R566). -/
def execSnpFlush (who : Who) (port : Nat) (st : State) : Out1 :=
  .next (st.when (decide (port < 8)) (fun st => st.snpCtl who port (fun st => st.snpFlush port)))

/-- SNP_CLOCK_LOSS: no BCLK edge for 2 µs (cause 1), or 2 × FRAME_BCLK edges without FSYNC (cause 2) (R565). The other two causes
belong to a frame. -/
def execSnpClockLoss (port cause : Nat) (st : State) : Out1 :=
  .next (st.when (decide (port < 8) && (cause = 1 || cause = 2)) (fun st =>
    let x := st.snpState port
    if x = 0 || x = 4 then st
    else
      let st := if cause = 1 then st.until (st.now + 2000) else st
      st.snpLoseClock port cause false))

/-- SNP_ZC_TIMEOUT: a setting that found no crossing within ZC_TIMEOUT applies from the next frame (R561). -/
def execSnpZcTimeout (port slot : Nat) (st : State) : Out1 :=
  .next (st.when (decide (port < 8)) (fun st =>
    match ((st.snpPort port).slot slot).pend with
    | none => st
    | some e =>
      let st := st.until (e.2 + snpZcNs (st.snpCfg port))
      let st := (st.snpApply port slot).addSat (snpReg Reg.SNP_ZC_TIMEOUTS port) 63 0 1
      ((st.setb (snpReg Reg.SNP_EVENT port) 2).snpNotice port 0x31 (2 ^ slot)).snpStopOn port))

/-! ## Writes of the port's registers -/

/-- A new setting takes effect at once where no frame is emitted: STOPPED and LOST have SDOUT high-impedance. -/
def State.snpAtOnce (st : State) (n s : Nat) : State :=
  if st.snpState n = 0 || st.snpState n = 4 then st.snpApply n s else st

/-- A write of SNP_OGAINs: gain and mute are staged together (R561, R569). -/
def State.snpOgain (st : State) (n s value : Nat) : State :=
  (st.snpChange n s (fun y => { y with gain := nbits value 15 0, mute := nbit value 16 })).snpAtOnce n s

/-- A write of SNP_CFG, allowed in STOPPED only (R562). -/
def State.snpCfgSet (st : State) (n value : Nat) : State :=
  if st.snpState n = 0 then st.wn (snpReg Reg.SNP_CFG n) (value &&& 0xFFFF01FFFFF7FFFF) else st.snpErr n 0x10

/-- A write of SNP_OROUTEr: whole in STOPPED; otherwise MASK only, each slot added or removed being a change, and a write that
would change another field sets ERR 0x10 (R561). -/
def State.snpOroute (st : State) (n r value : Nat) : State :=
  let reg := snpReg2 Reg.SNP_OROUTE n r
  if st.snpState n = 0 then st.wn reg (nbits value 57 0)
  else
    let old := st.rd reg
    let other := decide (bitsOf old 57 32 ≠ nbits value 57 32)
    let st := if other then st.snpErr n 0x10 else st
    let m := bitsOf old 31 0
    let m' := nbits value 31 0
    let st := st.wf reg 31 0 m'
    if !old.getLsbD 40 then st
    else
      let st := (maskSlots m').foldl (fun (st : State) s =>
        if m.testBit s then st else (st.snpChange n s (fun y => { y with src := r })).snpAtOnce n s) st
      (maskSlots m).foldl (fun (st : State) s =>
        if m'.testBit s then st
        else (st.snpChange n s (fun y => if y.src = r then { y with src := 2 } else y)).snpAtOnce n s) st

/-- A write of SNP_IROUTEr takes effect at the route's next record boundary, which is now where no record is in progress. -/
def State.snpIroute (st : State) (n r value : Nat) : State :=
  let st := st.wn (snpReg2 Reg.SNP_IROUTE n r) (nbits value 51 0)
  let x := st.snpPort n
  let i := x.inp r
  if i.frames.isEmpty then st.setSnp n (x.setIn r (i.adopt (BitVec.ofNat 64 (nbits value 51 0)))) else st

/-- SNP_OGAIN_WRITE (R561). -/
def execSnpOgainWrite (who : Who) (port slot value : Nat) (st : State) : Out1 :=
  let fn := Config.snpField port
  .next (st.when (decide (port < 8 ∧ slot < 32)) (fun st =>
    st.fieldWrite who fn (snpReg2 Reg.SNP_OGAIN port slot) (st.hostOf who fn) (fun st => st.snpOgain port slot value)))

/-- SNP_CFG_WRITE (R562). -/
def execSnpCfgWrite (who : Who) (port value : Nat) (st : State) : Out1 :=
  let fn := Config.snpField port
  .next (st.when (decide (port < 8)) (fun st =>
    st.fieldWrite who fn (snpReg Reg.SNP_CFG port) (st.hostOf who fn) (fun st => st.snpCfgSet port value)))

/-- SNP_OROUTE_WRITE (R561). -/
def execSnpOrouteWrite (who : Who) (port r value : Nat) (st : State) : Out1 :=
  let fn := Config.snpField port
  .next (st.when (decide (port < 8 ∧ r < 2)) (fun st =>
    st.fieldWrite who fn (snpReg2 Reg.SNP_OROUTE port r) (st.hostOf who fn) (fun st => st.snpOroute port r value)))

/-- SNP_IROUTE_WRITE (R552). -/
def execSnpIrouteWrite (who : Who) (port r value : Nat) (st : State) : Out1 :=
  let fn := Config.snpField port
  .next (st.when (decide (port < 8 ∧ r < 2)) (fun st =>
    st.fieldWrite who fn (snpReg2 Reg.SNP_IROUTE port r) (st.hostOf who fn) (fun st => st.snpIroute port r value)))

end Sys2Proof.Machine
end

