-- ==== Sys2Proof/Machine/Hub.lean ====
section
/-! DEFINITION. Accesses to the register space at large: sizes and alignment (R14, R619), who may access what (R8, R178, R389,
R416, R421, R426, R432, R440, R451, R490, R520), the access codes (R10-R12), the two words of a 64-bit register (R16), and the
hand-over of a written register that has a behaviour of its own to the operation that gives it. -/

namespace Sys2Proof.Machine

/-! ## Checks before an access -/

/-- Field and window offset of a flat offset in the field windows (R6). -/
def winOf (off : Nat) : Nat × Nat := ((off - 0x1000000) / 0x40000, off % 0x40000)

/-- Whether the KVL_, SNP_ or ISL_ part at window offset `w` is absent: it reads 0 and refuses writes with reason 9 (R416). -/
def State.partAbsent (st : State) (fn w : Nat) : Bool :=
  if 0x34000 ≤ w && w < 0x35000 then decide (8 ≤ Config.kvlPort fn)
  else if 0x36000 ≤ w && w < 0x36800 then !Config.hasSnp fn
  else if 0x28000 ≤ w && w < 0x28100 then !(List.range 4).any (fun s => (st.islCfg fn s).present)
  else if 0x28100 ≤ w && w < 0x28500 then !(st.islCfg fn ((w - 0x28100) / 0x100)).present
  else false

/-- Why an access to a field window is not performed: the field (R8, R421), an offset that no block defines, an empty slot
(R178), an absent unit. -/
def State.windowReason (st : State) (who : Who) (off : Nat) (write : Bool) : Option Nat :=
  let fn := (winOf off).1
  let w := (winOf off).2
  match st.fieldReason who fn with
  | some r => some r
  | none =>
    if (Reg.locate off).isNone then some 9
    else if 0x20000 ≤ w && w < 0x24000 && 0x10 ≤ w % 0x1000 && !st.present fn ((w - 0x20000) / 0x1000) then some 2
    else if 0x30000 ≤ w && w < 0x31000 && !st.present fn ((w - 0x30000) / 0x400) then some 2
    else if write && st.partAbsent fn w then some 9
    else none

/-- Why an access to QUE_ registers is not performed: a queue or context beyond the partition's limits (R490), or a party that
may not write. -/
def State.queAccess (st : State) (who : Who) (off : Nat) (write : Bool) : Option Nat :=
  let b := off - 0x100000
  let p := b / 0x10000
  let o := b % 0x10000
  let out := if p = 0 then decide (0x400 ≤ o ∧ o < 0x1000)
    else if o < 0x2000 then !st.qExists ((p - 1) * 256 + o / 32)
    else if o < 0x3000 then !st.ctxExists ((p - 1) * 64 + (o - 0x2000) / 64)
    else false
  if out then some 9 else if write then st.queReason who (if p = 0 then 16 else p - 1) else none

/-- Why an access at flat offset `off` is not performed, if it is not (R432). In recovery only AXB_IDENT, AXB_REVISION and
AXB_BOOT_STATUS answer (R451). -/
def State.accessReason (st : State) (who : Who) (off : Nat) (write : Bool) : Option Nat :=
  if st.brs.recovery && !(off = Reg.AXB_IDENT || off = Reg.AXB_REVISION || off = Reg.AXB_BOOT_STATUS) then some 9
  else if (st.ledgerAt off).isSome then (if write then some 4 else none)
  else if 0x1000000 ≤ off && off < 0x2900000 then st.windowReason who off write
  else match Reg.locate off with
    | none => some 9
    | some (b, _) => match b with
      | .tly => if write then st.tallyReason who ((off - 0x10000) / 16) else none
      | .que | .queM => st.queAccess who off write
      | _ => if !write then none else match who with
        | .pf0 | .bursar | .vf _ => none
        | _ => some 3

/-! ## Access codes (R10-R12) -/

/-- The value that a register takes from a write by its access codes alone. -/
def Reg.Row.apply (r : Reg.Row) (old v : Word) (rwl : Bool) : Word :=
  let rw : Word := BitVec.ofNat 64 (if rwl then r.rw ||| r.rwl else r.rw)
  ((old &&& ~~~ rw) ||| (v &&& rw)) &&& ~~~ (v &&& BitVec.ofNat 64 r.w1c)

/-- A write by access codes. An RWL field of a field whose ramp tables are committed ignores it, and FLD_CFG_STATUS.IGNORED
counts it (R11). -/
def State.plainWrite (st : State) (off : Nat) (v : Word) : State :=
  match Reg.row? off with
  | none => st
  | some r =>
    if r.rwl = 0 then st.wr off (r.apply (st.rd off) v false)
    else
      let fn := (winOf off).1
      if st.rb (Reg.FLD_RAMP_CTL fn) 31 then st.addSat (Reg.FLD_CFG_STATUS fn) 23 16 1
      else st.wr off (r.apply (st.rd off) v true)

/-- Write field `[hi:lo]` of a register unless the value is out of its range. -/
def State.ranged (st : State) (off hi lo min max n : Nat) : State := if min ≤ n && n ≤ max then st.wf off hi lo n else st

/-- A write permitted only to some parties: reason 3 for another. -/
def State.permit (st : State) (who : Who) (off : Nat) (ok : Bool) (f : State → State) : State :=
  if ok then f st else st.accErr who 3 true off

/-! ## Writes by block -/

/-- A pending message whose vector a write has unmasked is sent (R437). -/
def State.msixRetry (st : State) (f v : Nat) : State :=
  if st.rb (msixPba f) v && st.msixOpen f v then st.msix f v else st

/-- AXB_, PWR_, HST_ and MSI-X registers. -/
def State.writeModule (st : State) (who : Who) (off : Nat) (v : Word) : State :=
  let n := v.toNat
  if off = Reg.AXB_RECOV_CTL then
    let st := if nbit n 31 then st.clrb off 31 else st
    st.ranged off 23 0 20 100000 (nbits n 23 0)
  else if off = Reg.AXB_STAT_CTL then (st.plainWrite off v).pins
  else if off = Reg.AXB_GPIO then st.gpioSet n
  else if 0x2100 ≤ off && off < 0x2200 && off % 16 = 0 then st.partPolicyWrite who ((off - 0x2100) / 16) (nbits n 31 0)
  else if 0x4000 ≤ off && off < 0x4400 then (st.plainWrite off v).msixRetry 0 ((off - 0x4000) / 16)
  else if 0x4000000 ≤ off && 0x3000 ≤ off % 0x100000 && off % 0x100000 < 0x3100 then
    (st.plainWrite off v).msixRetry ((off - 0x4000000) / 0x100000) ((off % 0x100000 - 0x3000) / 16)
  else st.plainWrite off v

/-- EVT_CTL of function `f`: ENABLE and LOG2, the two RW1C bits, and COMMIT (R511, R512). -/
def State.evtCtl (st : State) (who : Who) (f : Nat) (v : Word) : State :=
  let st := st.plainWrite (evtReg f 8) v
  if v.getLsbD 30 then st.evtCommit who f else st

/-- A ring base, writable while its ENABLE (bit 31 of `cfg`) is 0. -/
def State.baseWrite (st : State) (off cfg : Nat) (v : Word) : State := if st.rb cfg 31 then st else st.wr off v

/-- QUE_ registers (chapter 20). -/
def State.writeQue (st : State) (who : Who) (off : Nat) (v : Word) : State :=
  let n := v.toNat
  let b := off - 0x100000
  let p := b / 0x10000
  let o := b % 0x10000
  if p = 0 then
    if o < 0x400 then
      let m := o / 64
      if o % 64 = 0 then st.baseWrite off (Reg.QUE_M_CFG m) v
      else if o % 64 = 0x8 then st.qCfgWrite who (4096 + m) n
      else if o % 64 = 0x20 then st.baseWrite off (Reg.QUE_M_CQ_CFG m) v
      else if o % 64 = 0x28 then st.mcqCfgWrite who m n
      else if o % 64 = 0x30 then st.cqHeadWrite who (4096 + m) n
      else st.plainWrite off v
    else if o = 0x1000 then st.baseWrite off (evtReg 0 8) v
    else if o = 0x1008 then st.evtCtl who 0 v
    else if o = 0x1014 then st.evtHeadWrite who 0 n
    else st.plainWrite off v
  else if o < 0x2000 then
    let q := o / 32
    if o % 32 = 0 then st.baseWrite off (Reg.QUE_Q_CFG (p - 1) q) v
    else if o % 32 = 8 then st.qCfgWrite who ((p - 1) * 256 + q) n
    else st.plainWrite off v
  else if o < 0x3000 then
    let c := (o - 0x2000) / 64
    if o % 64 = 0 then st.baseWrite off (Reg.QUE_CTX_CFG (p - 1) c) v
    else if o % 64 = 8 then st.ctxCfgWrite who (p - 1) c n
    else if o % 64 = 0x14 then st.cqHeadWrite who ((p - 1) * 64 + c) n
    else st.plainWrite off v
  else if o = 0x3000 then st.baseWrite off (evtReg p 8) v
  else if o = 0x3008 then st.evtCtl who p v
  else if o = 0x3014 then st.evtHeadWrite who p n
  else st.plainWrite off v

/-- FLD_ registers of field `fn`, at block offset `o`. -/
def State.writeFld (st : State) (who : Who) (fn o off : Nat) (v : Word) : State :=
  let n := v.toNat
  if o = 0x180 then st.beatmonWrite who fn n
  else if o = 0x210 then st.policyWrite who fn false (nbits n 31 0)
  else if o = 0x218 then st.policyWrite who fn true n
  else if o = 0x250 then st.plimitWrite who fn n
  else if 0x260 ≤ o && o < 0x280 then st.chaffWrite who fn ((o - 0x260) / 8) n
  else if o = 0x408 then (st.wf off 31 31 (nbits n 31 31)).ranged off 9 0 2 1000 (nbits n 9 0)
  else if o = 0x600 then
    st.permit who off (st.hostOf who fn) (fun st =>
      if nbits n 23 16 = 0 || nbits n 11 8 = 0 || nbits n 3 0 = 0 then st else st.plainWrite off v)
  else if o = 0x728 then
    st.permit who off (st.hostOf who fn) (fun st =>
      if st.rf Reg.AXB_REVISION 7 0 = 5 then st else st.ranged off 3 0 1 8 (nbits n 3 0))
  else st.plainWrite off v

/-- GZC_ registers of slot `s`, at block offset `o`. -/
def State.writeGzc (st : State) (who : Who) (fn s o off : Nat) (v : Word) : State :=
  let n := v.toNat
  if o = 0x18 then st.permit who off (Who.tellerOf who fn s) (fun st =>
    if nbit n 0 then st.flushCore fn s else if nbit n 1 then st.resumeCore fn s else st)
  else if 0x80 ≤ o && o < 0xA0 then st.permit who off (Who.tellerOf who fn s) (fun st =>
    if o < 0x98 then st.wr off v
    else st.submit fn s ⟨st.rd (Reg.GZC_CMD_W fn s 0), st.rd (Reg.GZC_CMD_W fn s 1), st.rd (Reg.GZC_CMD_W fn s 2), v⟩)
  else if o = 0x100 then st.permit who off (st.tellerOrOwner who fn s) (fun st =>
    (st.wf off 0 0 (nbits n 0 0)).ranged off 15 8 1 255 (nbits n 15 8))
  else if o = 0x208 then st.permit who off (st.tellerOrOwner who fn s) (fun st =>
    let st := st.wf off 0 0 (nbits n 0 0)
    if nbit n 8 then st.gleanClear fn s else st)
  else if o = 0x218 then st.permit who off (st.tellerOrOwner who fn s) (fun st => st.plainWrite off v)
  else if o = 0x280 then
    st.permit who off (who == .teller fn 3 || (st.tellerOrOwner who fn s && nbits n 10 9 = 0)) (fun st =>
      let st := st.ranged off 8 0 16 256 (nbits n 8 0)
      let st := if nbit n 10 then st.csClear fn s else st
      if nbit n 9 then st.csDiag fn s else st)
  else st.plainWrite off v

/-- KVL_ registers of port `p` (R416). -/
def State.writeKvl (st : State) (who : Who) (p o off : Nat) (v : Word) : State :=
  let n := v.toNat
  st.permit who off (st.kvlReason who p).isNone (fun st =>
    if o = 0 then
      let st := st.ranged off 15 8 1 255 (nbits n 15 8)
      let st := if nbit n 1 then st.kvlReset p else st
      if nbit n 0 then st.kvlEnable p else st.clrb off 0
    else st.plainWrite off v)

/-- SNP_ registers of port `k` (chapter 22). -/
def State.writeSnp (st : State) (who : Who) (fn k o off : Nat) (v : Word) : State :=
  let n := v.toNat
  st.permit who off (st.hostOf who fn) (fun st =>
    if o = 0 then st.snpCfgSet k n
    else if o = 8 then
      let st := if nbit n 1 then st.snpStop k else st
      let st := if nbit n 2 then st.snpFlush k else st
      if nbit n 0 then st.snpStart k else st
    else if o = 0x20 || o = 0x28 then st.snpIroute k ((o - 0x20) / 8) n
    else if o = 0x30 || o = 0x38 then st.snpOroute k ((o - 0x30) / 8) n
    else if o = 0x40 || o = 0x44 then (if st.snpState k = 0 then st.plainWrite off v else st)
    else if 0x100 ≤ o && o < 0x180 then st.snpOgain k ((o - 0x100) / 4) n
    else st.plainWrite off v)

/-- MSH_ registers: a write of a register with no writable field is recorded (R389). -/
def State.writeMsh (st : State) (who : Who) (fn o off : Nat) (v : Word) : State :=
  if (Reg.row? off).any (fun r => r.rw = 0 && r.w1c = 0) then st.accErr who 4 true off
  else st.permit who off (st.hostOf who fn || who == .bursar) (fun st =>
    if o = 0 then st.ranged off 15 0 10 10000 (nbits v.toNat 15 0) else st.plainWrite off v)

/-- ISL_ registers (chapter 23). -/
def State.writeIsl (st : State) (who : Who) (fn w off : Nat) (v : Word) : State :=
  let s := (w - 0x28100) / 0x100
  if w < 0x28100 then st
  else if w % 0x100 = 0 then st.islCtlWrite who fn s (fun st => st.islCtl fn s v.toNat)
  else st.permit who off (st.hostOf who fn || Who.tellerOf who fn s) (fun st => st.plainWrite off v)

/-- The whole register at flat offset `off` is written, by a party whose access `accessReason` has let through. -/
def State.writeReg (st : State) (who : Who) (off : Nat) (v : Word) : State :=
  match Reg.locate off with
  | none => st
  | some (b, o) =>
    let fn := (winOf off).1
    let w := (winOf off).2
    let field := decide (0x1000000 ≤ off ∧ off < 0x2900000)
    match field, who with
    | true, .island _ _ => st.accErr who 3 true off
    | _, _ => match b with
      | .axb | .pwr | .hst | .hstVf | .vfMsix | .ledv => st.writeModule who off v
      | .tly => if off % 16 = 0 then st.tallyValue who ((off - 0x10000) / 16) v.toNat
                else st.tallyStat who ((off - 0x10000) / 16) v.toNat
      | .que | .queM => st.writeQue who off v
      | .fld => st.writeFld who fn o off v
      | .tbs => if o = 0x30 then st.permit who off (st.hostOf who fn) (fun st => st.captCtlWrite fn v) else st.plainWrite off v
      | .gzc => st.writeGzc who fn ((w - 0x20000) / 0x1000) o off v
      | .stoS =>
        let s := (w - 0x30000) / 0x400
        if o = 0 then st.permit who off (st.tellerOrOwner who fn s) (fun st => st.shareChange fn s v.toNat)
        else if o = 8 then st.permit who off (st.storeWriter who fn) (fun st => if v.getLsbD 0 then st.clearConf fn s else st)
        else st.plainWrite off v
      | .stoB =>
        if o = 0x400 then st.permit who off (st.storeWriter who fn) (fun st =>
          (st.wf off 31 31 (nbits v.toNat 31 31)).ranged off 5 0 1 63 (nbits v.toNat 5 0))
        else st.plainWrite off v
      | .kvl => st.writeKvl who (Config.kvlPort fn) o off v
      | .snp => st.writeSnp who fn (snpNumber fn ((w - 0x36000) / 0x400)) o off v
      | .msh => st.writeMsh who fn o off v
      | .isl | .islS => st.writeIsl who fn w off v
      | .islU => st.islUser who fn ((w - 0x29000) / 0x400) (w % 0x400 / 4) true v.toNat

/-! ## The two words of a 64-bit register (R16) -/

/-- The latched (or staged) word that a requester holds for the register at `off`. -/
def State.latchOf (st : State) (who : Who) (off : Nat) (staged : Bool) : Option Nat :=
  (st.latches.find? (fun l => l.who == who && l.off = off && l.staged == staged)).map (·.word)

/-- Release what a requester holds for a register. -/
def State.unlatch (st : State) (who : Who) (off : Nat) (staged : Bool) : State :=
  { st with latches := st.latches.filter (fun l => !(l.who == who && l.off = off && l.staged == staged)) }

/-- Hold a word for a requester and a register, in place of one it already holds. -/
def State.latch (st : State) (who : Who) (off : Nat) (staged : Bool) (word : Nat) : State :=
  let st := st.unlatch who off staged
  { st with latches := { who := who, off := off, staged := staged, word := word } :: st.latches }

/-- The low word that a write of the high word alone gives: the present one, RW1C and WO bits as written 0 (R16). -/
def State.presentLow (st : State) (off : Nat) (r : Reg.Row) : Nat :=
  bitsOf (st.view off &&& ~~~ (BitVec.ofNat 64 (r.w1c ||| r.wo))) 31 0

/-- The side effect of reading a whole 64-bit register, or the high word that a latch of it holds: a capture counts as read
(R81), a gleaner's INDEX moves on (R281). -/
def State.latchedEffect (st : State) (off : Nat) : State :=
  let fn := (winOf off).1
  let w := (winOf off).2
  if off < 0x1000000 || 0x2900000 ≤ off then st
  else if 0x1040 ≤ w && w < 0x1080 then
    let f := st.field fn
    let i := (w - 0x1040) / 8
    st.setField fn { f with captEdge := if f.captEdge.testBit i then f.captEdge - 2 ^ i else f.captEdge }
  else if 0x20000 ≤ w && w < 0x24000 && w % 0x1000 = 0x220 then
    st.add (Reg.GZC_GLEAN_INDEX fn ((w - 0x20000) / 0x1000)) 9 0 1
  else st

/-- Bytes of a party's register space: VF BAR0 or PF0 BAR0 (R423). -/
def Who.barSize (who : Who) : Nat :=
  match who with
  | .vf _ => 0x100000
  | _ => 0x4000000

/-- An aligned 32-bit read (R16, R619). GZC_RETIRE is not removed from by it (R203), and only its teller sees the record. -/
def State.read32 (st : State) (who : Who) (off : Nat) : State :=
  let x := st.resolve who off
  match x.2.or (st.accessReason who x.1 false) with
  | some r => State.accErrAt { st with reply := some (if r = 2 then 0 else BitVec.allOnes 64) } who r false 0 0 off
  | none =>
    let w := (winOf x.1).2
    match Reg.holding x.1 with
    | none => st.answer ((st.word32 x.1).getD 0xFFFFFFFF)
    | some (a, r, high) =>
      if 0x1000000 ≤ x.1 && x.1 < 0x2900000 && 0x29000 ≤ w && w < 0x2A000 then
        st.islUser who (winOf x.1).1 ((w - 0x29000) / 0x400) (w % 0x400 / 4) false 0
      else
        let v := if 0x1000000 ≤ a && 0x20000 ≤ w && w < 0x24000 && a % 0x1000 = 0xA0 &&
            !(who == .teller (winOf a).1 ((w - 0x20000) / 0x1000)) then 0 else st.view a
        let st := if drawsAtRead a then st.draw.2 else st
        if r.width = 32 then st.answer (bitsOf v 31 0)
        else if !high then (st.latch who a false (bitsOf v 63 32)).answer (bitsOf v 31 0)
        else match st.latchOf who a false with
          | some h => ((st.unlatch who a false).latchedEffect a).answer h
          | none => st.answer (bitsOf v 63 32)

/-- What two halves of one access have answered, low word first (R619). -/
def joinReply : Option Word → Option Word → Option Word
  | some l, some h => some (BitVec.ofNat 64 (bitsOf h 31 0 * 2 ^ 32 + bitsOf l 31 0))
  | _, _ => none

/-- An aligned 64-bit access to what is no 64-bit register is performed as two 32-bit reads by the same requester, low word
first, which complete together (R619). -/
def State.readHalves (st : State) (who : Who) (off : Nat) : State :=
  let lo := st.read32 who off
  let hi := lo.read32 who (off + 4)
  { hi with reply := joinReply lo.reply hi.reply }

/-- A 64-bit read: one 64-bit register as a whole, with the side effect its chapter gives such a read (R16, R81, R203, R281,
R301), or two 32-bit accesses (R619). -/
def State.read64 (st : State) (who : Who) (off : Nat) : State :=
  let x := st.resolve who off
  if !(Reg.row? x.1).any (fun r => r.width = 64) then
    match x.2 with
    | some r => State.accErrAt { st with reply := some (BitVec.allOnes 64) } who r false 0 0 off
    | none => st.readHalves who off
  else match x.2.or (st.accessReason who x.1 false) with
    | some r => State.accErrAt { st with reply := some (if r = 2 then 0 else BitVec.allOnes 64) } who r false 0 0 off
    | none =>
      let w := (winOf x.1).2
      if x.1 = Reg.AXB_LEASE_HI then st.leaseHiTake who
      else if 0x1000000 ≤ x.1 && x.1 < 0x2900000 && 0x20000 ≤ w && w < 0x24000 && x.1 % 0x1000 = 0xA0 then
        st.retireTake who (winOf x.1).1 ((w - 0x20000) / 0x1000)
      else ((if drawsAtRead x.1 then st.draw.2 else st).latchedEffect x.1).answer (st.view x.1).toNat

/-- An aligned 32-bit write (R16, R619): the low word of a 64-bit register is staged, the high word writes the register. -/
def State.write32 (st : State) (who : Who) (off value : Nat) : State :=
  let x := st.resolve who off
  match x.2.or (st.accessReason who x.1 true) with
  | some r => st.accErrAt who r true 0 0 off
  | none =>
    match Reg.holding x.1 with
    | none => st
    | some (a, r, high) =>
      if r.width = 32 then st.writeReg who a (BitVec.ofNat 64 (value % 2 ^ 32))
      else if !high then st.latch who a true (value % 2 ^ 32)
      else
        let low := (st.latchOf who a true).getD (st.presentLow a r)
        (st.unlatch who a true).writeReg who a (BitVec.ofNat 64 (value % 2 ^ 32 * 2 ^ 32 + low))

/-- An aligned 64-bit write: one 64-bit register, or two 32-bit accesses, low word first (R619). -/
def State.write64 (st : State) (who : Who) (off value : Nat) : State :=
  let x := st.resolve who off
  match x.2.or (st.accessReason who x.1 true) with
  | none =>
    if (Reg.row? x.1).any (fun r => r.width = 64) then st.writeReg who x.1 (BitVec.ofNat 64 value)
    else (st.write32 who off (value % 2 ^ 32)).write32 who (off + 4) (value / 2 ^ 32 % 2 ^ 32)
  | some r =>
    if (Reg.row? x.1).any (fun r => r.width = 64) || x.2.isSome then st.accErrAt who r true 0 0 off
    else (st.write32 who off (value % 2 ^ 32)).write32 who (off + 4) (value / 2 ^ 32 % 2 ^ 32)

/-- Whether an access is a teller's narrow access to a store: `off` is then a wafer address, and no register has such an offset
(R5, R332; log 52). -/
def narrowOf (who : Who) (off : Nat) : Option (Nat × Nat) :=
  match who with
  | .teller fn t => if 2 ^ 40 ≤ off then some (fn, t) else none
  | _ => none

/-- A register access as it arrives, written: its size, alignment and range come first (R14). -/
def State.writeAccess (st : State) (who : Who) (off size value : Nat) : State :=
  if who == .smbus || Who.barSize who < off + size || off % max 1 size ≠ 0 then st
  else if size = 4 then st.write32 who off value
  else if size = 8 then st.write64 who off value
  else st

/-- A register read as it arrives: its size, alignment and range come first (R14). -/
def State.readAccess (st : State) (who : Who) (off size : Nat) : State :=
  if Who.barSize who < off + size || off % max 1 size ≠ 0 then { st with reply := none }
  else if size = 4 then st.read32 who off
  else if size = 8 then st.read64 who off
  else { st with reply := none }

/-- REGISTER_WRITE: a write of `size` bytes at offset `off` of the party's register space. Another size or alignment than an
aligned 32- or 64-bit one is an Unsupported Request and changes nothing (R14); an offset beyond the BAR addresses nothing, and
SMBus never writes a register (R609). A teller's write of 8 bytes at a wafer address is a narrow write of its store (R332). -/
def execRegisterWrite (who : Who) (off size value : Nat) (st : State) : Out1 :=
  .next (match narrowOf who off with
    | some (fn, t) => if size = 8 then st.narrowStore fn t off value else st
    | none => st.writeAccess who off size value)

/-- LOW_WORD_READ: a read of `size` bytes. A 32-bit read of the low word of a 64-bit register latches its high word for the
requester, which its next read of the high word takes; a 64-bit read is consistent in itself (R16, R619). Another size or
alignment is an Unsupported Request, which returns no data (R14). A teller's read of 8 bytes at a wafer address is a narrow read of its store (R332). -/
def execLowWordRead (who : Who) (off size : Nat) (st : State) : Out1 :=
  .next (match narrowOf who off with
    | some (fn, t) => if size = 8 then st.narrowLoad fn t off else { st with reply := none }
    | none => st.readAccess who off size)

/-- LOW_WORD_WRITE: a 32-bit write at the offset of a 64-bit register stages its low word (R16). -/
def execLowWordWrite (who : Who) (off value : Nat) (st : State) : Out1 :=
  .next (if who == .smbus || Who.barSize who < off + 4 || off % 4 ≠ 0 then st else st.write32 who off value)

/-- HIGH_WORD_WRITE: a 32-bit write of the high word, at the register's offset plus 4, writes the whole register (R16). -/
def execHighWordWrite (who : Who) (off value : Nat) (st : State) : Out1 :=
  .next (if who == .smbus || Who.barSize who < off + 4 || off % 4 ≠ 0 then st else st.write32 who off value)

end Sys2Proof.Machine
end

