-- ==== Sys2Proof/Machine/Management.lean ====
section
/-! DEFINITION. The management commands that write carrier flash and fuses (R446-R448, R459-R464), and the command that
resets the module (R601). -/

namespace Sys2Proof.Machine

/-! ## Carrier flash -/

/-- The 64 bytes of a boot record (R448). -/
def bootRecord (copy primary fallback : Nat) : List Byte :=
  let b := leBytes 4 0x42525A47 ++ leBytes 1 copy ++ leBytes 1 primary ++ leBytes 1 fallback ++ List.replicate 53 0
  b ++ leBytes 4 (crc32 0xEDB88320 b)

def State.setFlash (st : State) (f : Flash) : State := { st with car := { st.car with flash := f } }

/-- CLEAR_RETIRED: the retirement list in flash is emptied, with effect at the next boot (R459). Firmware series 5 refuses it
(R543). -/
def execClearRetired (it : Item) (st : State) : Out1 :=
  st.onItem it 0x48 (fun x st =>
    if st.rf Reg.AXB_REVISION 7 0 = 5 then st.endItem x.num 3 0 0
    else (st.setFlash { st.car.flash with retireLo := 0, retireHi := 0 }).endItem x.num 0 0 0)

/-- Whether a slot holds the active build's source (R146, R460). -/
def State.activeSlot (st : State) (s : Nat) : Bool := st.brs.image.isSome && st.car.flash.source = s + 1

/-- Put an image into a slot, or leave the slot empty. -/
def State.putSlot (st : State) (s : Nat) (i : Option Image) : State :=
  let f := st.car.flash
  let others := f.slots.filter (fun e => e.1 ≠ s)
  let slots := match i with
    | some x => (others.filter (fun e => e.1 < s)) ++ [(s, x)] ++ others.filter (fun e => s < e.1)
    | none => others
  st.setFlash { f with slots := slots }

/-- STORE_IMAGE: an image from host memory is verified and written to a flash slot (R459, R460). A write that fails leaves the
slot unusable (R464). -/
def execStoreImage (it : Item) (img : Image) (flashOk : Bool) (st : State) : Out1 :=
  let s := it.u 0x20 1
  st.onItemIf it 0x49 (fun _ => st.canDma 0) (fun x st =>
    if 3 < s || st.activeSlot s || 0x7F000000 < it.u 0x30 8 then st.endItem x.num 3 0 0
    else if it.u 0x30 8 < img.size || (firstErr [st.headerErr img, st.dirErr img, st.keyErr img]).isSome then
      st.endItem x.num 4 0 0
    else if flashOk then (st.putSlot s (some img)).endItem x.num 0 0 0
    else (st.putSlot s none).endItem x.num 5 0 0)

/-- SET_BOOT: the boot record is rewritten (R448, R460). A write that fails leaves a record that fails its CRC. -/
def execSetBoot (it : Item) (flashOk : Bool) (st : State) : Out1 :=
  let copy := it.u 0x20 1
  let pri := it.u 0x21 1
  let back := it.u 0x22 1
  let empty (st : State) (s : Nat) : Bool := !st.car.flash.slots.any (fun e => e.1 = s)
  st.onItem it 0x4A (fun x st =>
    if 1 < copy || 3 < pri || !(back < 4 || back = 0xF) || empty st pri || (back < 4 && empty st back) || back = pri then
      st.endItem x.num 3 0 0
    else
      let rec_ := bootRecord copy pri back
      let bad := rec_.set 0x3C (~~~ (rec_.getD 0x3C 0))
      let st := st.setFlash { st.car.flash with bootBytes := if flashOk then rec_ else bad }
      st.endItem x.num (if flashOk then 0 else 5) 0 0)

/-- STORE_FIRMWARE: a firmware image is verified and written to the copy that was not booted, which FW_COPY then names (R459,
R464). In recovery, where no copy was booted, it goes to the copy that FW_COPY does not name. -/
def execStoreFirmware (it : Item) (img : FwImage) (flashOk : Bool) (st : State) : Out1 :=
  st.onItemIf it 0x4B (fun _ => st.canDma 0) (fun x st =>
    let f := st.car.flash
    let r := f.record
    let booted := if st.brs.recovery then min 1 r.1 else st.rf Reg.AXB_BOOT_STATUS 0 0
    if it.u 0x30 8 < img.bytes.length || st.car.fuses.seriesOf (some img) = 0 then st.endItem x.num 4 0 0
    else
      let put (w : Option FwImage) (f : Flash) : Flash := if booted = 0 then { f with fwB := w } else { f with fwA := w }
      if flashOk then
        (st.setFlash { put (some img) f with bootBytes := bootRecord (1 - booted) r.2.1 r.2.2.1 }).endItem x.num 0 0 0
      else (st.setFlash (put none f)).endItem x.num 5 0 0)

/-! ## Fuses (R141, R460) -/

/-- The key slots that are programmed and not revoked. -/
def Fuses.liveKeys (f : Fuses) : List Nat :=
  (List.range 4).filter (fun k => f.keyDigest.any (fun e => e.1 = k) && !f.revoked.testBit k)

/-- The fuses with a key slot revoked. -/
def Fuses.revoke (f : Fuses) (k : Nat) : Fuses := { f with revoked := f.revoked ||| 2 ^ k }

/-- The fuses with the minimum SVN of a key slot raised. -/
def Fuses.raise (f : Fuses) (k svn : Nat) : Fuses := { f with svn := tput 0 f.svn k (max svn (tget 0 f.svn k)) }

def State.setFuses (st : State) (f : Fuses) : State := { st with car := { st.car with fuses := f } }

/-- REVOKE_KEY: the revoke fuse of a key slot is blown, unless the two slot fields differ or no live key slot would remain
(R460). Fuse commands wait for no load: they are refused BUSY while one runs (R461). -/
def execRevokeKey (it : Item) (fuseOk : Bool) (st : State) : Out1 :=
  let k := it.u 0x20 1
  st.onItem it 0x4C (fun x st =>
    let f := st.car.fuses.revoke k
    if 3 < k || it.u 0x21 1 ≠ k || f.liveKeys = [] then st.endItem x.num 3 0 0
    else if st.loading then st.endItem x.num 1 0 0
    else if fuseOk then
      ((st.setFuses f).wf Reg.AXB_KEY_STATE 11 8 (f.revoked % 16)).endItem x.num 0 0 0
    else st.endItem x.num 6 0 0)

/-- RAISE_SVN: the minimum SVN of a key slot is raised (R460). -/
def execRaiseSvn (it : Item) (fuseOk : Bool) (st : State) : Out1 :=
  let k := it.u 0x20 1
  let v := it.u 0x21 1
  st.onItem it 0x4D (fun x st =>
    if 3 < k || v ≤ tget 0 st.car.fuses.svn k || 63 < v then st.endItem x.num 3 0 0
    else if st.loading then st.endItem x.num 1 0 0
    else if fuseOk then
      ((st.setFuses (st.car.fuses.raise k v)).wf Reg.AXB_KEY_SVN (8 * k + 7) (8 * k) v).endItem x.num 0 0 0
    else st.endItem x.num 6 0 0)

/-! ## Module reset -/

/-- MODULE_RESET: the carrier performs a module reset with CAUSE 3; the command never completes (R459, R601). -/
def execModuleReset (it : Item) (st : State) : Out1 := st.onItem it 0x4E (fun _ st => st.moduleReset 3)

end Sys2Proof.Machine
end

