-- ==== Sys2Proof/Machine/Dispatch.lean ====
section
/-! DEFINITION. The dispatch: for each command, the one meaning it has. -/

namespace Sys2Proof.Machine

/-- The effect of command `i` on everything but the queue of waiting commands. -/
def exec (i : Instr) (s : State) : Host.Outcome State Fault Refusal :=
  match i with
  | .registerWrite who off size value => Sys2Proof.Machine.execRegisterWrite who off size value s
  | .lowWordRead who off size => Sys2Proof.Machine.execLowWordRead who off size s
  | .lowWordWrite who off value => Sys2Proof.Machine.execLowWordWrite who off value s
  | .highWordWrite who off value => Sys2Proof.Machine.execHighWordWrite who off value s
  | .powerUp straps refClock => Sys2Proof.Machine.execPowerUp straps refClock s
  | .sequencingStep => Sys2Proof.Machine.execSequencingStep s
  | .timebaseJoin fn => Sys2Proof.Machine.execTimebaseJoin fn s
  | .timebaseJoinFailure fn => Sys2Proof.Machine.execTimebaseJoinFailure fn s
  | .switchOffStep => Sys2Proof.Machine.execSwitchOffStep s
  | .entrySample vin iin => Sys2Proof.Machine.execEntrySample vin iin s
  | .emergencyPowerDown => Sys2Proof.Machine.execEmergencyPowerDown s
  | .carrierTrip => Sys2Proof.Machine.execCarrierTrip s
  | .tripRecovery => Sys2Proof.Machine.execTripRecovery s
  | .refClockLost => Sys2Proof.Machine.execRefClockLost s
  | .refClockRestored => Sys2Proof.Machine.execRefClockRestored s
  | .linkSyncExchange fn offset => Sys2Proof.Machine.execLinkSyncExchange fn offset s
  | .lockLoss fn => Sys2Proof.Machine.execLockLoss fn s
  | .recouple it locked => Sys2Proof.Machine.execRecouple it locked s
  | .captureEdge fn input falling => Sys2Proof.Machine.execCaptureEdge fn input falling s
  | .captureRead who fn input => Sys2Proof.Machine.execCaptureRead who fn input s
  | .beat fn k stage => Sys2Proof.Machine.execBeat fn k stage s
  | .beatmonWindowEnd fn beats => Sys2Proof.Machine.execBeatmonWindowEnd fn beats s
  | .beatmonCtlWrite who fn value => Sys2Proof.Machine.execBeatmonCtlWrite who fn value s
  | .paceStep fn r => Sys2Proof.Machine.execPaceStep fn r s
  | .paceMarkArrival fn m => Sys2Proof.Machine.execPaceMarkArrival fn m s
  | .pacePolicyWrite who fn slack value => Sys2Proof.Machine.execPacePolicyWrite who fn slack value s
  | .partPolicyWrite who p value => Sys2Proof.Machine.execPartPolicyWrite who p value s
  | .thermalTrip fn tj => Sys2Proof.Machine.execThermalTrip fn tj s
  | .paceFault fn => Sys2Proof.Machine.execPaceFault fn s
  | .chaffGap fn k feeder => Sys2Proof.Machine.execChaffGap fn k feeder s
  | .rampDownStart fn k feeder => Sys2Proof.Machine.execRampDownStart fn k feeder s
  | .rampEntryAdvance fn k feeder => Sys2Proof.Machine.execRampEntryAdvance fn k feeder s
  | .rampUpStart fn k feeder => Sys2Proof.Machine.execRampUpStart fn k feeder s
  | .plimitWrite who fn value => Sys2Proof.Machine.execPlimitWrite who fn value s
  | .chaffCtlWrite who fn n value => Sys2Proof.Machine.execChaffCtlWrite who fn n value s
  | .retainDrainTimeout p => Sys2Proof.Machine.execRetainDrainTimeout p s
  | .partStart it => Sys2Proof.Machine.execPartStart it s
  | .partStop it => Sys2Proof.Machine.execPartStop it s
  | .partRetain it => Sys2Proof.Machine.execPartRetain it s
  | .partWake it => Sys2Proof.Machine.execPartWake it s
  | .partReset it => Sys2Proof.Machine.execPartReset it s
  | .loadSlot it => Sys2Proof.Machine.execLoadSlot it s
  | .loadBitstream it img => Sys2Proof.Machine.execLoadBitstream it img s
  | .loadPartial it img => Sys2Proof.Machine.execLoadPartial it img s
  | .fieldFramesWrite fn failure => Sys2Proof.Machine.execFieldFramesWrite fn failure s
  | .transitFieldWrite fn failure => Sys2Proof.Machine.execTransitFieldWrite fn failure s
  | .scrubFrame fn corrected bad => Sys2Proof.Machine.execScrubFrame fn corrected bad s
  | .cfgRepairComplete fn ok => Sys2Proof.Machine.execCfgRepairComplete fn ok s
  | .nop fn k w => Sys2Proof.Machine.execNop fn k w s
  | .loadW fn k w => Sys2Proof.Machine.execLoadW fn k w s
  | .run fn k w => Sys2Proof.Machine.execRun fn k w s
  | .mint fn k w => Sys2Proof.Machine.execMint fn k w s
  | .mv fn k w => Sys2Proof.Machine.execMv fn k w s
  | .push fn k w => Sys2Proof.Machine.execPush fn k w s
  | .paceMark fn k w => Sys2Proof.Machine.execPaceMark fn k w s
  | .rampUp fn k w => Sys2Proof.Machine.execRampUp fn k w s
  | .signal fn k w => Sys2Proof.Machine.execSignal fn k w s
  | .wait fn k w => Sys2Proof.Machine.execWait fn k w s
  | .commandIssue fn k => Sys2Proof.Machine.execCommandIssue fn k s
  | .latchWindow fn k => Sys2Proof.Machine.execLatchWindow fn k s
  | .escapeTableLoad fn k => Sys2Proof.Machine.execEscapeTableLoad fn k s
  | .commandRetirement fn k cls => Sys2Proof.Machine.execCommandRetirement fn k cls s
  | .waitTimeout fn k => Sys2Proof.Machine.execWaitTimeout fn k s
  | .flush who fn k => Sys2Proof.Machine.execFlush who fn k s
  | .resume who fn k => Sys2Proof.Machine.execResume who fn k s
  | .retireRead who fn k => Sys2Proof.Machine.execRetireRead who fn k s
  | .groupGate fn k group => Sys2Proof.Machine.execGroupGate fn k group s
  | .gleanClear who fn k => Sys2Proof.Machine.execGleanClear who fn k s
  | .gleanBinRead who fn k => Sys2Proof.Machine.execGleanBinRead who fn k s
  | .csDiag who fn k => Sys2Proof.Machine.execCsDiag who fn k s
  | .csClear who fn k => Sys2Proof.Machine.execCsClear who fn k s
  | .columnRetirement fn k => Sys2Proof.Machine.execColumnRetirement fn k s
  | .tellerWatchdogCheck fn beats stuck => Sys2Proof.Machine.execTellerWatchdogCheck fn beats stuck s
  | .housekeeperHang fn => Sys2Proof.Machine.execHousekeeperHang fn s
  | .housekeeperHeartbeat fn => Sys2Proof.Machine.execHousekeeperHeartbeat fn s
  | .bursarStrobe inBounds => Sys2Proof.Machine.execBursarStrobe inBounds s
  | .anchorFailover back => Sys2Proof.Machine.execAnchorFailover back s
  | .watchdogModuleReset => Sys2Proof.Machine.execWatchdogModuleReset s
  | .leaseRevoke j => Sys2Proof.Machine.execLeaseRevoke j s
  | .leaseHiRead who => Sys2Proof.Machine.execLeaseHiRead who s
  | .mirrorResync => Sys2Proof.Machine.execMirrorResync s
  | .cacheShareChange who fn k value => Sys2Proof.Machine.execCacheShareChange who fn k value s
  | .patrolRead fn => Sys2Proof.Machine.execPatrolRead fn s
  | .clearConflicts who fn k => Sys2Proof.Machine.execClearConflicts who fn k s
  | .messageRoute j => Sys2Proof.Machine.execMessageRoute j s
  | .linkReplay fn port => Sys2Proof.Machine.execLinkReplay fn port s
  | .linkFailure fn port => Sys2Proof.Machine.execLinkFailure fn port s
  | .routeCommit => Sys2Proof.Machine.execRouteCommit s
  | .routeSwitch => Sys2Proof.Machine.execRouteSwitch s
  | .routeDrainTimeout => Sys2Proof.Machine.execRouteDrainTimeout s
  | .routeDrainDone => Sys2Proof.Machine.execRouteDrainDone s
  | .deposit m => Sys2Proof.Machine.execDeposit m s
  | .ack m => Sys2Proof.Machine.execAck m s
  | .nak m => Sys2Proof.Machine.execNak m s
  | .grant m => Sys2Proof.Machine.execGrant m s
  | .close m => Sys2Proof.Machine.execClose m s
  | .scrip m => Sys2Proof.Machine.execScrip m s
  | .pushMessage fn k => Sys2Proof.Machine.execPushMessage fn k s
  | .ackTimeout tag => Sys2Proof.Machine.execAckTimeout tag s
  | .linkReset who port => Sys2Proof.Machine.execLinkReset who port s
  | .signalDetected port => Sys2Proof.Machine.execSignalDetected port s
  | .levelLock port => Sys2Proof.Machine.execLevelLock port s
  | .codewordLock port laneMap polarity => Sys2Proof.Machine.execCodewordLock port laneMap polarity s
  | .trainTimeout port => Sys2Proof.Machine.execTrainTimeout port s
  | .resetStateEnd port locked => Sys2Proof.Machine.execResetStateEnd port locked s
  | .lossOfSignal port => Sys2Proof.Machine.execLossOfSignal port s
  | .codewordLockLoss port bad => Sys2Proof.Machine.execCodewordLockLoss port bad s
  | .idle port crcOk => Sys2Proof.Machine.execIdle port crcOk s
  | .lack port seq => Sys2Proof.Machine.execLack port seq s
  | .lnak port next => Sys2Proof.Machine.execLnak port next s
  | .credit port ctrlFreed dataFreed => Sys2Proof.Machine.execCredit port ctrlFreed dataFreed s
  | .ident port flags peerIdent peerRev peerPort ctrlCredits dataCredits => Sys2Proof.Machine.execIdent port flags peerIdent peerRev peerPort ctrlCredits dataCredits s
  | .resetUnit port cause => Sys2Proof.Machine.execResetUnit port cause s
  | .replay port seq => Sys2Proof.Machine.execReplay port seq s
  | .kvlFrame port seq units crcOk m fixed bad => Sys2Proof.Machine.execKvlFrame port seq units crcOk m fixed bad s
  | .lackTimer port => Sys2Proof.Machine.execLackTimer port s
  | .replayTimeout port => Sys2Proof.Machine.execReplayTimeout port s
  | .lnakRetry port => Sys2Proof.Machine.execLnakRetry port s
  | .bar2Write n off data => Sys2Proof.Machine.execBar2Write n off data s
  | .bar2Read n off len => Sys2Proof.Machine.execBar2Read n off len s
  | .doorbell who off size value => Sys2Proof.Machine.execDoorbell who off size value s
  | .doorbellForward n => Sys2Proof.Machine.execDoorbellForward n s
  | .vfFlr n => Sys2Proof.Machine.execVfFlr n s
  | .pf0Flr => Sys2Proof.Machine.execPf0Flr s
  | .perst => Sys2Proof.Machine.execPerst s
  | .hostLinkDown => Sys2Proof.Machine.execHostLinkDown s
  | .hostLinkUp speed width funcs vfEnable numVfs bar2Log => Sys2Proof.Machine.execHostLinkUp speed width funcs vfEnable numVfs bar2Log s
  | .registerReadTimeout who off => Sys2Proof.Machine.execRegisterReadTimeout who off s
  | .msixPendingSend func vector cfg => Sys2Proof.Machine.execMsixPendingSend func vector cfg s
  | .poisonedTlp ecrc tag => Sys2Proof.Machine.execPoisonedTlp ecrc tag s
  | .itemStart queue => Sys2Proof.Machine.execItemStart queue s
  | .itemComplete num => Sys2Proof.Machine.execItemComplete num s
  | .haltResponse fn k => Sys2Proof.Machine.execHaltResponse fn k s
  | .itemWaitTimeout queue => Sys2Proof.Machine.execItemWaitTimeout queue s
  | .itemNop it => Sys2Proof.Machine.execItemNop it s
  | .core it => Sys2Proof.Machine.execCore it s
  | .copyOut it => Sys2Proof.Machine.execCopyOut it s
  | .fetch it => Sys2Proof.Machine.execFetch it s
  | .winOpen it => Sys2Proof.Machine.execWinOpen it s
  | .winClose it => Sys2Proof.Machine.execWinClose it s
  | .scripReturn it => Sys2Proof.Machine.execScripReturn it s
  | .leaseGranule it => Sys2Proof.Machine.execLeaseGranule it s
  | .objectSet it => Sys2Proof.Machine.execObjectSet it s
  | .clearRetired it => Sys2Proof.Machine.execClearRetired it s
  | .storeImage it img flashOk => Sys2Proof.Machine.execStoreImage it img flashOk s
  | .setBoot it flashOk => Sys2Proof.Machine.execSetBoot it flashOk s
  | .storeFirmware it img flashOk => Sys2Proof.Machine.execStoreFirmware it img flashOk s
  | .revokeKey it fuseOk => Sys2Proof.Machine.execRevokeKey it fuseOk s
  | .raiseSvn it fuseOk => Sys2Proof.Machine.execRaiseSvn it fuseOk s
  | .moduleReset it => Sys2Proof.Machine.execModuleReset it s
  | .queueFlush who queue => Sys2Proof.Machine.execQueueFlush who queue s
  | .queueEnable who off value => Sys2Proof.Machine.execQueueEnable who off value s
  | .contextResume who p c => Sys2Proof.Machine.execContextResume who p c s
  | .cqHeadWrite who ctx value => Sys2Proof.Machine.execCqHeadWrite who ctx value s
  | .eventHeadWrite who func value => Sys2Proof.Machine.execEventHeadWrite who func value s
  | .eventRouteCommit who func => Sys2Proof.Machine.execEventRouteCommit who func s
  | .tsignal m => Sys2Proof.Machine.execTsignal m s
  | .tack m => Sys2Proof.Machine.execTack m s
  | .twait m => Sys2Proof.Machine.execTwait m s
  | .twake m => Sys2Proof.Machine.execTwake m s
  | .tallyValueWrite who j value => Sys2Proof.Machine.execTallyValueWrite who j value s
  | .tallyStatWrite who j value => Sys2Proof.Machine.execTallyStatWrite who j value s
  | .snpFrame port edges dataIn ns => Sys2Proof.Machine.execSnpFrame port edges dataIn ns s
  | .snpRecordClose port r => Sys2Proof.Machine.execSnpRecordClose port r s
  | .snpStart who port => Sys2Proof.Machine.execSnpStart who port s
  | .snpStop who port => Sys2Proof.Machine.execSnpStop who port s
  | .snpFlush who port => Sys2Proof.Machine.execSnpFlush who port s
  | .snpClockLoss port cause => Sys2Proof.Machine.execSnpClockLoss port cause s
  | .snpZcTimeout port slot => Sys2Proof.Machine.execSnpZcTimeout port slot s
  | .snpOgainWrite who port slot value => Sys2Proof.Machine.execSnpOgainWrite who port slot value s
  | .snpCfgWrite who port value => Sys2Proof.Machine.execSnpCfgWrite who port value s
  | .snpOrouteWrite who port r value => Sys2Proof.Machine.execSnpOrouteWrite who port r value s
  | .islUserAccess who fn k j isWrite value => Sys2Proof.Machine.execIslUserAccess who fn k j isWrite value s
  | .islRegTimeout fn k w => Sys2Proof.Machine.execIslRegTimeout fn k w s
  | .islandAttn fn k => Sys2Proof.Machine.execIslandAttn fn k s
  | .pfInWord fn k word => Sys2Proof.Machine.execPfInWord fn k word s
  | .ssReq fn k word => Sys2Proof.Machine.execSsReq fn k word s
  | .utxRxWord lane word => Sys2Proof.Machine.execUtxRxWord lane word s
  | .islandReset who fn k on => Sys2Proof.Machine.execIslandReset who fn k on s
  | .tapFlush who fn k => Sys2Proof.Machine.execTapFlush who fn k s
  | .rstN => Sys2Proof.Machine.execRstN s
  | .tapReset => Sys2Proof.Machine.execTapReset s
  | .extest dr => Sys2Proof.Machine.execExtest dr s
  | .idcode => Sys2Proof.Machine.execIdcode s
  | .samplePreload dr pins => Sys2Proof.Machine.execSamplePreload dr pins s
  | .highz => Sys2Proof.Machine.execHighz s
  | .clamp => Sys2Proof.Machine.execClamp s
  | .extestPulse dr => Sys2Proof.Machine.execExtestPulse dr s
  | .extestTrain dr => Sys2Proof.Machine.execExtestTrain dr s
  | .bypass => Sys2Proof.Machine.execBypass s
  | .smbIdent => Sys2Proof.Machine.execSmbIdent s
  | .smbEntry => Sys2Proof.Machine.execSmbEntry s
  | .smbStatus => Sys2Proof.Machine.execSmbStatus s
  | .smbTemp => Sys2Proof.Machine.execSmbTemp s
  | .regOffset off => Sys2Proof.Machine.execRegOffset off s
  | .regRead => Sys2Proof.Machine.execRegRead s
  | .alertAck => Sys2Proof.Machine.execAlertAck s
  | .alertResponse => Sys2Proof.Machine.execAlertResponse s
  | .pmbusPoll fn answered fault => Sys2Proof.Machine.execPmbusPoll fn answered fault s
  | .gpioWrite who value => Sys2Proof.Machine.execGpioWrite who value s
  | .rstNRelease => Sys2Proof.Machine.execRstNRelease s
  | .completionTlp tag status poisoned data => Sys2Proof.Machine.execCompletionTlp tag status poisoned data s
  | .snpIrouteWrite who port r value => Sys2Proof.Machine.execSnpIrouteWrite who port r value s
  | .islRegRsp fn k word => Sys2Proof.Machine.execIslRegRsp fn k word s
  | .utxTxWord lane word => Sys2Proof.Machine.execUtxTxWord lane word s
  | .identTimer port => Sys2Proof.Machine.execIdentTimer port s
  | .trainBackoffEnd port => Sys2Proof.Machine.execTrainBackoffEnd port s
  | .windowLeaseRelease ownerKey w => Sys2Proof.Machine.execWindowLeaseRelease ownerKey w s
  | .kvlEnableWrite who port => Sys2Proof.Machine.execKvlEnableWrite who port s

end Sys2Proof.Machine
end

