-- ==== Sys2Proof/Safety.lean ====
section
/-! DEFINITION. What counts as a safe state and a safe step: invariants in the terms that statements use. -/

namespace Sys2Proof.Machine

/-- The canonical form of the stores: addresses strictly rising, and no byte listed that equals what an unlisted one reads. -/
abbrev memoryWf (mem : List Host.Cell) : Prop := tableWf (fun _ => (0 : Byte)) mem = true

/-- The canonical form of the register file. -/
abbrev regsWf (regs : List (Nat × Word)) : Prop := tableWf Reg.resetOf regs = true

/-- The canonical form of the whole state: every table keeps its keys rising and lists no entry that reads as unlisted, so
that equal stores, registers and units are equal data. -/
structure State.Canonical (s : State) : Prop where
  regs : regsWf s.regs
  mem : memoryWf s.mem
  poison : tableWf (fun _ => false) s.poison = true
  flipped : tableWf (fun _ => false) s.flipped = true
  fields : tableWf (fun _ => ({} : FieldSt)) s.fields = true
  cores : tableWf (fun _ => ({} : CoreSt)) s.cores = true
  kvl : tableWf (fun _ => ({} : KvlSt)) s.kvl = true
  snp : tableWf (fun _ => ({} : SnpSt)) s.snp = true
  isl : tableWf (fun _ => ({} : IslSt)) s.isl = true
  leases : tableWf (fun _ => ({} : Lease)) s.leases = true

/-- The item `it` of opcode `op` that has been started, has not acted and has no status yet: the one that a row of an item acts
for. -/
def State.openItem (s : State) (it : Item) (op : Nat) : Option Started :=
  s.host.started.find? (fun x => x.item = it && !x.acted && x.status.isNone && it.op = op)

/-- `s` with the item's own action begun. -/
def State.begun (s : State) (x : Started) : State := s.modItem x.num (fun y => { y with acted := true })

/-- A key slot of the fuses that can still verify an image: programmed and not revoked (R142, R143). -/
def Fuses.live (f : Fuses) : List (Nat × List Byte) := f.keyDigest.filter (fun e => !f.revoked.testBit e.1)

/-- The fuses keep what R143 demands: at least one key slot is live. -/
def State.keysLive (s : State) : Prop := s.car.fuses.live ≠ []

/-- Every fuse that `a` has blown is blown in `b`: revoked slots stay revoked and no minimum SVN falls (R143). -/
def Fuses.le (a b : Fuses) : Prop :=
  (∀ k, a.revoked.testBit k = true → b.revoked.testBit k = true) ∧ (∀ k, tget 0 a.svn k ≤ tget 0 b.svn k)

end Sys2Proof.Machine

namespace Sys2Proof

/-! What a command can change. Each of these lists commands by what their effect and its consequences can reach, so that what
the other commands leave alone can be stated. -/

/-- The commands that can change a byte of the stores: the others store nothing. -/
def Instr.mayStore : Instr → Bool
  | .registerWrite .. | .lowWordRead .. | .lowWordWrite .. | .highWordWrite .. | .powerUp .. | .sequencingStep
  | .timebaseJoin .. | .timebaseJoinFailure .. | .switchOffStep | .entrySample .. | .carrierTrip | .tripRecovery
  | .linkSyncExchange .. | .beat .. | .beatmonWindowEnd .. | .paceStep .. | .thermalTrip .. | .paceFault ..
  | .rampDownStart .. | .rampEntryAdvance .. | .retainDrainTimeout .. | .fieldFramesWrite .. | .transitFieldWrite ..
  | .scrubFrame .. | .cfgRepairComplete .. | .commandIssue .. | .commandRetirement .. | .waitTimeout ..
  | .groupGate .. | .tellerWatchdogCheck .. | .housekeeperHang .. | .housekeeperHeartbeat .. | .bursarStrobe ..
  | .anchorFailover .. | .watchdogModuleReset | .leaseRevoke .. | .cacheShareChange .. | .patrolRead ..
  | .linkFailure .. | .routeSwitch | .routeDrainTimeout | .routeDrainDone | .deposit .. | .ackTimeout ..
  | .trainTimeout .. | .resetStateEnd .. | .lackTimer .. | .replayTimeout .. | .lnakRetry .. | .registerReadTimeout ..
  | .itemWaitTimeout .. | .moduleReset .. | .snpFrame .. | .snpClockLoss .. | .snpZcTimeout .. | .islRegTimeout ..
  | .ssReq .. | .rstN | .pmbusPoll .. | .identTimer .. | .trainBackoffEnd .. | .windowLeaseRelease .. => true
  | _ => false

/-- The commands whose effect falls at a later wafer time or that start wafer time again. -/
def Instr.mayPassTime : Instr → Bool
  | .registerWrite .. | .lowWordRead .. | .powerUp .. | .sequencingStep | .timebaseJoinFailure .. | .switchOffStep
  | .entrySample .. | .carrierTrip | .tripRecovery | .linkSyncExchange .. | .beatmonWindowEnd .. | .paceStep ..
  | .paceFault .. | .rampDownStart .. | .rampEntryAdvance .. | .retainDrainTimeout .. | .scrubFrame ..
  | .waitTimeout .. | .groupGate .. | .tellerWatchdogCheck .. | .housekeeperHang .. | .housekeeperHeartbeat ..
  | .bursarStrobe .. | .anchorFailover .. | .watchdogModuleReset | .leaseRevoke .. | .patrolRead .. | .routeSwitch
  | .routeDrainTimeout | .ackTimeout .. | .trainTimeout .. | .resetStateEnd .. | .lackTimer .. | .replayTimeout ..
  | .lnakRetry .. | .registerReadTimeout .. | .itemWaitTimeout .. | .moduleReset .. | .snpFrame .. | .snpClockLoss ..
  | .snpZcTimeout .. | .islRegTimeout .. | .rstN | .pmbusPoll .. | .rstNRelease | .identTimer .. | .trainBackoffEnd ..
  | .windowLeaseRelease .. => true
  | _ => false

/-- The commands that can change the state a field holds beside its registers. -/
def Instr.mayChangeFields : Instr → Bool
  | .registerWrite .. | .lowWordRead .. | .lowWordWrite .. | .highWordWrite .. | .powerUp .. | .sequencingStep
  | .timebaseJoin .. | .timebaseJoinFailure .. | .switchOffStep | .entrySample .. | .emergencyPowerDown | .carrierTrip
  | .tripRecovery | .linkSyncExchange .. | .lockLoss .. | .recouple .. | .captureEdge .. | .captureRead ..
  | .beatmonWindowEnd .. | .beatmonCtlWrite .. | .paceStep .. | .paceMarkArrival .. | .pacePolicyWrite ..
  | .partPolicyWrite .. | .thermalTrip .. | .paceFault .. | .rampDownStart .. | .rampEntryAdvance ..
  | .retainDrainTimeout .. | .partStop .. | .partRetain .. | .partReset .. | .loadSlot .. | .loadBitstream ..
  | .fieldFramesWrite .. | .transitFieldWrite .. | .scrubFrame .. | .cfgRepairComplete .. | .commandRetirement ..
  | .waitTimeout .. | .groupGate .. | .columnRetirement .. | .tellerWatchdogCheck .. | .housekeeperHang ..
  | .housekeeperHeartbeat .. | .bursarStrobe .. | .anchorFailover .. | .watchdogModuleReset | .leaseRevoke ..
  | .patrolRead .. | .linkFailure .. | .routeCommit | .routeSwitch | .routeDrainTimeout | .routeDrainDone
  | .ackTimeout .. | .trainTimeout .. | .resetStateEnd .. | .lackTimer .. | .replayTimeout .. | .lnakRetry ..
  | .registerReadTimeout .. | .itemComplete .. | .haltResponse .. | .itemWaitTimeout .. | .moduleReset ..
  | .snpFrame .. | .snpRecordClose .. | .snpClockLoss .. | .snpZcTimeout .. | .islRegTimeout .. | .rstN
  | .pmbusPoll .. | .rstNRelease | .identTimer .. | .trainBackoffEnd .. | .windowLeaseRelease .. => true
  | _ => false

/-- The commands that can change a core: its intake, queues, banks, rows and accumulators. -/
def Instr.mayChangeCores : Instr → Bool
  | .registerWrite .. | .lowWordRead .. | .lowWordWrite .. | .highWordWrite .. | .powerUp .. | .sequencingStep
  | .timebaseJoin .. | .timebaseJoinFailure .. | .switchOffStep | .entrySample .. | .emergencyPowerDown | .carrierTrip
  | .tripRecovery | .linkSyncExchange .. | .beat .. | .beatmonWindowEnd .. | .paceStep .. | .thermalTrip ..
  | .paceFault .. | .chaffGap .. | .rampDownStart .. | .rampEntryAdvance .. | .rampUpStart .. | .retainDrainTimeout ..
  | .partStop .. | .partRetain .. | .partReset .. | .fieldFramesWrite .. | .transitFieldWrite .. | .scrubFrame ..
  | .cfgRepairComplete .. | .nop .. | .loadW .. | .run .. | .mint .. | .mv .. | .push .. | .paceMark .. | .rampUp ..
  | .signal .. | .wait .. | .commandIssue .. | .latchWindow .. | .escapeTableLoad .. | .commandRetirement ..
  | .waitTimeout .. | .flush .. | .resume .. | .retireRead .. | .groupGate .. | .gleanClear .. | .csDiag ..
  | .csClear .. | .columnRetirement .. | .tellerWatchdogCheck .. | .housekeeperHang .. | .housekeeperHeartbeat ..
  | .bursarStrobe .. | .anchorFailover .. | .watchdogModuleReset | .leaseRevoke .. | .cacheShareChange ..
  | .patrolRead .. | .linkFailure .. | .routeCommit | .routeSwitch | .routeDrainTimeout | .routeDrainDone
  | .deposit .. | .ack .. | .nak .. | .grant .. | .pushMessage .. | .ackTimeout .. | .trainTimeout ..
  | .resetStateEnd .. | .lackTimer .. | .replayTimeout .. | .lnakRetry .. | .registerReadTimeout .. | .itemComplete ..
  | .haltResponse .. | .itemWaitTimeout .. | .core .. | .copyOut .. | .moduleReset .. | .tack .. | .twake ..
  | .snpFrame .. | .snpClockLoss .. | .snpZcTimeout .. | .islRegTimeout .. | .pfInWord .. | .ssReq ..
  | .islandReset .. | .tapFlush .. | .rstN | .pmbusPoll .. | .identTimer .. | .trainBackoffEnd ..
  | .windowLeaseRelease .. => true
  | _ => false

/-- The commands that can change a Kevenlink port. -/
def Instr.mayChangeLinks : Instr → Bool
  | .registerWrite .. | .lowWordWrite .. | .highWordWrite .. | .powerUp .. | .sequencingStep | .timebaseJoin ..
  | .timebaseJoinFailure .. | .switchOffStep | .emergencyPowerDown | .carrierTrip | .tripRecovery | .thermalTrip ..
  | .retainDrainTimeout .. | .partStop .. | .partRetain .. | .partReset .. | .fieldFramesWrite ..
  | .transitFieldWrite .. | .cfgRepairComplete .. | .commandRetirement .. | .tellerWatchdogCheck ..
  | .housekeeperHang .. | .anchorFailover .. | .watchdogModuleReset | .leaseRevoke .. | .linkFailure .. | .routeCommit
  | .routeDrainDone | .deposit .. | .ack .. | .nak .. | .grant .. | .close .. | .scrip .. | .ackTimeout ..
  | .linkReset .. | .signalDetected .. | .levelLock .. | .codewordLock .. | .trainTimeout .. | .resetStateEnd ..
  | .lossOfSignal .. | .codewordLockLoss .. | .lack .. | .lnak .. | .credit .. | .ident .. | .resetUnit ..
  | .replay .. | .kvlFrame .. | .lackTimer .. | .replayTimeout .. | .lnakRetry .. | .itemComplete ..
  | .haltResponse .. | .moduleReset .. | .tsignal .. | .tack .. | .rstN | .pmbusPoll .. | .identTimer ..
  | .trainBackoffEnd .. | .kvlEnableWrite .. => true
  | _ => false

/-- The commands that can change a sensor port. -/
def Instr.mayChangeSensors : Instr → Bool
  | .registerWrite .. | .lowWordWrite .. | .highWordWrite .. | .powerUp .. | .sequencingStep | .timebaseJoin ..
  | .timebaseJoinFailure .. | .switchOffStep | .emergencyPowerDown | .carrierTrip | .tripRecovery | .thermalTrip ..
  | .retainDrainTimeout .. | .partStop .. | .partRetain .. | .partReset .. | .fieldFramesWrite ..
  | .transitFieldWrite .. | .cfgRepairComplete .. | .commandRetirement .. | .tellerWatchdogCheck ..
  | .housekeeperHang .. | .anchorFailover .. | .watchdogModuleReset | .leaseRevoke .. | .linkFailure .. | .routeCommit
  | .routeDrainDone | .deposit .. | .ack .. | .nak .. | .grant .. | .scrip .. | .ackTimeout .. | .itemComplete ..
  | .haltResponse .. | .moduleReset .. | .snpFrame .. | .snpRecordClose .. | .snpStart .. | .snpStop .. | .snpFlush ..
  | .snpClockLoss .. | .snpZcTimeout .. | .snpOgainWrite .. | .snpOrouteWrite .. | .rstN | .pmbusPoll ..
  | .snpIrouteWrite .. => true
  | _ => false

/-- The commands that can change an island. -/
def Instr.mayChangeIslands : Instr → Bool
  | .registerWrite .. | .lowWordRead .. | .lowWordWrite .. | .highWordWrite .. | .powerUp .. | .sequencingStep
  | .timebaseJoin .. | .timebaseJoinFailure .. | .switchOffStep | .entrySample .. | .emergencyPowerDown | .carrierTrip
  | .tripRecovery | .linkSyncExchange .. | .beat .. | .beatmonWindowEnd .. | .paceStep .. | .thermalTrip ..
  | .paceFault .. | .rampDownStart .. | .rampEntryAdvance .. | .retainDrainTimeout .. | .partStop .. | .partRetain ..
  | .partReset .. | .fieldFramesWrite .. | .transitFieldWrite .. | .scrubFrame .. | .cfgRepairComplete ..
  | .commandIssue .. | .commandRetirement .. | .waitTimeout .. | .flush .. | .groupGate .. | .columnRetirement ..
  | .tellerWatchdogCheck .. | .housekeeperHang .. | .housekeeperHeartbeat .. | .bursarStrobe .. | .anchorFailover ..
  | .watchdogModuleReset | .leaseRevoke .. | .patrolRead .. | .linkFailure .. | .routeCommit | .routeSwitch
  | .routeDrainTimeout | .routeDrainDone | .nak .. | .ackTimeout .. | .trainTimeout .. | .resetStateEnd ..
  | .lackTimer .. | .replayTimeout .. | .lnakRetry .. | .registerReadTimeout .. | .itemComplete .. | .haltResponse ..
  | .itemWaitTimeout .. | .moduleReset .. | .tack .. | .snpFrame .. | .snpClockLoss .. | .snpZcTimeout ..
  | .islUserAccess .. | .islRegTimeout .. | .islandAttn .. | .pfInWord .. | .ssReq .. | .utxRxWord ..
  | .islandReset .. | .tapFlush .. | .rstN | .pmbusPoll .. | .islRegRsp .. | .identTimer .. | .trainBackoffEnd ..
  | .windowLeaseRelease .. => true
  | _ => false

/-- The commands that can change a lease. -/
def Instr.mayChangeLeases : Instr → Bool
  | .registerWrite .. | .lowWordWrite .. | .highWordWrite .. | .powerUp .. | .timebaseJoinFailure .. | .switchOffStep
  | .entrySample .. | .emergencyPowerDown | .carrierTrip | .tripRecovery | .beat .. | .thermalTrip ..
  | .retainDrainTimeout .. | .partStart .. | .partStop .. | .partRetain .. | .partWake .. | .partReset ..
  | .loadSlot .. | .loadBitstream .. | .loadPartial .. | .fieldFramesWrite .. | .transitFieldWrite ..
  | .cfgRepairComplete .. | .commandRetirement .. | .columnRetirement .. | .tellerWatchdogCheck ..
  | .housekeeperHang .. | .anchorFailover .. | .watchdogModuleReset | .leaseRevoke .. | .linkFailure .. | .routeCommit
  | .routeDrainDone | .ack .. | .nak .. | .grant .. | .close .. | .scrip .. | .pushMessage .. | .ackTimeout ..
  | .linkReset .. | .lossOfSignal .. | .codewordLockLoss .. | .lnak .. | .resetUnit .. | .kvlFrame ..
  | .replayTimeout .. | .bar2Write .. | .vfFlr .. | .pf0Flr | .perst | .hostLinkDown | .msixPendingSend ..
  | .poisonedTlp .. | .itemComplete .. | .haltResponse .. | .fetch .. | .winOpen .. | .winClose .. | .leaseGranule ..
  | .moduleReset .. | .tack .. | .snpFrame .. | .snpRecordClose .. | .snpStart .. | .snpStop .. | .snpClockLoss ..
  | .snpZcTimeout .. | .rstN | .pmbusPoll .. | .rstNRelease | .completionTlp .. | .windowLeaseRelease .. => true
  | _ => false

/-- The commands that can write the carrier flash. -/
def Instr.mayWriteFlash : Instr → Bool
  | .powerUp .. | .timebaseJoinFailure .. | .switchOffStep | .entrySample .. | .tripRecovery | .thermalTrip ..
  | .loadSlot .. | .loadBitstream .. | .transitFieldWrite .. | .housekeeperHang .. | .anchorFailover ..
  | .watchdogModuleReset | .linkFailure .. | .routeDrainDone | .clearRetired .. | .storeImage .. | .setBoot ..
  | .storeFirmware .. | .moduleReset .. | .rstN | .pmbusPoll .. | .rstNRelease => true
  | _ => false

/-- The commands that can change the carrier: entry power, reset, pins, flash and fuses. -/
def Instr.mayChangeCarrier : Instr → Bool
  | .registerWrite .. | .lowWordRead .. | .lowWordWrite .. | .highWordWrite .. | .powerUp .. | .sequencingStep
  | .timebaseJoin .. | .timebaseJoinFailure .. | .switchOffStep | .entrySample .. | .emergencyPowerDown | .carrierTrip
  | .tripRecovery | .refClockLost | .refClockRestored | .linkSyncExchange .. | .beatmonWindowEnd .. | .paceStep ..
  | .thermalTrip .. | .paceFault .. | .rampDownStart .. | .rampEntryAdvance .. | .retainDrainTimeout .. | .partStop ..
  | .partRetain .. | .partReset .. | .loadSlot .. | .loadBitstream .. | .fieldFramesWrite .. | .transitFieldWrite ..
  | .scrubFrame .. | .cfgRepairComplete .. | .commandRetirement .. | .waitTimeout .. | .groupGate ..
  | .columnRetirement .. | .tellerWatchdogCheck .. | .housekeeperHang .. | .housekeeperHeartbeat .. | .bursarStrobe ..
  | .anchorFailover .. | .watchdogModuleReset | .leaseRevoke .. | .patrolRead .. | .linkFailure .. | .routeCommit
  | .routeSwitch | .routeDrainTimeout | .routeDrainDone | .ackTimeout .. | .linkReset .. | .trainTimeout ..
  | .resetStateEnd .. | .lossOfSignal .. | .codewordLockLoss .. | .lnak .. | .resetUnit .. | .kvlFrame ..
  | .lackTimer .. | .replayTimeout .. | .lnakRetry .. | .registerReadTimeout .. | .itemComplete .. | .haltResponse ..
  | .itemWaitTimeout .. | .clearRetired .. | .storeImage .. | .setBoot .. | .storeFirmware .. | .revokeKey ..
  | .raiseSvn .. | .moduleReset .. | .snpFrame .. | .snpClockLoss .. | .snpZcTimeout .. | .islRegTimeout ..
  | .ssReq .. | .rstN | .tapReset | .extest .. | .idcode | .samplePreload .. | .highz | .clamp | .extestPulse ..
  | .extestTrain .. | .bypass | .regOffset .. | .regRead | .alertAck | .alertResponse | .pmbusPoll .. | .gpioWrite ..
  | .rstNRelease | .identTimer .. | .trainBackoffEnd .. | .windowLeaseRelease .. => true
  | _ => false

/-- The commands that can change what the bursar holds: builds, partitions, sequencing. -/
def Instr.mayChangeBursar : Instr → Bool
  | .powerUp .. | .sequencingStep | .timebaseJoin .. | .timebaseJoinFailure .. | .switchOffStep | .entrySample ..
  | .emergencyPowerDown | .carrierTrip | .tripRecovery | .thermalTrip .. | .retainDrainTimeout .. | .partStart ..
  | .partStop .. | .partRetain .. | .partWake .. | .partReset .. | .loadSlot .. | .loadBitstream .. | .loadPartial ..
  | .fieldFramesWrite .. | .transitFieldWrite .. | .cfgRepairComplete .. | .commandRetirement ..
  | .columnRetirement .. | .tellerWatchdogCheck .. | .housekeeperHang .. | .anchorFailover .. | .watchdogModuleReset
  | .leaseRevoke .. | .linkFailure .. | .routeCommit | .routeDrainDone | .vfFlr .. | .pf0Flr | .perst | .hostLinkDown
  | .itemStart .. | .itemComplete .. | .haltResponse .. | .copyOut .. | .moduleReset .. | .snpFrame ..
  | .snpRecordClose .. | .snpClockLoss .. | .snpZcTimeout .. | .rstN | .pmbusPoll .. | .rstNRelease => true
  | _ => false

/-- The commands that can change the mesh: routes, messages, windows and grants. -/
def Instr.mayChangeMesh : Instr → Bool
  | .refClockLost | .refClockRestored | .lockLoss .. | .recouple .. | .captureEdge .. | .captureRead ..
  | .beatmonCtlWrite .. | .pacePolicyWrite .. | .partPolicyWrite .. | .chaffGap .. | .rampUpStart .. | .plimitWrite ..
  | .chaffCtlWrite .. | .partStart .. | .partWake .. | .loadPartial .. | .nop .. | .loadW .. | .run .. | .mint ..
  | .mv .. | .push .. | .paceMark .. | .rampUp .. | .signal .. | .wait .. | .latchWindow .. | .escapeTableLoad ..
  | .resume .. | .retireRead .. | .gleanClear .. | .gleanBinRead .. | .csDiag .. | .csClear .. | .leaseHiRead ..
  | .mirrorResync | .cacheShareChange .. | .clearConflicts .. | .linkReplay .. | .signalDetected .. | .levelLock ..
  | .codewordLock .. | .idle .. | .lack .. | .credit .. | .ident .. | .replay .. | .bar2Read .. | .doorbell ..
  | .doorbellForward .. | .hostLinkUp .. | .itemNop .. | .core .. | .objectSet .. | .clearRetired .. | .storeImage ..
  | .setBoot .. | .storeFirmware .. | .revokeKey .. | .raiseSvn .. | .queueFlush .. | .contextResume ..
  | .eventHeadWrite .. | .eventRouteCommit .. | .tallyStatWrite .. | .snpOgainWrite .. | .snpCfgWrite ..
  | .snpOrouteWrite .. | .islUserAccess .. | .islandAttn .. | .pfInWord .. | .utxRxWord .. | .islandReset ..
  | .tapFlush .. | .tapReset | .extest .. | .idcode | .samplePreload .. | .highz | .clamp | .extestPulse ..
  | .extestTrain .. | .bypass | .smbIdent | .smbEntry | .smbStatus | .smbTemp | .regOffset .. | .regRead | .alertAck
  | .alertResponse | .gpioWrite .. | .snpIrouteWrite .. | .islRegRsp .. | .utxTxWord .. | .kvlEnableWrite .. => false
  | _ => true

/-- The commands that can change a register. -/
def Instr.mayWriteRegisters : Instr → Bool
  | .chaffGap .. | .rampUpStart .. | .replay .. | .itemNop .. | .clearRetired .. | .storeImage .. | .setBoot ..
  | .storeFirmware .. | .twait .. | .tapReset | .extest .. | .idcode | .samplePreload .. | .highz | .clamp
  | .extestPulse .. | .extestTrain .. | .bypass | .smbIdent | .smbEntry | .smbStatus | .smbTemp | .regOffset ..
  | .regRead | .utxTxWord .. => false
  | _ => true

end Sys2Proof
end

