-- ==== Sys2Proof/Certificates/Slice0/Obligations.lean ====
section
/-! DEFINITION. The statements for the provers: what each command does, what commands leave alone, and what every step keeps. -/

open Sys2Proof Sys2Proof.Machine

/-- An item of these opcodes that has been started and meets its conditions takes effect: a NOP gets status 0; WIN_CLOSE closes the window and gets status 0; SCRIP_RETURN takes the units back from the window, sends them to its holder and gets status 0; LEASE_GRANULE moves a granule of the pool, starts the revocation of one that another slot holds, or gets status 0 at once for the slot that already holds it; OBJECT_SET invalidates an object or sets it and gets status 0. -/
def Obligations.WorkItemsComplete : Prop :=
  (∀ (s : State) (it : Item) (x : Started), s.openItem it 0x00 = some x →
     exec (.itemNop it) s = .next ((s.begun x).endItem x.num 0 0 0)) ∧
  (∀ (s : State) (it : Item) (x : Started), s.openItem it 0x05 = some x → it.u 0x20 1 < 64 →
     (s.window (ownerKey x.fn x.slot) (it.u 0x20 1)).state ≠ 2 →
     exec (.winClose it) s = .next (((s.begun x).closeWindow x.fn x.slot (it.u 0x20 1)).endItem x.num 0 0 0)) ∧
  (∀ (s : State) (it : Item) (x : Started), s.openItem it 0x06 = some x → it.u 0x20 1 < 64 →
     (s.window (ownerKey x.fn x.slot) (it.u 0x20 1)).state = 1 →
     (s.window (ownerKey x.fn x.slot) (it.u 0x20 1)).mode ≠ 0 →
     it.u 0x24 4 ≤ (s.window (ownerKey x.fn x.slot) (it.u 0x20 1)).outstanding →
     exec (.scripReturn it) s =
       let w := it.u 0x20 1
       let k := ownerKey x.fn x.slot
       let y := s.window k w
       let u := s.holderUnit y.hkind y.holder
       .next ((((s.begun x).setWindow k w { y with outstanding := y.outstanding - it.u 0x24 4 }).send x.fn
         { kind := 6, part := it.part, srcUnit := x.slot, dst := unitDst u.1 u.2, window := w, wgen := y.gen,
           units := it.u 0x24 4 }).endItem x.num 0 0 0)) ∧
  (∀ (s : State) (it : Item) (x : Started), s.openItem it 0x25 = some x → s.owner (it.u 0x20 1) = it.part →
     it.u 0x21 1 < 12 → s.brs.carve.any (fun e => e.1 = it.u 0x20 1 * 12 + it.u 0x21 1) = true →
     it.u 0x22 1 < 4 → s.present (it.u 0x20 1) (it.u 0x22 1) = true →
     exec (.leaseGranule it) s =
       match s.leases.find? (fun l => l.2.kind = 7 && l.2.resource = it.u 0x20 1 * 16 + it.u 0x21 1 && l.2.state ≠ 0) with
       | some (i, l) =>
         if l.state = 1 ∧ l.holder = it.u 0x20 1 * 256 + it.u 0x22 1 then .next ((s.begun x).endItem x.num 0 0 0)
         else .next ((s.begun x).quarantine i 0)
       | none => .next ((s.begun x).granuleMove (it.u 0x20 1) (it.u 0x21 1))) ∧
  (∀ (s : State) (it : Item) (x : Started), s.openItem it 0x26 = some x → it.u 0x20 1 < 64 → it.u 0x24 4 = 0 →
     exec (.objectSet it) s = .next (((s.begun x).setObj it.part (it.u 0x20 1)
       { base := 0, size := 0, fn := 0, slot := 0, state := 0 }).endItem x.num 0 0 0)) ∧
  (∀ (s : State) (it : Item) (x : Started), s.openItem it 0x26 = some x → it.u 0x20 1 < 64 → it.u 0x24 4 ≠ 0 →
     s.owner (it.u 0x21 1) = it.part → it.u 0x22 1 < 4 → s.present (it.u 0x21 1) (it.u 0x22 1) = true →
     it.u 0x28 8 % 64 = 0 → it.u 0x24 4 % 64 = 0 →
     s.ownRange (it.u 0x21 1) (it.u 0x22 1) (it.u 0x28 8) (it.u 0x24 4) = true → isNear (it.u 0x28 8) = true →
     exec (.objectSet it) s = .next (((s.begun x).setObj it.part (it.u 0x20 1)
       { base := it.u 0x28 8, size := it.u 0x24 4, fn := it.u 0x21 1, slot := it.u 0x22 1, state := 1 }).endItem x.num 0 0 0))

/-- A started CORE item whose commands the teller can submit submits them in order, the last with NOTIFY and each with the item number as TAG; a COPY_OUT with a valid range, a free copy window and a free grant opens the window, grants it to the slot and submits the PUSH; a FETCH begins its reads; a WIN_OPEN with a valid range opens the window for its holder. -/
def Obligations.TransferItemsRun : Prop :=
  (∀ (s : State) (it : Item) (x : Started), s.openItem it 0x01 = some x → s.canSubmit x it.cmdCount = true →
     exec (.core it) s = .next ((((List.range it.cmdCount).foldl (fun st i =>
         st.submit x.fn x.slot (tellerWord x.num (i + 1 = it.cmdCount) (it.cmd i))) (s.begun x)).modItem x.num
           (fun y => { y with cmds := [x.num % 65536] })).tellerItems x.fn x.slot)) ∧
  (∀ (s : State) (it : Item) (x : Started) (src w g : Nat), s.openItem it 0x02 = some x → s.canSubmit x 1 = true →
     s.objRange x (it.u 0x20 2) (it.u 0x28 8) (it.u 0x38 4) = some src → s.freeCopy it.part = some w →
     s.freeGrant (coreHolder x.fn x.slot) = some g →
     exec (.copyOut it) s =
       let base := (0xE0 + it.part) * 2 ^ 40 + w * 2 ^ 34
       let len := it.u 0x38 4
       let y := s.part it.part
       let t := (s.begun x).setPart it.part { y with copyWins := y.copyWins ++ [(w, it.u 0x30 8, len, x.num, len)] }
       let t := t.setGrant (coreHolder x.fn x.slot) g
         { base := base, size := len, scrip := 512, total := 512, state := 1, window := w, ownerFn := s.anchor, ownerSlot := 5 }
       let t := t.submit x.fn x.slot ⟨BitVec.ofNat 64 (5 + 2 ^ 8 + x.num % 65536 * 2 ^ 16), BitVec.ofNat 64 src,
         BitVec.ofNat 64 base, BitVec.ofNat 64 len⟩
       .next ((t.modItem x.num (fun z =>
         { z with cmds := [x.num % 65536], copyWin := some w, detail := 0xFF })).tellerItems x.fn x.slot)) ∧
  (∀ (s : State) (it : Item) (x : Started), s.openItem it 0x03 = some x →
     exec (.fetch it) s = .next ((s.begun x).fetchPump x.num)) ∧
  (∀ (s : State) (it : Item) (x : Started) (base : Nat), s.openItem it 0x04 = some x →
     s.leases.any (fun l => l.2.state = 2 && l.2.hkind = 5 && l.2.holder = it.u 0x2C 2) = false →
     s.objRange x (it.u 0x28 2) (it.u 0x30 8) (it.u 0x24 4) = some base → it.u 0x20 1 < 64 →
     windowForm base (it.u 0x24 4) (it.u 0x22 2) (it.u 0x21 1) = true → s.ownRange x.fn x.slot base (it.u 0x24 4) = true →
     isNear base = true → s.holderAllowed it.part (it.u 0x2A 1) (it.u 0x2C 2) = true →
     ((s.begun x).openWindow x.fn x.slot (it.u 0x20 1) base (it.u 0x24 4) (it.u 0x22 2) (it.u 0x21 1) (it.u 0x2A 1)
       (it.u 0x2C 2) (it.u 0x38 8)).2 = true →
     exec (.winOpen it) s = .next ((s.begun x).openWindow x.fn x.slot (it.u 0x20 1) base (it.u 0x24 4) (it.u 0x22 2)
       (it.u 0x21 1) (it.u 0x2A 1) (it.u 0x2C 2) (it.u 0x38 8)).1)

/-- A partition power command whose partition is in the state that admits it takes effect, from a control queue and from a management queue alike: START of an OFF partition and WAKE of a RETAINED one begin its rise and queue its switch-ons; STOP and PART_RESET of a partition that is neither OFF nor FALLING take it down with cause 1 and 2; RETAIN of an ON partition begins the drain with its timeout. -/
def Obligations.PartitionCommandsRun : Prop :=
  (∀ (s : State) (it : Item) (x : Started), s.openItem it (if it.managed then 0x42 else 0x100) = some x →
     targetPart it < 16 → (s.part (targetPart it)).defined = true → s.brs.testMode = false → s.partMoving (targetPart it) = false →
     s.partState (targetPart it) = 0 → s.hotFields (targetPart it) = false → s.rb Reg.AXB_CFG_STATUS 8 = true →
     exec (.partStart it) s =
       let t := ((s.begun x).beginRise (targetPart it) true).queueOns (targetPart it)
       .next (t.setPart (targetPart it) { t.part (targetPart it) with cmd := some x.num })) ∧
  (∀ (s : State) (it : Item) (x : Started), s.openItem it (if it.managed then 0x43 else 0x20) = some x →
     targetPart it < 16 → (s.part (targetPart it)).defined = true → s.partState (targetPart it) ≠ 0 → s.partState (targetPart it) ≠ 4 →
     exec (.partStop it) s = .next ((s.begun x).takeDown (targetPart it) 1 0 (some x.num))) ∧
  (∀ (s : State) (it : Item) (x : Started), s.openItem it (if it.managed then 0x46 else 0x23) = some x →
     targetPart it < 16 → (s.part (targetPart it)).defined = true → s.partState (targetPart it) ≠ 0 → s.partState (targetPart it) ≠ 4 →
     exec (.partReset it) s = .next ((s.begun x).takeDown (targetPart it) 2 0 (some x.num))) ∧
  (∀ (s : State) (it : Item) (x : Started), s.openItem it (if it.managed then 0x44 else 0x21) = some x →
     targetPart it < 16 → (s.part (targetPart it)).defined = true → s.partMoving (targetPart it) = false → s.partState (targetPart it) = 2 →
     exec (.partRetain it) s =
       let t := (s.begun x).wf (Reg.PWR_PART_STATE (targetPart it)) 31 24 0
       .next ((t.setPart (targetPart it) { t.part (targetPart it) with
         cmd := some x.num, drainAt := some (t.now + t.drainNs) }).retainOn (targetPart it))) ∧
  (∀ (s : State) (it : Item) (x : Started), s.openItem it (if it.managed then 0x45 else 0x22) = some x →
     targetPart it < 16 → (s.part (targetPart it)).defined = true → s.partMoving (targetPart it) = false → s.partState (targetPart it) = 3 →
     exec (.partWake it) s =
       let t := ((s.begun x).beginRise (targetPart it) false).queueOns (targetPart it)
       .next (t.setPart (targetPart it) { t.part (targetPart it) with cmd := some x.num })) ∧
  (∀ (s : State) (p due : Nat), (s.part p).drainAt = some due → ((s.until due).part p).drainAt ≠ none →
     exec (.retainDrainTimeout p) s =
       let t := ((s.until due).partFields p).foldl (fun st fn => (List.range 4).foldl (fun st k =>
         if st.isFull fn && st.present fn k then (st.flushCore fn k).abandonSlot fn k 3 else st) st) (s.until due)
       .next ((t.wf (Reg.PWR_PART_STATE p) 31 24 2).retainDone p))

/-- While a partition is FALLING, a further STOP or PART_RESET of it only completes with DONE (status 0), in a control queue and in a management queue alike; a START, a WAKE or a RETAIN is refused: PWR_PART_STATE.STATUS 1 and BUSY (status 1 of a management queue, 0x0D of a control queue). -/
def Obligations.RepeatedStopStands : Prop :=
  ∀ (s : State) (it : Item) (x : Started), targetPart it < 16 → (s.part (targetPart it)).defined = true →
    s.partState (targetPart it) = 4 →
    (s.openItem it (if it.managed then 0x43 else 0x20) = some x →
      exec (.partStop it) s = .next ((s.begun x).endCmd x.num 0 0 0)) ∧
    (s.openItem it (if it.managed then 0x46 else 0x23) = some x →
      exec (.partReset it) s = .next ((s.begun x).endCmd x.num 0 0 0)) ∧
    (s.openItem it (if it.managed then 0x42 else 0x100) = some x → s.brs.testMode = false →
      exec (.partStart it) s = .next (((s.begun x).wf (Reg.PWR_PART_STATE (targetPart it)) 31 24 1).endCmd x.num 1 0xD 0)) ∧
    (s.openItem it (if it.managed then 0x45 else 0x22) = some x →
      exec (.partWake it) s = .next (((s.begun x).wf (Reg.PWR_PART_STATE (targetPart it)) 31 24 1).endCmd x.num 1 0xD 0)) ∧
    (s.openItem it (if it.managed then 0x44 else 0x21) = some x →
      exec (.partRetain it) s = .next (((s.begun x).wf (Reg.PWR_PART_STATE (targetPart it)) 31 24 1).endCmd x.num 1 0xD 0))

/-- A started management command whose conditions hold takes effect: CLEAR_RETIRED empties the retired map of the flash; SET_BOOT writes the boot record; STORE_FIRMWARE writes a verified firmware to the copy that did not boot and boots it next; STORE_IMAGE writes an image that verifies to a slot; RECOUPLE returns a FREE field with a locked neighbour to LOCKED; each gets status 0. MODULE_RESET resets the module with CAUSE 3. -/
def Obligations.MaintenanceCommandsRun : Prop :=
  (∀ (s : State) (it : Item) (x : Started), s.openItem it 0x48 = some x → s.rf Reg.AXB_REVISION 7 0 ≠ 5 →
     exec (.clearRetired it) s =
       .next (((s.begun x).setFlash { s.car.flash with retireLo := 0, retireHi := 0 }).endItem x.num 0 0 0)) ∧
  (∀ (s : State) (it : Item) (x : Started), s.openItem it 0x4A = some x → it.u 0x20 1 ≤ 1 → it.u 0x21 1 ≤ 3 →
     it.u 0x22 1 = 0xF → s.car.flash.slots.any (fun e => e.1 = it.u 0x21 1) = true →
     exec (.setBoot it true) s = .next (((s.begun x).setFlash
       { s.car.flash with bootBytes := bootRecord (it.u 0x20 1) (it.u 0x21 1) 0xF }).endItem x.num 0 0 0)) ∧
  (∀ (s : State) (it : Item) (img : FwImage) (x : Started), s.openItem it 0x4B = some x → s.canDma 0 = true →
     s.brs.recovery = false → s.rf Reg.AXB_BOOT_STATUS 0 0 = 0 → img.bytes.length ≤ it.u 0x30 8 →
     s.car.fuses.seriesOf (some img) ≠ 0 →
     exec (.storeFirmware it img true) s = .next (((s.begun x).setFlash { s.car.flash with
       fwB := some img, bootBytes := bootRecord 1 s.car.flash.record.2.1 s.car.flash.record.2.2.1 }).endItem x.num 0 0 0)) ∧
  (∀ (s : State) (it : Item) (img : Image) (x : Started), s.openItem it 0x49 = some x → s.canDma 0 = true →
     it.u 0x20 1 ≤ 3 → s.activeSlot (it.u 0x20 1) = false → img.size ≤ it.u 0x30 8 → it.u 0x30 8 ≤ 0x7F000000 →
     firstErr [s.headerErr img, s.dirErr img, s.keyErr img] = none →
     exec (.storeImage it img true) s = .next (((s.begun x).putSlot (it.u 0x20 1) (some img)).endItem x.num 0 0 0)) ∧
  (∀ (s : State) (it : Item) (x : Started), s.openItem it 0x47 = some x → Config.sitePresent (it.u 0x20 1) = true →
     x.item = it → s.brs.indep = false → s.powered (it.u 0x20 1) = true → s.tbsState (it.u 0x20 1) = 3 →
     (List.range 4).any (fun p => s.portUp (it.u 0x20 1) p &&
       (Config.neighbour (it.u 0x20 1) p).any (fun n => s.tbsState n = 2 || n = s.anchor)) = true →
     exec (.recouple it true) s =
       let fn := it.u 0x20 1
       let t := (s.begun x).setField fn { s.field fn with retrainUntil := s.now + 4000 }
       let t := (t.nodeEnter fn 2).setb (Reg.TBS_EVENT fn) 1
       .next (t.tbsUpdate.endItem x.num 0 0 0)) ∧
  (∀ (s : State) (it : Item) (x : Started), s.openItem it 0x4E = some x →
     exec (.moduleReset it) s = .next ((s.begun x).moduleReset 3))

/-- A started REVOKE_KEY with both slot fields equal, a live key left and no load running revokes the key slot and no other: the fuse map, the other slots and the minimum SVNs stay; AXB_KEY_STATE shows the revoked slots; a started RAISE_SVN with a value above the present minimum and at most 63 raises the minimum of that slot to exactly the value and leaves the other slots; AXB_KEY_SVN shows it. Both get status 0. -/
def Obligations.FuseCommandsBlow : Prop :=
  (∀ (s : State) (it : Item) (x : Started), s.openItem it 0x4C = some x → it.u 0x20 1 ≤ 3 → it.u 0x21 1 = it.u 0x20 1 →
     (s.car.fuses.revoke (it.u 0x20 1)).liveKeys ≠ [] → s.loading = false →
     ∃ t : State, exec (.revokeKey it true) s = .next t ∧
       (∀ k, t.car.fuses.revoked.testBit k = (s.car.fuses.revoked.testBit k || k == it.u 0x20 1)) ∧
       t.car.fuses = { s.car.fuses with revoked := t.car.fuses.revoked } ∧ t.car.flash = s.car.flash ∧ t.mem = s.mem ∧
       t = (((s.begun x).setFuses t.car.fuses).wf Reg.AXB_KEY_STATE 11 8 (t.car.fuses.revoked % 16)).endItem x.num 0 0 0) ∧
  (∀ (s : State) (it : Item) (x : Started), s.openItem it 0x4D = some x → it.u 0x20 1 ≤ 3 →
     tget 0 s.car.fuses.svn (it.u 0x20 1) < it.u 0x21 1 → it.u 0x21 1 ≤ 63 → s.loading = false →
     ∃ t : State, exec (.raiseSvn it true) s = .next t ∧
       (∀ k, tget 0 t.car.fuses.svn k = if k = it.u 0x20 1 then it.u 0x21 1 else tget 0 s.car.fuses.svn k) ∧
       t.car.fuses = { s.car.fuses with svn := t.car.fuses.svn } ∧ t.car.flash = s.car.flash ∧ t.mem = s.mem ∧
       t = (((s.begun x).setFuses t.car.fuses).wf Reg.AXB_KEY_SVN (8 * it.u 0x20 1 + 7) (8 * it.u 0x20 1)
         (it.u 0x21 1)).endItem x.num 0 0 0)

/-- With no load running and every partition OFF, LOAD_SLOT of a filled slot checks its image and either commits it as the full build or fails with the first error found. LOAD_BITSTREAM of a PARTIAL image from the host, and LOAD_PARTIAL from a partition, whose partition is OFF or RETAINED and whose image passes its checks, commit it: it becomes the source of the partition, its pace groups and tags take effect, AXB_CFG_STATUS names the partition and the partition begins its rise. REBIND of the image of the active build sets BOUND. The second pass of a field writes its frames and registers; a transit field takes its frames and routes. -/
def Obligations.LoadCommandsRun : Prop :=
  (∀ (s : State) (it : Item) (x : Started) (k : Nat) (img : Image), s.openItem it 0x40 = some x → s.brs.testMode = false →
     it.u 0x20 1 ≤ 3 → s.car.flash.slots.find? (fun e => e.1 = it.u 0x20 1) = some (k, img) → s.loading = false →
     (∀ p < 16, s.partState p = 0) →
     exec (.loadSlot it) s = .next (match (s.begun x).fullErr img with
       | none => (s.begun x).commitFull img (k + 1) (some x.num)
       | some e => ((s.begun x).refuseLoad (some x.num) e).loadNotice (imgBuild img))) ∧
  (∀ (s : State) (it : Item) (x : Started) (img : Image), s.openItem it 0x41 = some x → s.brs.testMode = false →
     s.canDma 0 = true → img.size ≤ it.u 0x30 8 → s.loading = false →
     (it.u 0x20 1 % 2 = 0 → imgKind img = 2 → imgPart img < 16 → (s.partState (imgPart img) = 0 ∨ s.partState (imgPart img) = 3) →
       s.partialErr img none = none →
       exec (.loadBitstream it img) s = .next ((s.begun x).commitPartial img (imgPart img) (some x.num))) ∧
     (it.u 0x20 1 % 2 = 1 → firstErr [s.headerErr img, s.dirErr img, setErr img, s.keyErr img] = none → imgKind img = 1 →
       imgBuild img = s.rn Reg.AXB_CFG_BUILD → s.rn Reg.AXB_CFG_BUILD ≠ 0 →
       exec (.loadBitstream it img) s = .next ((State.setb { s.begun x with brs := { s.brs with image := some img } }
         Reg.AXB_CFG_STATUS 8).endCmd x.num 0 0 0)) ∧
     (it.u 0x20 1 % 2 = 0 → imgKind img ≠ 2 → (∀ p < 16, s.partState p = 0) →
       exec (.loadBitstream it img) s = .next (match (s.begun x).fullErr img with
         | none => (s.begun x).commitFull img 8 (some x.num)
         | some e => ((s.begun x).refuseLoad (some x.num) e).loadNotice (imgBuild img)))) ∧
  (∀ (s : State) (it : Item) (x : Started) (img : Image), s.openItem it 0x24 = some x → s.canDma (it.part + 1) = true →
     img.size ≤ it.u 0x30 8 → s.loading = false → it.part < 16 → (s.partState it.part = 0 ∨ s.partState it.part = 3) →
     s.partialErr img (some it.part) = none →
     exec (.loadPartial it img) s = .next ((s.begun x).commitPartial img it.part (some x.num))) ∧
  (∀ (s : State) (fn : Nat), s.brs.toLoad.any (fun t => t.fn = fn) = true → s.isFull fn = true →
     s.rb Reg.AXB_CFG_STATUS 8 = true →
     exec (.fieldFramesWrite fn 0) s = .next (s.loadField fn)) ∧
  (∀ (s : State) (fn : Nat), (s.field fn).listed = true → (s.field fn).part = 0xFF → (s.field fn).power = .base →
     (s.field fn).joined = true → s.rb (Reg.FLD_CFG_STATUS fn) 31 = false → s.rb Reg.AXB_CFG_STATUS 8 = true →
     exec (.transitFieldWrite fn 0) s = .next ((List.range 16).foldl (fun st p => st.riseOn p)
       (((s.takeFrames fn (s.section 0x13 fn)).loadRoutes fn).fieldCommitted fn)))

/-- A command written to the submission registers of a core that its teller may write, that is not in a flush and whose intake is not full goes to the tail of the intake queue with the opcode of its row in bits 7:0 of word 0 and the next number; the four submission registers hold its words. A command that meets a full intake or a flush is lost: STATUS[6] or STATUS[7] is set and the intake stays. -/
def Obligations.CoreCommandsSubmit : Prop :=
  ∀ (s : State) (fn k : Nat) (w : CmdWords) (op : Nat) (row : Nat → Nat → CmdWords → Instr),
    (op, row) ∈ ([(0x00, .nop), (0x01, .loadW), (0x02, .run), (0x03, .mint), (0x04, .mv), (0x05, .push), (0x08, .paceMark), (0x09, .rampUp), (0x0A, .signal), (0x0B, .wait)] : List (Nat × (Nat → Nat → CmdWords → Instr))) →
    s.slotReason (.teller fn k) fn k = none →
    let v := { w with w0 := withBits w.w0 7 0 op }
    let t := (((s.wr (Reg.GZC_CMD_W fn k 0) v.w0).wr (Reg.GZC_CMD_W fn k 1) v.w1).wr (Reg.GZC_CMD_W fn k 2) v.w2).wr
      (Reg.GZC_CMD_W fn k 3) v.w3
    let c := s.core fn k
    ((c.flushAt.isSome = false → c.intake.length < 32 →
      exec (row fn k w) s = .next (t.putCore fn k
        { c with intake := c.intake ++ [{ num := c.nextNum, w := v }], nextNum := c.nextNum + 1 })) ∧
    (c.flushAt.isSome = false → 32 ≤ c.intake.length → exec (row fn k w) s = .next (t.setb (Reg.GZC_STATUS fn k) 6)) ∧
    (c.flushAt.isSome = true → exec (row fn k w) s = .next (t.setb (Reg.GZC_STATUS fn k) 7)))

/-- When the core is usable and nothing in the ordering rules holds the head of the intake: a head that passes the intake checks moves to the tail of the queue of its class (a NOP and a RAMP_UP, which do nothing more, retire at once); a head that fails one of them stays where it is, a retirement record with the status of the check is posted, the core halts and the error registers name it. -/
def Obligations.CommandIssueRuns : Prop :=
  ∀ (s : State) (fn k : Nat) (x : Cmd) (rest : List Cmd), let c := s.core fn k
    c.intake = x :: rest → s.isFull fn = true → s.present fn k = true → ¬(s.halted fn k = true) → c.flushAt = none → c.held = false → c.unrepairable = false → c.shareAt = none →
    s.rb (Reg.GZC_CS_STATUS fn k) 30 = false → c.ctrl.any (fun y => y.w.op = 0x0B) = false →
    (x.w.barrier = true → c.feed = [] ∧ c.mint = [] ∧ c.mv = [] ∧ c.push = [] ∧ c.ctrl = []) →
    (c.queue (classOf x.w.op)).length < 4 →
    let r := s.intakeCheck fn k x.w
    ((r.1 = none → exec (.commandIssue fn k) s =
      let t := r.2.2.issueHead fn k x rest r.2.1
      .next (if x.w.op = 0 ∨ x.w.op = 9 then (t.ctrlTail fn k).retire fn k 4 else t)) ∧
    (∀ status detail, r.1 = some (status, detail) → c.retire.length < 64 →
      exec (.commandIssue fn k) s =
        let t := r.2.2.setCore fn k { r.2.2.core fn k with haltHead := true }
        .next ((t.postRecord fn k x.w status).halt fn k x.w status detail)))

/-- The oldest command of a class whose tail has passed retires: it leaves its queue, GZC_RETIRED counts it, and it posts a record where it asks for one. The timeout of the WAIT at the head advances the time to its expiry, marks it and sends the cancel. The teller of the slot takes the oldest record of the retirement FIFO with a 64-bit read; an empty FIFO reads 0xFF0000, and another reader gets 0 and takes nothing. -/
def Obligations.RetirementRuns : Prop :=
  (∀ (s : State) (fn k cls : Nat) (x : Cmd) (rest : List Cmd), cls < 4 → s.isFull fn = true →
     (s.core fn k).flushAt = none → (s.core fn k).queue cls = x :: rest → x.tail = true → x.status = 0 → x.first = none →
     (x.w.notify = true → (s.core fn k).retire.length < 64) →
     exec (.commandRetirement fn k cls) s =
       let c := s.core fn k
       let c := { (c.setQueue cls rest) with
         params := c.params.filter (fun p => p.num ≠ x.num), vbuf := c.vbuf.filter (fun v => v.1 ≠ x.num) }
       let t := ((s.setCore fn k c).add (Reg.GZC_RETIRED fn k) 63 0 1).retireEffect fn k cls x
       let t := if x.w.notify then t.postRecord fn k x.w 0 else t
       .next (((t.refresh fn k).ctrlHead fn k).retainOn (s.owner fn))) ∧
  (∀ (s : State) (fn k e : Nat) (x : Cmd) (rest : List Cmd), (s.core fn k).ctrl = x :: rest → x.expiry = some e →
     x.w.op = 0x0B → x.result = none → x.sent = 1 →
     exec (.waitTimeout fn k) s =
       let t := s.until e
       .next ((t.setCore fn k ((t.core fn k).modCmd 4 x.num (fun y => { y with sent := 2 }))).cancelWait
         (8192 + fn * 4 + k) x.w.tally e)) ∧
  (∀ (s : State) (who : Who) (fn k : Nat), s.slotReason who fn k = none →
     (who ≠ .teller fn k → exec (.retireRead who fn k) s = .next (s.answer 0)) ∧
     (who = .teller fn k → (s.core fn k).retire = [] → exec (.retireRead who fn k) s = .next (s.answer 0xFF0000)) ∧
     (∀ v t, who = .teller fn k → (s.core fn k).retire = v :: t →
       exec (.retireRead who fn k) s =
         .next (((s.putCore fn k { s.core fn k with retire := t }).noteRecord fn k v).answer v.toNat)))

/-- In a core that is present in a FULL field, not in a flush and not held, a BEAT advances the one stage it names: the generation of one row, the beat slot of one row feeder (a chaff slot where the feeder holds no real token), one column of the tree, one accumulator column, a parameter set, the mint, the drain, the beat slot of the MV engine, or a tap with its island, which takes the oldest word of its FIFO. A vector in the drain goes to the store and ends its command if it was the last. LATCH_WINDOW latches the weights of a LOAD_W whose marker has reached every row: the rows of its mask, the subscales and the shift come into force and the command may retire. ESCAPE_TABLE_LOAD loads the table of a LOAD_W in FEED that needs one while no table is held. -/
def Obligations.BeatsAdvanceOneStage : Prop :=
  (∀ (s : State) (fn k : Nat), s.isFull fn = true → s.present fn k = true → (s.core fn k).flushAt = none →
     (s.core fn k).held = false →
     (∀ r, exec (.beat fn k (.gen r)) s = .next ((s.genBeat fn k r).refresh fn k)) ∧
     (∀ r, r < 32 → exec (.beat fn k (.row r)) s = .next (s.rowSlot fn k r)) ∧
     (∀ r, 32 ≤ r → exec (.beat fn k (.row r)) s = .next s) ∧
     (∀ j, exec (.beat fn k (.tree j)) s = .next (s.treeBeat fn k j)) ∧
     (∀ j, exec (.beat fn k (.accum j)) s = .next (s.accumBeat fn k j)) ∧
     exec (.beat fn k .param) s = .next (s.paramBeat fn k) ∧
     exec (.beat fn k .mint) s = .next (s.mintBeat fn k) ∧
     exec (.beat fn k .drain) s = .next (s.drainBeat fn k) ∧
     exec (.beat fn k .mv) s = .next (s.mvSlot fn k) ∧
     ((s.core fn k).hasReal 32 = false → exec (.beat fn k .mv) s =
       .next ((List.range (s.mvSlices fn k)).foldl (fun st i => st.chaffBeat fn k (i + 32)) s)) ∧
     (∀ w q, (s.island fn k).outq = w :: q → (s.island fn k).rstLow = false →
       exec (.beat fn k .pfOut) s =
         .next ((s.setIsl fn k { s.island fn k with outq := q }).emit (.island fn k 1 w))) ∧
     (∀ w q, (s.island fn k).pmq = w :: q → (s.island fn k).rstLow = false → w.fin = none →
       exec (.beat fn k .pmOut) s =
         .next ((s.setIsl fn k { s.island fn k with pmq := q }).emit (.island fn k 2 w.words)))) ∧
  (∀ (s : State) (fn k r : Nat), let c := s.core fn k
     let d := if c.slotRows.contains r then { c with slotRows := [r], slotReal := false } else { c with slotRows := c.slotRows ++ [r] }
     c.hasReal r = false → s.rowSlot fn k r = (s.setCore fn k d).chaffBeat fn k r) ∧
  (∀ (s : State) (fn k : Nat) (v : Minted) (x : Cmd), s.isFull fn = true → s.present fn k = true →
     (s.core fn k).flushAt = none → (s.core fn k).held = false → (s.core fn k).drain = some v → v.remote = false →
     (s.core fn k).mint.find? (fun y => y.num = v.num) = some x → x.conv = true →
     exec (.beat fn k .drain) s =
       let t := (byteRuns v.addr v.bytes).foldl (fun st r => st.coreWrite fn k r.1 r.2) s
       let c := ({ t.core fn k with drain := none }).modCmd 1 v.num (fun y => { y with tail := true })
       .next ((t.putCore fn k c).add (Reg.GZC_MINT_VECTORS fn k) 63 0 1)) ∧
  (∀ (s : State) (fn k : Nat) (x : Cmd), tableWf (fun _ => ({} : CoreSt)) s.cores = true → let c := s.core fn k
     let subs := (List.range (s.rows fn k)).flatMap (fun r => match (c.row r).q with
       | .load _ _ l :: _ => l
       | _ => [])
     c.feed.find? (fun y => y.w.op = 1 && !y.tail) = some x → x.status = 0 → x.gate ≤ s.now →
     (∀ r < s.rows fn k, c.atMark x r = true) → scaleBad (x.head.getD []) = none →
     ∃ t : State, exec (.latchWindow fn k) s = .next t ∧ (t.core fn k).lw = x.num ∧ (t.core fn k).lwCmd = x.w ∧
       (t.core fn k).lwShift = sext 8 (leAt (x.head.getD []) 0 1) ∧
       (t.core fn k).subs = subs.foldl (fun m e => tput 0 m e.1 e.2) c.subs ∧
       (∀ r < s.rows fn k, x.w.lwRows.testBit r = true → ∀ w l q, (c.row r).q = .load x.num w l :: q →
         ((t.core fn k).row r).w = some w) ∧
       (∀ y ∈ (t.core fn k).feed, y.num = x.num → y.tail = true ∧ y.status = 0) ∧
       (∀ a, t.mem8 a = s.mem8 a)) ∧
  (∀ (s : State) (fn k : Nat) (x : Cmd), let c := s.core fn k
     s.isFull fn = true → c.lw = 0 → c.old = [] → c.escs = [] → c.feed = [x] → x.w.op = 1 → x.w.esc = true →
     x.w.escCount ≠ 0 →
     exec (.escapeTableLoad fn k) s =
       let n := min x.w.escCount 128
       let r := s.readEscs fn k x.w.escAddr (s.cols fn k) n 0 none {}
       let t : EscTab := { lw := x.num, entries := r.1.entries, bad := r.1.bad, poison := r.1.poison }
       .next ((r.2.putCore fn k { r.2.core fn k with escs := [t] }).add (Reg.GZC_ESC_LOADED fn k) 63 0 n))

/-- A feeder that is not quiesced, has broadcast and holds neither a real nor a weight-load token begins its chaff window with the window that FLD_CHAFF_CTL holds then; when the window ends its density ramps down from the first entry at or below the density of the gap; each entry lasts its beats, and the ramp ends with its last entry (phase 3 down, phase 0 up); a real token that meets a ramp begins the ramp up; a group of an enabled gating that has been quiesced for its delay is gated, no more than four in 10 nanoseconds, and a group whose quiescing began with gating disabled stays as it is. -/
def Obligations.RampAndChaffRun : Prop :=
  (∀ (s : State) (fn k f : Nat), let r := (s.core fn k).ramp f
     s.isFull fn = true → s.present fn k = true → f < 96 → r.phase = 0 → r.hist ≠ [] → (s.core fn k).hasReal f = false →
     (s.core fn k).loadHead f = false → s.feederQuiet fn k f = false →
     exec (.chaffGap fn k f) s = .next (s.setCore fn k ((s.core fn k).setRamp f
       { r with phase := 1, since := s.now, window := s.rf (Reg.FLD_CHAFF_CTL fn k) 20 0, slot := 0, busy := 0 }))) ∧
  (∀ (s : State) (fn k f : Nat), let r := (s.core fn k).ramp f
     r.phase = 1 →
     exec (.rampDownStart fn k f) s =
       let t := s.until (r.since + 10 * (r.window % 65536))
       let n := t.rampCount fn false
       let i := ((List.range n).find? (fun i => (t.rampEntry fn false i).1 ≤ t.rampDensity fn r)).getD (n - 1)
       .next (t.setCore fn k ((t.core fn k).setRamp f
         { r with phase := if n ≤ i + 1 then 3 else 2, entry := i, since := t.now, slot := 0, busy := 0 }))) ∧
  (∀ (s : State) (fn k f : Nat), let r := (s.core fn k).ramp f
     (r.phase = 2 →
       exec (.rampEntryAdvance fn k f) s =
         let t := s.until (r.since + 10 * (s.rampEntry fn false r.entry).2)
         let e := r.entry + 1
         .next (t.setCore fn k ((t.core fn k).setRamp f (if t.rampCount fn false ≤ e + 1
           then { r with phase := 3, entry := e, since := t.now, slot := 0, busy := 0 }
           else { r with entry := e, since := t.now, slot := 0, busy := 0 })))) ∧
     (r.phase = 4 →
       exec (.rampEntryAdvance fn k f) s =
         let t := s.until (r.since + 10 * (s.rampEntry fn true r.entry).2)
         let e := r.entry + 1
         .next (t.setCore fn k ((t.core fn k).setRamp f (if t.rampCount fn true ≤ e + 1
           then { r with phase := 0, entry := 0, since := t.now, slot := 0, busy := 0 }
           else { r with entry := e, since := t.now, slot := 0, busy := 0 }))))) ∧
  (∀ (s : State) (fn k f : Nat), let r := (s.core fn k).ramp f
     (s.core fn k).hasReal f = true → (r.phase = 2 ∨ (r.phase = 3 ∧ r.entry ≠ 0)) →
     exec (.rampUpStart fn k f) s =
       .next (s.setCore fn k ((s.core fn k).setRamp f (s.rampUp fn (s.rampDensity fn r) r)))) ∧
  (∀ (s : State) (fn k g : Nat) (q : Nat × Nat × Option Nat), (s.core fn k).quiet.find? (fun e => e.1 = g) = some q →
     s.isFull fn = true →
     (q.2.2 = none → exec (.groupGate fn k g) s = .next s) ∧
     (∀ delay, q.2.2 = some delay →
       exec (.groupGate fn k g) s =
         let t := s.until (max (q.2.1 + 1000 * delay) (((s.core fn k).gates[3]?.map (· + 10)).getD 0))
         let c := t.core fn k
         .next (t.putCore fn k { c with
           quiet := c.quiet.filter (fun e => e.1 ≠ g), gates := (t.now :: c.gates).take 4,
           gated := if c.gated.contains g then c.gated else c.gated ++ [g] })))

/-- FLUSH by a teller of the slot empties the core for 20 microseconds; RESUME of a halted core drops the refused head and clears the halt; GLEAN_CLEAR sets CLEARING, and the next beat of a mint with no command that records zeroes the bins and the counters of the gleaner and ends it; GLEAN_BIN_READ answers the bin that INDEX selects and advances INDEX modulo 1,024; CS_DIAG by the housekeeper recomputes the frozen vector of an idle core, and CS_CLEAR clears the verdict and thaws; COLUMN_RETIREMENT acts on the verdict that stands. -/
def Obligations.CoreControlsRun : Prop :=
  (∀ (s : State) (who : Who) (fn k : Nat), s.slotReason who fn k = none → Who.tellerOf who fn k = true →
     (s.core fn k).flushAt = none → (s.core fn k).ctrl.find? (fun x => x.w.op = 0x0B && x.sent = 1) = none →
     exec (.flush who fn k) s =
       let c := s.core fn k
       let n := c.intake.length + c.feed.length + c.mint.length + c.mv.length + c.push.length + c.ctrl.length
       let t := (s.tapFlush fn k).setCore fn k { c.emptied with flushAt := some (s.now + 20000), flushN := n }
       let t := if c.unrepairable then t else t.clrb (Reg.GZC_STATUS fn k) 2
       .next (((t.wn (Reg.GZC_BANK_EXP fn k) 0).wn (Reg.GZC_THRESH fn k) 0).refresh fn k)) ∧
  (∀ (s : State) (who : Who) (fn k : Nat), s.slotReason who fn k = none → Who.tellerOf who fn k = true →
     s.halted fn k = true → (s.core fn k).flushAt = none → (s.core fn k).unrepairable = false →
     exec (.resume who fn k) s =
       let c := s.core fn k
       .next ((s.clrb (Reg.GZC_STATUS fn k) 2).putCore fn k
         { c with intake := if c.haltHead then c.intake.drop 1 else c.intake, haltHead := false })) ∧
  (∀ (s : State) (who : Who) (fn k : Nat), s.slotReason who fn k = none → s.tellerOrOwner who fn k = true →
     exec (.gleanClear who fn k) s =
       .next ((s.setCore fn k { s.core fn k with clearing := true }).setb (Reg.GZC_GLEAN_CTL fn k) 9)) ∧
  (∀ (s : State) (fn k : Nat), (s.core fn k).clearing = true → (s.core fn k).gleaning = false →
     s.mintBeat fn k = s.gleanZero fn k) ∧
  (∀ (s : State) (fn k : Nat), regsWf s.regs → tableWf (fun _ => ({} : CoreSt)) s.cores = true →
     let t := s.gleanZero fn k
     t.rn (Reg.GZC_GLEAN_SEQ fn k) = 0 ∧ t.rn (Reg.GZC_GLEAN_VALUES fn k) = 0 ∧
       t.rn (Reg.GZC_GLEAN_CLIP_HI fn k) = 0 ∧ t.rn (Reg.GZC_GLEAN_CLIP_LO fn k) = 0 ∧ t.rn (Reg.GZC_GLEAN_CDOM fn k) = 0 ∧
       t.rb (Reg.GZC_GLEAN_CTL fn k) 9 = false ∧ (t.core fn k).clearing = false ∧
       (∀ a, t.mem8 a = if s.ctlBase fn k + 0x6000 ≤ a ∧ a < s.ctlBase fn k + 0x8000 then 0 else s.mem8 a)) ∧
  (∀ (s : State) (who : Who) (fn k : Nat), s.slotReason who fn k = none →
     exec (.gleanBinRead who fn k) s = .next ((s.answer (s.gleanBin fn k)).wf (Reg.GZC_GLEAN_INDEX fn k) 9 0
       (s.rf (Reg.GZC_GLEAN_INDEX fn k) 9 0 + 1))) ∧
  (∀ (s : State) (fn k : Nat) (f : Frozen), s.slotReason (.teller fn 3) fn k = none → (s.core fn k).frozen = some f →
     (s.core fn k).idle = true → (s.core fn k).flushAt = none → s.rb (Reg.GZC_CS_STATUS fn k) 31 = true →
     s.rb (Reg.GZC_CS_STATUS fn k) 29 = false →
     exec (.csDiag (.teller fn 3) fn k) s = .next (if f.complete = false ∨ f.run.rowMask &&& f.load.lwRows ≠ f.run.rowMask
       then s.csVerdict fn k 6 0xFF else s.diagnose fn k f)) ∧
  (∀ (s : State) (fn k : Nat), regsWf s.regs → tableWf (fun _ => ({} : CoreSt)) s.cores = true →
     s.slotReason (.teller fn 3) fn k = none →
     ∃ t : State, exec (.csClear (.teller fn 3) fn k) s = .next t ∧ (t.core fn k).frozen = none ∧
       t.rn (Reg.GZC_CS_STATUS fn k) = 0xFF00 ∧ t.rn (Reg.GZC_CS_FIRST fn k) = 0 ∧ t.rn (Reg.GZC_CS_RESID fn k) = 0 ∧
       t.rn (Reg.GZC_CS_DIAG fn k) = 0 ∧ t.rn (Reg.GZC_MV_CS_FIRST fn k) = 0 ∧ t.rn (Reg.GZC_MV_CS_RESID fn k) = 0 ∧
       t.rb (Reg.GZC_MV_STATUS fn k) 31 = false ∧ t.mem = s.mem) ∧
  (∀ (s : State) (fn k : Nat), s.isFull fn = true → s.present fn k = true → (s.field fn).hkUp = true →
     (s.core fn k).unrepairable = false → (s.core fn k).flushAt = none →
     (∀ f, (s.core fn k).frozen = some f → s.rb (Reg.GZC_CS_STATUS fn k) 29 = true →
       exec (.columnRetirement fn k) s = .next (s.actOnVerdict fn k f)) ∧
     ((s.core fn k).frozen = none → s.rb (Reg.GZC_MV_STATUS fn k) 31 = true →
       exec (.columnRetirement fn k) s = .next (s.actOnMv fn k)))

/-- A message in flight is lost, each router discarding the flits it holds, where a link within it is down, and discarded where its head stands, counted in MSH_DROPPED by its flits, when it has made more than 40 hops or meets a down port. At the field of its destination the first of its buffer leaves by the local port, whose MSH_FLITS grows by its flits; a deposit that a rule holds, a message that is not the first, and one with a paused link within it close up where they stand. At another field the first of its buffer goes through the output the routes give to the next field once it has a credit there and its turn at the port, else it closes up; one that finds no lane at the next field is discarded there. -/
def Obligations.MessageHops : Prop :=
  ∀ (s : State) (i : Nat) (f : Flight), s.mesh.flights[i]? = some f →
    let t : State := { s with mesh := { s.mesh with flights := s.mesh.flights.eraseIdx i } }
    let p := s.pickPort f.loc f.inp f.msg
    (f.links s.portUp = false → exec (.messageRoute i) s = .next (State.drainCounts
      ((f.spans.filter (fun b => b.fn ≠ 0xFF)).foldl (fun st b => st.add (Reg.MSH_DROPPED b.fn) 63 0 b.n) t))) ∧
    (f.links s.portUp = true → 40 < f.hops →
      exec (.messageRoute i) s = .next ((t.drawIn f.spans).add (Reg.MSH_DROPPED f.loc) 63 0 f.msg.flits).drainCounts) ∧
    (f.links s.portUp = true → f.hops ≤ 40 → p = 4 →
      (s.leads i f = true → f.links (fun fn q => !s.linkPaused fn q) = true → (f.msg.kind = 1 → s.depositHeld f.msg = false) →
        exec (.messageRoute i) s =
          let u := (t.drawIn f.spans).add (Reg.MSH_FLITS f.loc 4) 63 0 f.msg.flits
          .next (State.drainCounts { u with mesh := { u.mesh with arrived := u.mesh.arrived ++ [f.msg] } })) ∧
      (s.leads i f = false ∨ f.links (fun fn q => !s.linkPaused fn q) = false ∨ (f.msg.kind = 1 ∧ s.depositHeld f.msg = true) →
        exec (.messageRoute i) s = .next (s.closeUp i f).drainCounts)) ∧
    (f.links s.portUp = true → f.hops ≤ 40 → p ≠ 4 → s.portUp f.loc p = false →
      exec (.messageRoute i) s = .next ((t.drawIn f.spans).add (Reg.MSH_DROPPED f.loc) 63 0 f.msg.flits).drainCounts) ∧
    (f.links s.portUp = true → f.hops ≤ 40 → p ≠ 4 → s.portUp f.loc p = true →
      (s.linkPaused f.loc p = true ∨ s.leads i f = false →
        exec (.messageRoute i) s = .next (s.closeUp i f).drainCounts) ∧
      (s.linkPaused f.loc p = false → s.leads i f = true →
        (∀ b, s.nextSpan f = some b → exec (.messageRoute i) s =
          .next (if s.mayCross i f b = true ∧ s.turn f.loc p f.msg.channel b.lane = true then (s.cross i f b).drainCounts
            else (s.closeUp i f).drainCounts)) ∧
        (s.nextSpan f = none → exec (.messageRoute i) s =
          .next ((((t.drawIn f.spans).countFlits f.loc p f.msg.flits).add
            (Reg.MSH_DROPPED ((Config.neighbour f.loc p).getD f.loc)) 63 0 f.msg.flits).drainCounts))))

/-- A positive acknowledgement that has arrived for a deposit in flight takes the deposit from the table of its sender, returns the units it carries, ends the use of the leases and completes the job of the sender; a negative one does the same with its status, and with status 1, 2 or 6 clears the grant where it still is the one that was used; the acknowledgement timeout closes the grant, counts in MSH_GRANT_STATUS of the core and completes the job with status 0xFF. A link replay only counts in MSH_PORT. -/
def Obligations.AnswersEndTheirDeposit : Prop :=
  (∀ (s : State) (m : Msg) (x : Sent) (r k n : Nat), m.kind = 2 → s.atDest m = true →
     s.sentOf m.tag = some x → x.grant < 64 → x.job = .record r k n →
     let t := (((s.takeArrived m).dropSent m.tag).returnUnits x m.units).endUse x.use
     exec (.ack m) s = .next ((t.jobDone x none m.units).snpPumpAll)) ∧
  (∀ (s : State) (m : Msg) (x : Sent) (r k n : Nat), m.kind = 3 → s.atDest m = true →
     s.sentOf m.tag = some x → x.grant < 64 → x.job = .record r k n →
     let t := (((s.takeArrived m).dropSent m.tag).returnUnits x m.units).endUse x.use
     let t := if (s.grantOf x.holder x.grant).same x.use = true ∧ (m.status = 1 ∨ m.status = 2 ∨ m.status = 6) then
         t.setGrant x.holder x.grant {} else t
     exec (.nak m) s = .next ((t.jobDone x (some m.status) m.units).snpPumpAll)) ∧
  (∀ (s : State) (tag : Nat) (x : Sent), s.sentOf tag = some x → x.grant < 64 →
     exec (.ackTimeout tag) s =
       let t := s.until (x.time + 1000 * s.rf (Reg.MSH_CTL (s.sentField x)) 15 0)
       let g := t.grantOf x.holder x.grant
       let t := t.dropSent tag
       let t := (if g.state = 1 ∧ g.same x.use = true then t.setGrant x.holder x.grant { g with state := 2 } else t).endUse x.use
       let t := if x.holder < 400 then t.addSat (Reg.MSH_GRANT_STATUS (x.holder / 4) (x.holder % 4)) 31 0 1 else t
       .next (t.jobDone x (some 0xFF) 0)) ∧
  (∀ (s : State) (fn p : Nat), p < 4 → s.portUp fn p = true →
     exec (.linkReplay fn p) s = .next (s.wf (Reg.MSH_PORT fn p) 31 0 (s.rf (Reg.MSH_PORT fn p) 31 0 + 1)))

/-- A deposit into the near region of a core that has arrived and that no rule holds is compared with the window that contains its range: where nothing is wrong the data go to the addressed range, every byte beside them stays, the window counts them and an acknowledgement goes to the sender; otherwise nothing is stored, the refusal is counted and a negative acknowledgement with the reason and all the units goes to the sender. -/
def Obligations.DepositsAreStoredAndAnswered : Prop :=
  (∀ (s : State) (m : Msg), m.kind = 1 → s.atDest m = true → s.depositHeld m = false →
     addrFn m.dst < 0xC0 → isNear m.dst = true →
     exec (.deposit m) s = .next ((s.takeArrived m).depositAt (addrFn m.dst) ((addrOff m.dst - 0x100000000) / 0x400000) m)) ∧
  (∀ (s : State) (fn k : Nat) (m : Msg) (x : Window) (w : Nat), k < 4 → isNear m.dst = true →
     (List.range 64).find? (fun i => (s.window (ownerKey fn k) i).state ≠ 0 &&
       inRange (s.window (ownerKey fn k) i).base (s.window (ownerKey fn k) i).size m.dst (64 * m.len) &&
       s.isHolder (s.window (ownerKey fn k) i) m) = some w →
     x = s.window (ownerKey fn k) w →
     (s.depositFault x m = none →
       s.depositAt fn k m =
         let units := if x.mode = 0 then m.len else 0
         ((s.setWindow (ownerKey fn k) w
           { x with outstanding := x.outstanding + m.len - units, deposited := x.deposited + 64 * m.len }).store
             m.dst m.data).depositReply fn k m 2 0 units) ∧
     (∀ r, s.depositFault x m = some r →
       s.depositAt fn k m = ((s.setWindow (ownerKey fn k) w { x with refused := satN 32 (x.refused + 1) }).addSat
         (Reg.MSH_WIN_STATUS fn k) 31 0 1).depositReply fn k m 3 r m.len))

/-- A grant that has arrived for a core fills the lowest free slot of its grant table with the range, the units and the window it carries, and bit 63 of MSH_GRANT_STATUS marks one that overlaps a grant held; a close clears every grant of that window; a return of units adds them to the grants of the window with the same generation; the end of the drain of a closing window releases its leases. -/
def Obligations.GrantMessagesRun : Prop :=
  (∀ (s : State) (m : Msg) (g : Nat), m.kind = 4 → s.atDest m = true → m.dstUnit < 4 → s.sentOf m.tag = none →
     let h := coreHolder m.dstFn m.dstUnit
     (List.range (grantCount h)).find? (fun i => (s.grantOf h i).state = 0) = some g →
     exec (.grant m) s =
       let t := (s.takeArrived m).setGrant h g
         { base := m.a, size := m.b, scrip := m.c, total := m.c, state := 1, window := m.window, wgen := m.wgen,
           ownerFn := m.srcFn, ownerSlot := grantSlot m, mode := m.d }
       .next (if (List.range 64).any (fun i => (s.grantOf h i).state = 1 &&
           rangesMeet (s.grantOf h i).base (s.grantOf h i).size m.a m.b) ∧ h < 400
         then t.setb (Reg.MSH_GRANT_STATUS (h / 4) (h % 4)) 63 else t)) ∧
  (∀ (s : State) (m : Msg), m.kind = 5 → s.atDest m = true → m.dstUnit < 4 →
     exec (.close m) s =
       let h := coreHolder m.dstFn m.dstUnit
       .next (((s.grantsOfWindow h m).foldl (fun st g => st.setGrant h g {}) (s.takeArrived m)).dmaPump)) ∧
  (∀ (s : State) (m : Msg), m.kind = 6 → s.atDest m = true → m.dstUnit < 4 →
     exec (.scrip m) s =
       let h := coreHolder m.dstFn m.dstUnit
       .next (((s.grantsOfWindow h m).foldl (fun st g =>
         let x := st.grantOf h g
         if x.state = 1 && x.wgen = m.wgen then st.setGrant h g { x with scrip := x.scrip + m.units } else st)
         (s.takeArrived m)).dmaPump.snpPumpAll)) ∧
  (∀ (s : State) (k w : Nat), (s.window k w).closing = true →
     exec (.windowLeaseRelease k w) s =
       let t := s.until (s.window k w).due
       let x := t.window k w
       let free (u : State) (i : Nat) : State := if (u.lease i).state = 2 then u else u.releaseLease i
       .next ((free (free t x.lease) x.poolLease).setWindow k w { x with closing := false })) ∧
  (∀ (s : State) (fn k g : Nat) (x : Cmd) (rest : List Cmd), let h := coreHolder fn k
     let n := min (min (x.w.length - x.sent) (2048 - x.sent % 2048)) (64 * (s.grantOf h g).total)
     (s.core fn k).push = x :: rest → s.isFull fn = true → (s.core fn k).flushAt = none → x.status = 0 →
     x.sent < x.w.length → x.w.dst % 64 = 0 → s.pushGrant fn k x = some g → n ≠ 0 →
     n / 64 ≤ (s.grantOf h g).scrip → (s.coreRead fn k (x.w.src + x.sent) n).2.1 = none →
     exec (.pushMessage fn k) s =
       let r := s.coreRead fn k (x.w.src + x.sent) n
       let t := r.2.2.putCore fn k ((r.2.2.core fn k).modCmd 3 x.num
         (fun y => { y with sent := y.sent + n, unacked := y.unacked + 1, grant := some (s.grantOf h g) }))
       .next (t.sendDeposit fn k (t.owner fn) h g (x.w.dst + x.sent) r.1 (.push fn k x.num) false))

/-- A route generation that is owed is computed over the module as it will stand without the fields being retired, written to the bank that is not in use and given a switch time at the next multiple of 20 microseconds at least 40 microseconds away; at that time the generation becomes the one in use and each field with routes takes it with its time; 10 milliseconds later every message of the old generation still in flight is dropped by the routers that hold its flits; once none is left the transit leases of the old bank end, the commit is over and the fields that waited for it are switched off. The failure of a link that is up marks both its ports failed and dead, and a new generation is owed. -/
def Obligations.RouteGenerationsRun : Prop :=
  (∀ (s : State), s.mesh.owed = true → s.mesh.commit = none → s.brs.running = true → s.brs.fields ≠ [] →
     exec .routeCommit s =
       let w := s.planned
       let r := w.newRoutes ((s.brs.fields.filter (fun e => w.usable e.1)).map (fun e => (e.1, e.2.1)))
       let bank := (s.mesh.gen + 1) % 2
       let t := s.setBank bank (w.anchorFill r)
       let t := Config.sites.foldl (fun st fn =>
         if (st.field fn).retiring = 1 then st.setField fn { st.field fn with retiring := 2 } else st) t
       let t : State := { t with mesh := { t.mesh with
         owed := false,
         commit := some { phase := 1, gen := (t.mesh.gen + 1) % 65536, tSwitch := (t.now + 40000 + 19999) / 20000 * 20000 } } }
       let t := (List.range 16).foldl (fun st p =>
         if st.partState p ≠ 0 && st.partState p ≠ 4 then st.grantTransit bank p else st) t
       .next ((w.routeless r).foldl (fun st p => st.bursarDown p 4 0 0x13 0xFF 3 0) (t.routeState 1))) ∧
  (∀ (s : State) (c : RouteCommit), s.mesh.commit = some c → c.phase = 1 →
     exec .routeSwitch s =
       let t := s.until c.tSwitch
       let t : State := { t with mesh := { t.mesh with gen := c.gen, commit := some { c with phase := 2 } } }
       let t := Config.sites.foldl (fun st fn =>
         if (st.field fn).routes then (st.loadRoutes fn).wn (Reg.MSH_ROUTE_TIME fn) c.tSwitch else st) t
       .next (t.routeState 2).drainCounts) ∧
  (∀ (s : State) (c : RouteCommit), s.mesh.commit = some c → c.phase = 2 →
     exec .routeDrainTimeout s =
       let t := s.until (c.tSwitch + 10000000)
       let u := (t.mesh.flights.filter (fun f => f.msg.gen ≠ t.genBit)).foldl (fun st f => st.dropFlits f) t
       .next (State.drainCounts
         { u with mesh := { u.mesh with flights := u.mesh.flights.filter (fun f => f.msg.gen = u.genBit) } })) ∧
  (∀ (s : State) (c : RouteCommit), s.mesh.commit = some c → c.phase = 2 →
     (∀ f ∈ s.mesh.flights, f.msg.gen = s.genBit) →
     exec .routeDrainDone s =
       let t := (s.leases.filter (fun e => e.2.kind = 2 && e.2.state = 1 && !s.bankHolds (s.mesh.gen % 2) e.2)).foldl
         (fun st e => st.releaseLease e.1) s
       let t := t.drainCounts
       let t := State.routeState { t with mesh := { t.mesh with commit := none } } 0
       .next ((Config.sites.filter (fun fn => (t.field fn).retiring = 2)).foldl (fun st fn => st.retireOff fn) t)) ∧
  (∀ (s : State) (fn p n : Nat), p < 4 → Config.neighbour fn p = some n → s.portUp fn p = true →
     exec (.linkFailure fn p) s =
       let back := (p + 2) % 4
       let t := (s.add (Reg.MSH_PORT fn p) 47 32 3).add (Reg.MSH_PORT n back) 47 32 3
       let t := State.ledgerEvent { t with mesh := { t.mesh with
         dead := t.mesh.dead ++ [fn * 4 + p, n * 4 + back], owed := true } }
       .next ((t.cutOff s).foldl (fun st f => st.retireOne f 3 3 0) t).tbsUpdate)

/-- A new value is compared with the value of the tally modulo 2^48: an advance by less than 2^47 makes it the value, wakes the waits it reaches and is forwarded, with status 0; the same value does nothing, with status 0; one at most 2^32 behind leaves the value, counts in TLY_STAT STALE and answers status 1; any other leaves the value, counts in LEAPS, raises TALLY_LEAP and answers status 2. A wait for a target is satisfied when the value stands less than 2^47 at or after it, modulo 2^48. -/
def Obligations.SignalsAdvanceTallies : Prop :=
  (∀ (s : State) (t v : Nat), let d : Int := sext 48 (v % 2 ^ 48 + 2 ^ 48 - s.tally t)
     s.tally t < 2 ^ 48 →
     (d = 0 → s.tallySignal t v = (s, 0)) ∧
     (0 < d → s.tallySignal t v =
       ((((s.advanceTally t (v % 2 ^ 48)).wakeTally t).forward t).shadowTally t, 0)) ∧
     (-(2 ^ 32) ≤ d → d < 0 → s.tallySignal t v = ((s.addSat (Reg.TLY_STAT t) 15 0 1).shadowTally t, 1)) ∧
     (d < -(2 ^ 32) → s.tallySignal t v = ((s.addSat (Reg.TLY_STAT t) 31 16 1).notice 0x2A (s.blockOwner (t / 32))
       0xFF 0xFF 0xFF t (v % 2 ^ 48), 2))) ∧
  (∀ (s : State) (t v : Nat), (s.advanceTally t v).regs = (s.wf (Reg.TLY_VALUE t) 47 0 v).regs) ∧
  (∀ (cur target : Nat), target < 2 ^ 48 → (reached cur target = true ↔ ((cur : Int) - target) % 2 ^ 48 < 2 ^ 47))

/-- A signal that has arrived at the bursar is tried on its tally if its sender may signal it, and answered with the result, or with status 3; an answer completes the signal of a core command; a wait that names a reached tally is woken with result 0 and the wafer time at which the tally reached the target, one that names an unreached tally is held, a cancel removes the wait and answers result 1, a foreign tally answers result 2; a wake for a core gives its WAIT the result; a write of TLY_VALUE by an owner is a signal; a write of TLY_STAT sets FORWARD, PORT and REMOTE and leaves its counts. -/
def Obligations.TallyCommandsRun : Prop :=
  (∀ (s : State) (m : Msg), m.kind = 0x0C → s.atDest m = true → m.dstUnit = 8 → m.dstFn = s.anchor →
     exec (.tsignal m) s =
       let r := (s.takeArrived m).tallySignal (m.a % 1024) m.b
       .next (if s.mayTally m (m.a % 1024) then r.1.tack m r.2 else (s.takeArrived m).tack m 3)) ∧
  (∀ (s : State) (m : Msg) (x : Sent) (fn k num : Nat), m.kind = 0x0D → s.atDest m = true →
     s.sentOf m.tag = some x → x.job = .signal fn k num →
     exec (.tack m) s =
       let t := (s.takeArrived m).dropSent m.tag
       .next (t.setCore fn k ((t.core fn k).modCmd 4 num (fun y => { y with result := some m.status })))) ∧
  (∀ (s : State) (m : Msg), m.kind = 0x0E → s.atDest m = true →
     let t := s.takeArrived m
     let n := m.a % 1024
     let others := s.host.waits.filter (fun w => w.who ≠ m.tag)
     (m.b % 2 = 1 → exec (.twait m) s =
       .next ((t.setWaits (s.host.waits.filter (fun w => !(w.who = m.tag && w.tally = n)))).wakeMsg m.tag n 1 s.now)) ∧
     (m.b % 2 ≠ 1 → (16 ≤ m.part ∨ s.blockOwner (n / 32) ≠ m.part) → exec (.twait m) s = .next (t.wakeMsg m.tag n 2 s.now)) ∧
     (m.b % 2 ≠ 1 → m.part < 16 → s.blockOwner (n / 32) = m.part → reached (s.tally n) m.c = true →
       exec (.twait m) s = .next ((t.setWaits others).wakeMsg m.tag n 0 (s.reachedAt n m.c))) ∧
     (m.b % 2 ≠ 1 → m.part < 16 → s.blockOwner (n / 32) = m.part → reached (s.tally n) m.c = false →
       exec (.twait m) s = .next (t.setWaits (others ++ [{ who := m.tag, tally := n, target := m.c }])))) ∧
  (∀ (s : State) (m : Msg) (x : Cmd) (rest : List Cmd), let fn := (m.tag - 8192) / 4
     let k := (m.tag - 8192) % 4
     m.kind = 0x0F → s.atDest m = true → 8192 ≤ m.tag → (s.core fn k).ctrl = x :: rest →
     x.w.op = 0x0B → x.sent ≠ 0 → x.result = none → x.w.tally = m.a → m.b = 0 → x.expiry = none →
     exec (.twake m) s = .next ((s.takeArrived m).setCore fn k
       ((s.core fn k).modCmd 4 x.num (fun y => { y with result := some 0 })))) ∧
  (∀ (s : State) (who : Who) (i v : Nat), i < 1024 → s.tallyReason who i = none → s.blockOwner (i / 32) ≠ 0xFF →
     exec (.tallyValueWrite who i v) s = .next (s.tallySignal i v).1) ∧
  (∀ (s : State) (who : Who) (i v : Nat), i < 1024 → s.tallyReason who i = none →
     (v.testBit 63 = true → s.blockOwner (i / 32) < 16 ∧ s.kvlOwner (nbits v 62 60) = s.blockOwner (i / 32)) →
     exec (.tallyStatWrite who i v) s = .next (((s.wf (Reg.TLY_STAT i) 63 63 (nbits v 63 63)).wf (Reg.TLY_STAT i) 62 60
       (nbits v 62 60)).wf (Reg.TLY_STAT i) 57 48 (nbits v 57 48)))

/-- Enabling a port that may run moves it from OFF to DETECT; a detected signal moves DETECT to LEVEL, the level lock LEVEL to ALIGN, the codeword lock ALIGN to IDENT with the lane map and polarity recorded; each only within its time bound. A bound that expires returns the port to DETECT and counts the failed attempt; every third begins a wait of 10 milliseconds, whose end lets the port try again. RESET ends after 10 microseconds in ALIGN, DETECT or OFF. -/
def Obligations.KevenlinkTrains : Prop :=
  (∀ (s : State) (who : Who) (p : Nat), let t := s.setb (Reg.KVL_CTL (Config.kvlField p)) 0
     s.kvlReason who p = none → t.kvlAllowed p = true → t.kvlState p = 0 →
     exec (.kvlEnableWrite who p) s = .next (t.kvlEnter p 1)) ∧
  (∀ (s : State) (p : Nat), p < 8 → s.kvlState p = 1 → (s.kvlPort p).backoff = none →
     exec (.signalDetected p) s = .next ((s.setKvl p { s.kvlPort p with since := s.now }).wf (Reg.KVL_STATUS (Config.kvlField p)) 2 0 2)) ∧
  (∀ (s : State) (p : Nat), p < 8 → s.kvlState p = 2 → s.now ≤ (s.kvlPort p).since + 2000000 →
     exec (.levelLock p) s = .next ((s.setKvl p { s.kvlPort p with since := s.now }).wf (Reg.KVL_STATUS (Config.kvlField p)) 2 0 3)) ∧
  (∀ (s : State) (p m v : Nat), p < 8 → s.kvlState p = 3 → s.now ≤ (s.kvlPort p).since + 1000000 →
     exec (.codewordLock p m v) s =
       let t := s.setKvl p { s.kvlPort p with seen := false, peerSeen := false, sentSeen := false, identAt := s.now }
       .next (((t.wf (Reg.KVL_STATUS (Config.kvlField p)) 19 12 m).wf (Reg.KVL_STATUS (Config.kvlField p)) 23 20 v).kvlEnter p 4)) ∧
  (∀ (s : State) (p : Nat), p < 8 → 2 ≤ s.kvlState p → s.kvlState p ≤ 4 →
     exec (.trainTimeout p) s =
       let t := s.until ((s.kvlPort p).since +
         (if s.kvlState p = 2 then 2000000 else if s.kvlState p = 3 then 1000000 else 100000))
       let r := Reg.KVL_STATUS (Config.kvlField p)
       let t := (t.addSat r 55 48 1).kvlEnter p 1
       let u := if t.rf r 55 48 = 3 then t.setb (Reg.KVL_EVENT (Config.kvlField p)) 2 else t
       .next (if t.rf r 55 48 % 3 = 0 then u.setKvl p { u.kvlPort p with backoff := some (u.now + 10000000) } else u)) ∧
  (∀ (s : State) (p t : Nat), (s.kvlPort p).backoff = some t →
     exec (.trainBackoffEnd p) s = .next ((s.until t).setKvl p { (s.until t).kvlPort p with backoff := none })) ∧
  (∀ (s : State) (p : Nat) (locked : Bool), p < 8 → s.kvlState p = 6 →
     exec (.resetStateEnd p locked) s =
       let t := s.until ((s.kvlPort p).since + 10000)
       .next (t.kvlEnter p (if t.kvlAllowed p = false then 0 else if locked then 3 else 1)))

/-- An IDENT records the identity of the peer; in IDENT it also gives the credits and whether the peer has seen ours. The timer sends an IDENT every microsecond, with SEEN once one has come. When both ends have seen the other the port is ACTIVE: credits and sequence start anew, the failed attempts are cleared and the event is raised. -/
def Obligations.KevenlinkIdentifies : Prop :=
  (∀ (s : State) (p flags id rev pp cc dc : Nat), p < 8 → s.kvlState p = 4 → pp < 256 →
     let t := s.wn (Reg.KVL_PEER_IDENT (Config.kvlField p)) (rev % 2 ^ 32 * 2 ^ 32 + id % 2 ^ 32)
     let x := t.kvlPort p
     let u := t.setKvl p { x with
       seen := true, peerSeen := x.peerSeen || flags.testBit 0, peerCtrl := cc % 65536, peerData := dc % 65536 }
     ((u.kvlPort p).peerSeen = true → (u.kvlPort p).sentSeen = true → u.kvlState p = 4 →
       exec (.ident p flags id rev pp cc dc) s = .next (u.kvlActive p)) ∧
     (¬((u.kvlPort p).peerSeen = true ∧ (u.kvlPort p).sentSeen = true) → t.kvlState p = 4 →
       exec (.ident p flags id rev pp cc dc) s = .next u)) ∧
  (∀ (s : State) (p : Nat), p < 8 → s.kvlState p = 4 →
     exec (.identTimer p) s =
       let t := s.until ((s.kvlPort p).identAt + 1000)
       let x := t.kvlPort p
       .next (((t.setKvl p { x with identAt := t.now, sentSeen := x.sentSeen || x.seen }).kvlUnit p 4
         (if x.seen then 1 else 0)).kvlTryActive p))

/-- An ACTIVE port goes to RESET with the cause of the command: 1 for a reset written by its owner, 2 for a RESET unit, 4 for a loss of signal, 5 for a loss of the codeword lock. The cause and the time are recorded, a RESET unit goes out, every deposit in flight is answered NAK 6, every remote grant closes, the leases of the port begin their drain, and faults and notices are raised. -/
def Obligations.KevenlinkGoesDown : Prop :=
  (∀ (s : State) (who : Who) (p : Nat), s.kvlReason who p = none → let s0 := s
     s0.kvlState p = 5 →
     exec (.linkReset who p) s =
       let fn := Config.kvlField p
       let r := Reg.KVL_STATUS fn
       let t := ((s0.wf r 31 28 1).add r 47 32 1).wn (Reg.KVL_DOWN_TIME fn) s0.now
       let t := (t.setb (Reg.KVL_EVENT fn) 1).kvlUnit p 5 1
       let t := (s0.kvlPort p).outTags.foldl (fun st e =>
         st.send fn { kind := 3, part := st.kvlOwner p, srcUnit := 6, tag := e.tag, dst := unitDst e.fn e.unit,
                      window := if e.slot < 64 then e.slot else 0, status := 6, units := e.units }) t
       let t := ((s0.kvlPort p).rgrants.filter (fun e => e.2.state ≠ 0)).foldl (fun st e => st.rgrantClose p e.1) t
       let t := t.putKvl p { since := t.now }
       let t : State := { t with mesh := { t.mesh with sent := t.mesh.sent.filter (fun x => !x.relayOf p) } }
       let t := (t.wf r 2 0 6).quarantineAll 0 (fun l => l.hkind = 4 && l.holder = p)
       let t := t.fault 0x19 0 (t.kvlOwner p) fn 0xFF p p 0
       .next (t.notice 0x2D (t.kvlOwner p) fn 0xFF p p 0)) ∧
  (∀ (s : State) (p : Nat), p < 8 → let s0 := s
     s0.kvlState p = 5 →
     exec (.lossOfSignal p) s =
       let fn := Config.kvlField p
       let r := Reg.KVL_STATUS fn
       let t := ((s0.wf r 31 28 4).add r 47 32 1).wn (Reg.KVL_DOWN_TIME fn) s0.now
       let t := (t.setb (Reg.KVL_EVENT fn) 1).kvlUnit p 5 4
       let t := (s0.kvlPort p).outTags.foldl (fun st e =>
         st.send fn { kind := 3, part := st.kvlOwner p, srcUnit := 6, tag := e.tag, dst := unitDst e.fn e.unit,
                      window := if e.slot < 64 then e.slot else 0, status := 6, units := e.units }) t
       let t := ((s0.kvlPort p).rgrants.filter (fun e => e.2.state ≠ 0)).foldl (fun st e => st.rgrantClose p e.1) t
       let t := t.putKvl p { since := t.now }
       let t : State := { t with mesh := { t.mesh with sent := t.mesh.sent.filter (fun x => !x.relayOf p) } }
       let t := (t.wf r 2 0 6).quarantineAll 0 (fun l => l.hkind = 4 && l.holder = p)
       let t := t.fault 0x19 0 (t.kvlOwner p) fn 0xFF p p 0
       .next (t.notice 0x2D (t.kvlOwner p) fn 0xFF p p 0)) ∧
  (∀ (s : State) (p bad : Nat), p < 8 → let s0 := (s.kvlFec p 0 bad)
     s.kvlState p = 5 → s0.kvlState p = 5 →
     exec (.codewordLockLoss p bad) s =
       let fn := Config.kvlField p
       let r := Reg.KVL_STATUS fn
       let t := ((s0.wf r 31 28 5).add r 47 32 1).wn (Reg.KVL_DOWN_TIME fn) s0.now
       let t := (t.setb (Reg.KVL_EVENT fn) 1).kvlUnit p 5 5
       let t := (s0.kvlPort p).outTags.foldl (fun st e =>
         st.send fn { kind := 3, part := st.kvlOwner p, srcUnit := 6, tag := e.tag, dst := unitDst e.fn e.unit,
                      window := if e.slot < 64 then e.slot else 0, status := 6, units := e.units }) t
       let t := ((s0.kvlPort p).rgrants.filter (fun e => e.2.state ≠ 0)).foldl (fun st e => st.rgrantClose p e.1) t
       let t := t.putKvl p { since := t.now }
       let t : State := { t with mesh := { t.mesh with sent := t.mesh.sent.filter (fun x => !x.relayOf p) } }
       let t := (t.wf r 2 0 6).quarantineAll 0 (fun l => l.hkind = 4 && l.holder = p)
       let t := t.fault 0x19 0 (t.kvlOwner p) fn 0xFF p p 0
       .next (t.notice 0x2D (t.kvlOwner p) fn 0xFF p p 0)) ∧
  (∀ (s : State) (p cause : Nat), p < 8 → cause < 256 → let s0 := s
     s0.kvlState p = 5 →
     exec (.resetUnit p cause) s =
       let fn := Config.kvlField p
       let r := Reg.KVL_STATUS fn
       let t := ((s0.wf r 31 28 2).add r 47 32 1).wn (Reg.KVL_DOWN_TIME fn) s0.now
       let t := (t.setb (Reg.KVL_EVENT fn) 1).kvlUnit p 5 2
       let t := (s0.kvlPort p).outTags.foldl (fun st e =>
         st.send fn { kind := 3, part := st.kvlOwner p, srcUnit := 6, tag := e.tag, dst := unitDst e.fn e.unit,
                      window := if e.slot < 64 then e.slot else 0, status := 6, units := e.units }) t
       let t := ((s0.kvlPort p).rgrants.filter (fun e => e.2.state ≠ 0)).foldl (fun st e => st.rgrantClose p e.1) t
       let t := t.putKvl p { since := t.now }
       let t : State := { t with mesh := { t.mesh with sent := t.mesh.sent.filter (fun x => !x.relayOf p) } }
       let t := (t.wf r 2 0 6).quarantineAll 0 (fun l => l.hkind = 4 && l.holder = p)
       let t := t.fault 0x19 0 (t.kvlOwner p) fn 0xFF p p 0
       .next (t.notice 0x2D (t.kvlOwner p) fn 0xFF p p 0))

/-- On an ACTIVE port a good frame in sequence is accepted; one already accepted is dropped; any other is discarded and asks for a replay. A LACK frees the replay buffer up to its frame; an LNAK resends from its frame; a CREDIT adds the credits freed since the last; a REPLAY ends the discarding; a control unit that fails its check is counted. -/
def Obligations.KevenlinkFramesFlow : Prop :=
  (∀ (s : State) (p seq units : Nat) (m : Msg) (fixed : Nat), p < 8 → s.kvlState p = 5 →
     let t := s.kvlFec p fixed 0
     (t.kvlPort p).discard = false → units = (if m.kind = 1 then 3 + 2 * m.len else 3) → seq < 4096 →
     (seq = (t.kvlPort p).rxNext → (t.kvlPort p).rxNext < 4096 →
       exec (.kvlFrame p seq units true m fixed 0) s = .next (t.kvlAccept p m)) ∧
     (1 ≤ ((t.kvlPort p).rxNext + 4096 - seq) % 4096 → ((t.kvlPort p).rxNext + 4096 - seq) % 4096 ≤ 2048 →
       exec (.kvlFrame p seq units true m fixed 0) s = .next t) ∧
     (exec (.kvlFrame p seq units false m fixed 0) s = .next (t.kvlDiscard p))) ∧
  (∀ (s : State) (p seq : Nat), p < 8 → s.kvlState p = 5 → (s.kvlPort p).replay.any (fun f => f.seq = seq) = true →
     exec (.lack p seq) s =
       let x := s.kvlPort p
       .next ((s.putKvl p { x with
         replay := (x.replay.dropWhile (fun f => f.seq ≠ seq)).drop 1, lackAdv := s.now }).kvlPump p 2048)) ∧
  (∀ (s : State) (p next : Nat), p < 8 → s.kvlState p = 5 → next < 4096 → exec (.lnak p next) s = .next (s.kvlResend p next)) ∧
  (∀ (s : State) (p cf df : Nat), p < 8 → s.kvlState p = 5 →
     exec (.credit p cf df) s =
       let x := s.kvlPort p
       .next ((s.putKvl p { x with
         freedCtrl := x.freedCtrl + (cf + 2 ^ 32 - x.freedCtrl % 2 ^ 32) % 2 ^ 32,
         freedData := x.freedData + (df + 2 ^ 32 - x.freedData % 2 ^ 32) % 2 ^ 32 }).kvlPump p 2048)) ∧
  (∀ (s : State) (p seq : Nat), p < 8 → s.kvlState p = 5 → seq < 4096 →
     exec (.replay p seq) s = .next (s.setKvl p { s.kvlPort p with discard := false, lnakAt := none })) ∧
  (∀ (s : State) (p : Nat), p < 8 → 4 ≤ s.kvlState p →
     exec (.idle p false) s = .next (s.addSat (Reg.KVL_ERRORS (Config.kvlField p)) 31 0 1) ∧
     exec (.idle p true) s = .next s)

/-- The acknowledgement timer sends a LACK for the last frame accepted; 2 microseconds after the last advance the oldest unacknowledged frame and those after it are sent again; 2 microseconds after an LNAK that brought no replay, the LNAK is sent again. A resend sends the REPLAY unit and the frames, counts each in KVL_RETRY, and takes the port down with cause 3 where a frame has used up its resends. -/
def Obligations.KevenlinkTimersRun : Prop :=
  (∀ (s : State) (p : Nat), p < 8 → s.kvlState p = 5 →
     exec (.lackTimer p) s =
       let t := if (s.kvlPort p).sinceLack = 0 then s.until ((s.kvlPort p).lackAt + 1000) else s
       let x := t.kvlPort p
       .next ((t.setKvl p { x with sinceLack := 0, lackAt := t.now }).kvlUnit p 1
         (if x.rxAny then (x.rxNext + 4095) % 4096 else 0xFFFF))) ∧
  (∀ (s : State) (p : Nat) (f : KvlFrame) (rest : List KvlFrame), p < 8 → s.kvlState p = 5 → (s.kvlPort p).replay = f :: rest →
     exec (.replayTimeout p) s = .next ((s.until ((s.kvlPort p).lackAdv + 2000)).kvlResend p f.seq)) ∧
  (∀ (s : State) (p t : Nat), p < 8 → s.kvlState p = 5 → (s.kvlPort p).lnakAt = some t →
     exec (.lnakRetry p) s =
       let u := s.until (t + 2000)
       let x := u.kvlPort p
       .next ((u.setKvl p { x with lnakAt := some u.now, discard := true }).kvlUnit p 2 x.rxNext)) ∧
  (∀ (s : State) (p next : Nat) (again : List KvlFrame),
     again = (s.kvlPort p).replay.dropWhile (fun f => f.seq ≠ next) →
     (∀ f ∈ again, f.resends < s.rf (Reg.KVL_CTL (Config.kvlField p)) 15 8) →
     s.kvlResend p next =
       let x := s.kvlPort p
       let t := s.setKvl p { x with
         replay := x.replay.take (x.replay.length - again.length) ++ again.map (fun f => { f with resends := f.resends + 1 }),
         lackAdv := s.now }
       again.foldl (fun st f => st.emit (.kvlFrame p f.seq f.msg))
         ((t.kvlUnit p 6 next).addSat (Reg.KVL_RETRY (Config.kvlField p)) 31 0 again.length))

/-- For the owner of the port: a START in STOPPED whose settings pass its checks zeroes the counters, restarts the records and enters PREROLL with the pre-roll frames of SNP_CFG; a START that fails a check writes its code to ERR; a STOP in PREROLL stops at once, in RUNNING it mutes the outputs and enters STOPPING; a FLUSH drops the records in progress and the output frames; SNP_CFG is written in STOPPED and refused with code 0x10 elsewhere; a gain or mute becomes the pending setting of its slot; the output and input routes are written in STOPPED. -/
def Obligations.SensorControlsRun : Prop :=
  (∀ (s : State) (who : Who) (p : Nat), p < 8 → s.fieldReason who (Config.snpField p) = none → s.hostOf who (Config.snpField p) = true → s.snpState p = 0 →
     (∀ e, s.snpStartErr p = some e →
       exec (.snpStart who p) s = .next (s.wf (snpReg Reg.SNP_STATUS p) 14 7 e)) ∧
     (s.snpStartErr p = none → exec (.snpStart who p) s =
       let fn := Config.snpField p
       let x := (List.range 2).foldl (fun (x : SnpSt) r => x.setIn r { x.inp r with restart := true }) (s.snpPort p)
       let t := (s.snpZero p).setSnp p
         { x with fresh := true, live := false, bad := 0, wasErr := false, mute := false, outs := [] }
       let t := (t.snpEnter p 1).wf (snpReg Reg.SNP_STATUS p) 23 15 (bitsOf (t.snpCfg p) 40 32)
       .next ((List.range 2).foldl (fun st r =>
         let w := st.rd (snpReg2 Reg.SNP_OROUTE p r)
         if w.getLsbD 40 = false then st
         else
           let h := st.rn (snpReg2 Reg.SNP_OHOLDER p r)
           let st := (st.openWindow fn (snpSlot p r) (snpWin p r) (snpBuf p r) (ringBytes w) (ringBytes w / 64) 1 1
             (nbits h 15 8 * 256 + nbits h 7 0) 0).1
           let st := st.setSnp p ((st.snpPort p).setOut r { (st.snpPort p).outp r with win := true })
           (maskSlots (bitsOf w 31 0)).foldl (fun st k => st.snpChange p k (fun y => { y with src := r })) st) t))) ∧
  (∀ (s : State) (who : Who) (p : Nat), p < 8 → s.fieldReason who (Config.snpField p) = none → s.hostOf who (Config.snpField p) = true →
     (s.snpState p = 1 → exec (.snpStop who p) s = .next (s.snpStopped p)) ∧
     (s.snpState p = 2 → exec (.snpStop who p) s = .next ((s.snpMute p).snpEnter p 3))) ∧
  (∀ (s : State) (who : Who) (p : Nat), p < 8 → s.fieldReason who (Config.snpField p) = none → s.hostOf who (Config.snpField p) = true →
     exec (.snpFlush who p) s = .next ((s.snpFlushIn p).snpDropOut p)) ∧
  (∀ (s : State) (who : Who) (p v : Nat), p < 8 → s.fieldReason who (Config.snpField p) = none → s.hostOf who (Config.snpField p) = true →
     (s.snpState p = 0 → exec (.snpCfgWrite who p v) s = .next (s.wn (snpReg Reg.SNP_CFG p) (v &&& 0xFFFF01FFFFF7FFFF))) ∧
     (s.snpState p ≠ 0 → exec (.snpCfgWrite who p v) s = .next (s.wf (snpReg Reg.SNP_STATUS p) 14 7 0x10))) ∧
  (∀ (s : State) (who : Who) (p k v : Nat), p < 8 → k < 32 → s.fieldReason who (Config.snpField p) = none → s.hostOf who (Config.snpField p) = true →
     exec (.snpOgainWrite who p k v) s =
       let t := s.snpChange p k (fun y => { y with gain := nbits v 15 0, mute := nbit v 16 })
       .next (if t.snpState p = 0 ∨ t.snpState p = 4 then t.snpApply p k else t)) ∧
  (∀ (s : State) (who : Who) (p r v : Nat), p < 8 → r < 2 → s.fieldReason who (Config.snpField p) = none → s.hostOf who (Config.snpField p) = true →
     (s.snpState p = 0 → exec (.snpOrouteWrite who p r v) s = .next (s.wn (snpReg2 Reg.SNP_OROUTE p r) (nbits v 57 0))) ∧
     (s.snpState p ≠ 0 → (s.rd (snpReg2 Reg.SNP_OROUTE p r)).getLsbD 40 = false →
       bitsOf (s.rd (snpReg2 Reg.SNP_OROUTE p r)) 57 32 ≠ nbits v 57 32 →
       exec (.snpOrouteWrite who p r v) s = .next ((s.wf (snpReg Reg.SNP_STATUS p) 14 7 0x10).wf
         (snpReg2 Reg.SNP_OROUTE p r) 31 0 (nbits v 31 0)))) ∧
  (∀ (s : State) (who : Who) (p r v : Nat), p < 8 → r < 2 → s.fieldReason who (Config.snpField p) = none → s.hostOf who (Config.snpField p) = true →
     ((s.snpPort p).inp r).frames = [] →
     exec (.snpIrouteWrite who p r v) s =
       let t := s.wn (snpReg2 Reg.SNP_IROUTE p r) (nbits v 51 0)
       .next (t.setSnp p ((t.snpPort p).setIn r (((t.snpPort p).inp r).adopt (BitVec.ofNat 64 (nbits v 51 0))))))

/-- A frame edge at a port that is not STOPPED stamps SNP_LAST_FSYNC, and the frame it ends is checked; without a frame in progress it begins one, or in LOST waits for a good one. A record whose frames are complete closes, is numbered and goes to its buffer. A loss of the clock is declared 2 microseconds after the last edge, a loss of the rate at once. A setting pending longer than the zero-crossing bound is applied, counted and announced. -/
def Obligations.SensorFramesRun : Prop :=
  (∀ (s : State) (p n ns : Nat) (data : List Nat), p < 8 → s.isFull (Config.snpField p) = true → s.snpState p ≠ 0 →
     (s.snpPort p).live = true →
     exec (.snpFrame p n data ns) s =
       let t := s.until ((s.snpPort p).edgeAt + ns)
       let t := t.wn (snpReg Reg.SNP_LAST_FSYNC p) t.now
       let t := t.setSnp p { t.snpPort p with
         live := true, edgeAt := t.now, cur := data.map (sext (snpDw (t.snpCfg p))) }
       .next (t.snpCheck p n ns data)) ∧
  (∀ (s : State) (p r : Nat), p < 8 → r < 2 → ((s.snpPort p).inp r).frames ≠ [] →
     ((s.snpPort p).inp r).frames.length = routeG ((s.snpPort p).inp r).route →
     exec (.snpRecordClose p r) s =
       let x := s.snpPort p
       let i := x.inp r
       let e : SnpRec := { k := i.k, bytes := i.record (snpDw (s.snpCfg p)) }
       let i := { i with
         frames := [], k := i.k + 1, gap := false, resync := false, restart := false, closed := i.closed ++ [e] }
       let t := s.setSnp p (x.setIn r (i.adopt (s.rd (snpReg2 Reg.SNP_IROUTE p r))))
       .next ((t.snpPump p r 48).snpStopOn p)) ∧
  (∀ (s : State) (p : Nat), p < 8 → s.snpState p ≠ 0 → s.snpState p ≠ 4 →
     exec (.snpClockLoss p 1) s = .next ((s.until (s.now + 2000)).snpLoseClock p 1 false) ∧
     exec (.snpClockLoss p 2) s = .next (s.snpLoseClock p 2 false)) ∧
  (∀ (s : State) (p k : Nat) (e : SnpSet × Nat), p < 8 → ((s.snpPort p).slot k).pend = some e →
     exec (.snpZcTimeout p k) s =
       let t := s.until (e.2 + snpZcNs (s.snpCfg p))
       let t := (t.snpApply p k).addSat (snpReg Reg.SNP_ZC_TIMEOUTS p) 63 0 1
       .next (((t.setb (snpReg Reg.SNP_EVENT p) 2).snpNotice p 0x31 (2 ^ k)).snpStopOn p))

/-- An owner access to a user register of a running island goes to the island, a read with its answer outstanding; the answer returns the 32 bits, and earlier writes have then been accepted; 1,024 cycles without one end the read with reason 10, and its late answer is dropped; so ends a write that the island has not accepted in that time. A written reset takes the island down, drops its words and ends its reads with reason 10; a written release brings it up. A tap flush empties the taps and tells the island. -/
def Obligations.IslandCommandsRun : Prop :=
  (∀ (s : State) (who : Who) (fn k i v : Nat), k < 4 → i < 256 → s.fieldReason who fn = none → (s.islCfg fn k).present = true → (s.hostOf who fn = true ∨ Who.tellerOf who fn k = true) →
     i < (s.islCfg fn k).regs → s.islRuns fn k = true →
     exec (.islUserAccess who fn k i true v) s = (
       let x := s.island fn k
       let old := x.writes.filter (fun r => decide (s.now ≤ r.time + s.islNs fn 1024))
       .next ((s.setIsl fn k { x with writes := old ++ [{ who := who, off := Reg.ISL_USER fn k i, time := s.now }] }).emit
         (.island fn k 4 [i, 1, v % 2 ^ 32]))) ∧
     exec (.islUserAccess who fn k i false v) s =
       let x := s.island fn k
       let t := s.setIsl fn k { x with reads := x.reads ++ [{ who := who, off := Reg.ISL_USER fn k i, time := s.now }] }
       .next (State.emit { t with reply := none } (.island fn k 4 [i, 0, 0]))) ∧
  (∀ (s : State) (fn k : Nat) (r : IslRead) (rest : List IslRead) (w : Nat), (s.island fn k).reads = r :: rest →
     r.late = false →
     exec (.islRegRsp fn k [w]) s = .next ((s.setIsl fn k { s.island fn k with
       reads := rest, writes := (s.island fn k).writes.filter (fun y => decide (r.time < y.time)) }).answer (w % 2 ^ 32))) ∧
  (∀ (s : State) (fn k : Nat) (r : IslRead), (s.island fn k).reads.find? (fun r => !r.late) = some r →
     exec (.islRegTimeout fn k false) s =
       let t := s.until (r.time + s.islNs fn 1024)
       let reads := (s.island fn k).reads.map (fun y => if y = r then { y with late := true } else y)
       .next ((t.setIsl fn k { t.island fn k with reads := reads }).accErr r.who 10 false r.off)) ∧
  (∀ (s : State) (fn k : Nat) (r : IslRead) (rest : List IslRead), (s.island fn k).writes = r :: rest →
     exec (.islRegTimeout fn k true) s =
       let t := s.until (r.time + s.islNs fn 1024)
       .next ((t.setIsl fn k { t.island fn k with writes := rest }).accErr r.who 10 true r.off)) ∧
  (∀ (s : State) (who : Who) (fn k : Nat), k < 4 → s.fieldReason who fn = none → (s.islCfg fn k).present = true → (s.hostOf who fn = true ∨ Who.tellerOf who fn k = true) →
     exec (.islandReset who fn k true) s = (
       let t := ((s.wf (Reg.ISL_CTL fn k) 0 0 1).islDown fn k).dropRequester (.island fn k)
       let reads := ((s.wf (Reg.ISL_CTL fn k) 0 0 1).island fn k).reads.filter (fun r => !r.late)
       let t := t.setIsl fn k { t.island fn k with reads := [] }
       .next (reads.foldl (fun st r => st.accErr r.who 10 false r.off) t)) ∧
     ((s.field fn).stopped (16 + k) = false →
       exec (.islandReset who fn k false) s = .next ((s.wf (Reg.ISL_CTL fn k) 0 0 0).islUp fn k))) ∧
  (∀ (s : State) (who : Who) (fn k : Nat), k < 4 → s.fieldReason who fn = none → (s.islCfg fn k).present = true → (s.hostOf who fn = true ∨ Who.tellerOf who fn k = true) →
     (s.island fn k).rstLow = false → (s.island fn k).inItem = false →
     exec (.tapFlush who fn k) s =
       let t := s.pmDiscard fn k
       .next (State.emit (t.setIsl fn k { t.island fn k with
         due := [], inq := [], outq := [], ended := none, inItem := false, resync := (s.island fn k).resync })
         (.island fn k 3 [])))

/-- A word at the prefetch input of a running island with that port joins at most 31 others and is matched with the row generators that wait; a store-side request joins at most 15 others and is served in order; a received transceiver word goes to the island of its lane unless its FIFO of 64 is full, when it is counted; a word sent leaves on its lane. A pulse of ATTN that its adapter takes counts, and its notice goes out at once unless one went out less than 10 microseconds before. -/
def Obligations.IslandPortsRun : Prop :=
  (∀ (s : State) (fn k : Nat) (w : List Nat), s.islRuns fn k = true → nbit (s.islCfg fn k).attach 0 = true →
     let x := s.island fn k
     let last := nbit (w.getD 17 0) 22
     (x.resync = true → exec (.pfInWord fn k w) s = .next (s.setIsl fn k { x with resync := !last, inItem := false })) ∧
     (x.resync = false → x.inq.length < 32 → exec (.pfInWord fn k w) s =
       .next ((s.setIsl fn k { x with inq := x.inq ++ [w], inItem := !last }).pfMatch fn k 64))) ∧
  (∀ (s : State) (fn k op a d t : Nat), s.islRuns fn k = true → nbit (s.islCfg fn k).attach 2 = true →
     (s.island fn k).ss.length < 16 →
     exec (.ssReq fn k [op, a, d, t]) s =
       let x := s.island fn k
       let e : SsPend := { op := op % 4, addr := a % 2 ^ 48, data := d % 2 ^ 64, tally := t % 1024 }
       .next ((s.setIsl fn k { x with ss := x.ss ++ [e] }).ssPump fn k 16)) ∧
  (∀ (s : State) (lane w fn k : Nat), s.laneIsland lane = some (fn, k) →
     let x := s.island fn k
     let gone := (s.now - tget 0 x.rxAt (lane % 4)) * tget 0 s.brs.islFreq fn / 1000
     let fill := tget 0 x.rxFill (lane % 4) - gone
     (64 ≤ fill → exec (.utxRxWord lane w) s = .next (s.addSat (Reg.ISL_UTX_OVF fn k) 63 0 1)) ∧
     (fill < 64 → exec (.utxRxWord lane w) s = .next (State.emit (s.setIsl fn k { x with
         rxFill := tput 0 x.rxFill (lane % 4) (fill + 1),
         rxAt := tput 0 x.rxAt (lane % 4) (if gone = 0 then tget 0 x.rxAt (lane % 4) else s.now) })
       (.island fn k 6 [lane % 4, w % 2 ^ 128])))) ∧
  (∀ (s : State) (lane w : Nat) (x : Nat × Nat), s.laneIsland lane = some x →
     exec (.utxTxWord lane w) s = .next (s.emit (.utx lane (w % 2 ^ 128)))) ∧
  (∀ (s : State) (fn k : Nat), s.islRuns fn k = true → (s.island fn k).upAt + 4 ≤ s.now →
     ((s.island fn k).attnCross s.now).isSome = true →
     let t := (s.setIsl fn k { s.island fn k with attnX := (s.island fn k).attnCross s.now }).addSat (Reg.ISL_STATUS fn k) 63 32 1
     ((∀ a, (t.island fn k).attnAt = some a → a + 10000 ≤ t.now) →
       exec (.islandAttn fn k) s = .next (t.attnNotice fn k)) ∧
     (∀ a, (t.island fn k).attnAt = some a → t.now < a + 10000 →
       exec (.islandAttn fn k) s = .next (t.setIsl fn k { t.island fn k with attnWait := true })))

/-- A new cache share of at most 4 steps for an idle core whose windows lie outside the range that changes is taken: the cache is written back and emptied, the range it gains or gives reads zero, the change ends after one nanosecond a beat; a change that is not admitted sets bit 30. CLEAR_CONFLICTS zeroes the conflict counters and the gaps. A patrol read waits for its period, checks the 128 bytes at the patrol position, or at the next one that it may read, and moves on; where the field has none to read it checks nothing. -/
def Obligations.StoreControlsRun : Prop :=
  (∀ (s : State) (who : Who) (fn k v : Nat), s.slotReason who fn k = none → s.tellerOrOwner who fn k = true →
     nbit v 30 = false → nbits v 2 0 ≠ s.rf (Reg.STO_NSP_CFG fn k) 2 0 →
     let new := nbits v 2 0
     let old := s.rf (Reg.STO_NSP_CFG fn k) 2 0
     let lo := nearBase fn k + (s.userKib fn k - 512 * max old new) * 1024
     let hi := nearBase fn k + (s.userKib fn k - 512 * min old new) * 1024
     let clash := (List.range 64).any (fun w => (s.window (ownerKey fn k) w).state ≠ 0 &&
       rangesMeet (s.window (ownerKey fn k) w).base (s.window (ownerKey fn k) w).size lo (hi - lo))
     (((s.core fn k).idle = false ∨ s.rb (Reg.STO_NSP_CFG fn k) 31 = true ∨ 4 < new ∨ clash = true) →
       exec (.cacheShareChange who fn k v) s = .next (s.setb (Reg.STO_NSP_CFG fn k) 30)) ∧
     ((s.core fn k).idle = true → s.rb (Reg.STO_NSP_CFG fn k) 31 = false → new ≤ 4 → clash = false →
       exec (.cacheShareChange who fn k v) s =
         let n := (((s.core fn k).cache.filter (fun e => e.2.dirty)).length + 1) / 2 + 14 + 2 +
           256 * (max old new - min old new)
         let t := (s.cacheEmpty fn k).zeroRange lo hi
         let t := if old < new then t.staleObjs (t.owner fn) fn k lo (hi - lo) else t
         .next ((t.setCore fn k { t.core fn k with shareAt := some (t.now + n), shareTo := new }).setb (Reg.STO_NSP_CFG fn k) 31))) ∧
  (∀ (s : State) (who : Who) (fn k : Nat), regsWf s.regs → s.slotReason who fn k = none → s.storeWriter who fn = true →
     ∃ t : State, exec (.clearConflicts who fn k) s = .next t ∧ t.rn (Reg.STO_NSP_GAPS fn k) = 0 ∧ t.mem = s.mem) ∧
  (∀ (s : State) (fn : Nat), s.isFull fn = true → s.rb (Reg.STO_PATROL_CTL fn) 31 = true →
     s.rf (Reg.STO_PATROL_CTL fn) 5 0 ≠ 0 →
     exec (.patrolRead fn) s =
       let r := Reg.STO_PATROL_STATUS fn
       let t := s.until ((s.field fn).patrolAt + 1000 / s.rf (Reg.STO_PATROL_CTL fn) 5 0)
       let t := t.setField fn { t.field fn with patrolAt := t.now }
       .next (match t.patrolAt fn 40 (addrOff (t.rf r 47 0)) false with
         | none => t
         | some (o, again) =>
           let t := if again then t.add r 63 48 1 else t
           let t := t.patrolWords fn (fn * 2 ^ 40 + o) 16
           let o' := if o + 128 = 0x101000000 then 0 else if o + 128 = 0xC000000 then 0x100000000 else o + 128
           let t := if o + 128 = 0x101000000 then t.add r 63 48 1 else t
           t.wf r 47 0 (fn * 2 ^ 40 + o')))

/-- Power arriving at a carrier without it makes a wafer that has lost its state, with its straps sampled, and ends the power-on reset as far as its conditions hold. Each entry sample, 10 microseconds after the last, joins the last hundred powers and dates or clears the times since which the input has been outside 40 to 60 V and outside 36 to 63 V. One millisecond out of the operating range, or 100 microseconds over the power limit, begins the emergency power-down: every partition is taken down with status 2 and every field switched off, the anchor last. 20 microseconds beyond the trip range the rails open; 100 milliseconds in range again they close with a reset of cause 5. -/
def Obligations.EntryPowerRuns : Prop :=
  (∀ (s : State) (p : Nat) (ref : Bool), ¬(s.car.entryUp = true ∧ s.car.railsOn = true) → s.car.trip = false →
     exec (.powerUp p ref) s =
       let t := s.waferLost
       .next (State.finishReset { t with car := { t.car with
         entryUp := true, railsOn := true, strapPins := p % 16, refClock := ref, resetWait := some 1, merged := 0, trip := false,
         tick := 0, inSince := none } })) ∧
  (∀ (s : State) (v i : Nat), let at' := max (s.car.tick + 10000) s.now
     let c := (s.until at').car
     s.clock = true → c.resetWait = none →
     ∃ t : State, exec (.entrySample v i) s = .next t ∧ t.car.powers = (v * i :: c.powers).take 100 ∧ t.car.tick = at' ∧
       (6000 < v ∨ v < 4000 → t.car.outSince = some (c.outSince.getD at')) ∧ (4000 ≤ v → v ≤ 6000 → t.car.outSince = none) ∧
       (v < 3600 ∨ 6300 < v → t.car.tripSince = some (c.tripSince.getD at')) ∧
       (3600 ≤ v → v ≤ 6300 → t.car.tripSince = none)) ∧
  (∀ (s : State) (since : Nat), s.brs.running = true → s.car.emergency = false → s.car.outSince = some since →
     since + 1000000 ≤ s.car.tick →
     exec .emergencyPowerDown s =
       let t := (s.setb Reg.PWR_ENTRY_STATUS 2).latchFault
       let t := t.notice 0x23 0xFF 0xFF 0xFF 0xFF (t.rn Reg.PWR_ENTRY_SENSE) 0
       let t : State := { t with car := { t.car with emergency := true }, brs := { t.brs with ons := [] } }
       let t := (List.range 16).foldl (fun st p => st.takeDown p 0 2) t
       let up := Config.sites.filter (fun fn => (t.field fn).power != .off)
       let body := (t.reverseOrder (up.filter (fun fn => !((fn = 44 || fn = 55) && (t.field fn).power == .base)))).map
         (fun fn => ({ fn := fn, target := if fn = 44 || fn = 55 then .base else .off, entry := 0, who := 0xFE } : Switch))
       let other := (up.filter (fun fn => (fn = 44 || fn = 55) && fn ≠ t.anchor)).map
         (fun fn => ({ fn := fn, target := .off, entry := 0, who := 0xFD } : Switch))
       let last : Switch := { fn := t.anchor, target := .off, entry := 0, who := 0xFD }
       .next (State.wf { t with brs := { t.brs with offs := body ++ (other ++ [last]), offAt := t.now } }
         Reg.PWR_SEQ_STATUS 11 8 4)) ∧
  (∀ (s : State) (since : Nat), s.car.tripSince = some since → since + 20000 ≤ s.car.tick → s.car.trip = false →
     exec .carrierTrip s =
       let t := s.waferLost
       .next { t with car := { t.car with trip := true, railsOn := false, inSince := none } }) ∧
  (∀ (s : State) (since : Nat), s.car.inSince = some since → s.car.trip = true → since + 100000000 ≤ s.car.tick →
     exec .tripRecovery s = .next (State.moduleReset { s with car := { s.car with
       trip := false, railsOn := true, entryUp := true, tick := 0, inSince := none } } 5))

/-- A sequencing step switches on the next entry of the schedule once its time has come, and sets the time of the following step by the gap and the extra time of its entries; a switch-off step switches off the next fields. A field at BASE with a joined neighbour joins the timebase within one millisecond: it is LOCKED (FREE in independent mode, in HOLDOVER while the timebase is rebuilt), its housekeeper runs, and its compute domain comes on if that is what it waits for; a field that has not joined by then fails its power-up with cause 1. -/
def Obligations.SequencingRuns : Prop :=
  (∀ (s : State), s.clock = true → s.car.emergency = false → nextOns s.brs.ons ≠ [] →
     exec .sequencingStep s =
       let go := nextOns s.brs.ons
       let t := s.until s.brs.onAt
       let rest := t.brs.ons.filter (fun x => !go.contains x)
       let extra := ((t.brs.seq.filter (fun (e : SeqEntry) => go.any (fun x => e.fns.contains x.fn))).map (·.extra)).foldl max 0
       let standby := go.any (fun x => x.fn = t.rf Reg.AXB_GRADE 31 24 && x.target == .base)
       let t : State := { t with brs := { t.brs with ons := rest, onAt := t.now + (t.brs.minGap + extra) * 1000 } }
       let r := Reg.PWR_SEQ_STATUS
       let t := (t.wf r 7 0 (t.rf r 7 0 + 1)).wf r 11 8 (if rest.isEmpty then 0 else if standby then 2 else 3)
       .next ((List.range 16).foldl (fun st p => st.riseOn p) (go.foldl (fun st x => st.switchOn x) t))) ∧
  (∀ (s : State) (x : Switch) (rest : List Switch), s.brs.offs = x :: rest → x.who < 16 → rest = [] →
     exec .switchOffStep s =
       let t := s.until s.brs.offAt
       let t : State := { t with brs := { t.brs with
         offs := t.brs.offs.drop 1, offAt := t.now + (if t.car.emergency then 100000 else 1000000) } }
       .next ((List.range 16).foldl (fun st p => st.fallOn p) (t.switchOff x))) ∧
  (∀ (s : State) (fn : Nat), s.joining fn = true → s.hasParent fn = true → s.now ≤ (s.field fn).baseAt + 1000000 →
     exec (.timebaseJoin fn) s =
       let f := s.field fn
       let t := s.setField fn { f with
         joined := true, hkUp := true, hkBeatAt := s.now, scrubAt := s.now, patrolAt := s.now }
       let t := ((t.nodeEnter fn (if t.mesh.rebuildAt.isSome then 4 else if t.brs.indep then 3 else 2)).wf
         (Reg.FLD_TELLER_STATUS fn 3) 34 32 2).tbsUpdate
       .next (if f.power == .moving then t.computeOn fn else t)) ∧
  (∀ (s : State) (fn : Nat), s.joining fn = true →
     exec (.timebaseJoinFailure fn) s =
       let t := s.until ((s.field fn).baseAt + 1000000)
       .next (((t.wf Reg.PWR_SEQ_STATUS 31 24 0x10).wf Reg.PWR_SEQ_STATUS 23 16 fn).retireField fn 1 7 3))

/-- The loss of the reference clock puts the anchor into HOLDOVER with its events and a notice; its return gives the anchor its lock again. A sync exchange of a FREE field one microsecond after the last records the offset and marks a skew above 160 nanoseconds for 10 microseconds and a slew above 3 for a millisecond. A field that loses its lock stamps the loss, goes FREE, retrains for 4 microseconds, and the event goes to PF0 and each partition concerned. -/
def Obligations.TimebaseRuns : Prop :=
  (∀ (s : State), s.clock = true → s.powered s.anchor = true → s.tbsState s.anchor ≠ 4 →
     exec .refClockLost s =
       let a := s.anchor
       let t : State := { s with car := { s.car with refClock := false } }
       let t := ((t.nodeEnter a 4).setb (Reg.TBS_EVENT a) 5).setb (Reg.TBS_EVENT a) 2
       .next (t.tbsUpdate.notice 0x20 0xFF a 0xFF 0xFF 0 0)) ∧
  (∀ (s : State), s.clock = true → s.powered s.anchor = true → s.tbsState s.anchor = 4 → s.mesh.rebuildAt = none →
     exec .refClockRestored s =
       let t : State := { s with car := { s.car with refClock := true } }
       .next (t.nodeEnter s.anchor (if s.brs.indep then 3 else 2)).tbsUpdate) ∧
  (∀ (s : State) (fn : Nat) (d : Int), s.powered fn = true → (s.field fn).joined = true → s.tbsState fn = 3 → fn ≠ s.anchor →
     exec (.linkSyncExchange fn d) s =
       let t := s.until ((s.field fn).syncAt + 1000)
       let f := t.field fn
       let skew := if 160 < d.natAbs then some (f.skewSince.getD t.now) else none
       let slew := if 3 < d.natAbs then some (f.slewSince.getD t.now) else none
       let t := t.setField fn { f with syncAt := t.now, skewSince := skew, slewSince := slew }
       let t := t.wf (Reg.TBS_OFFSET fn) 31 0 (twos 32 d)
       let t := if skew.any (· + 10000 ≤ t.now) then t.setb (Reg.TBS_EVENT fn) 6 else t
       .next (if slew.any (· + 1000000 < t.now) then t.setb (Reg.TBS_EVENT fn) 3 else t).tbsUpdate) ∧
  (∀ (s : State) (fn : Nat), s.powered fn = true → (s.field fn).joined = true → s.tbsState fn = 2 → s.brs.indep = false →
     exec (.lockLoss fn) s =
       let e := Reg.TBS_EVENT fn
       let t := ((s.wn (Reg.TBS_LOSS_TIME fn) s.now).setb e 2).setb e 0
       let t := t.setField fn { t.field fn with retrainUntil := t.now + 4000, syncAt := t.now }
       let t := (t.nodeEnter fn 3).tbsUpdate
       let data := t.rn (Reg.TBS_LOSS_TIME fn)
       let u := t.offer 0 0x21 fn (recordBytes 0x21 5 (t.owner fn) fn 0xFF 0xFF 0 t.now data 0)
       .next ((u.partsAt fn).foldl (fun st p =>
         st.offer (p + 1) 0x21 fn (recordBytes 0x21 5 p fn 0xFF 0xFF 0 t.now data 0)) u))

/-- An edge of the polarity that the setting in force arms, at a capture input that exists, stamps TBS_CAPT and marks the input, and a second edge before the read marks an overrun; the read answers the stamp and clears the mark. The end of a beat monitor window records the rate, the stamp and the count and begins the next; the write of BEATMON_CTL takes ENABLE and WINDOW and begins the first window, or ends the window in progress, whose beats still count. -/
def Obligations.CaptureAndBeatmonRun : Prop :=
  (∀ (s : State) (fn i : Nat) (fall : Bool), i < 8 → s.powered fn = true → (s.field fn).joined = true →
     s.captSource fn i = true → nbit (s.captSetting fn) i = true → nbit (s.captSetting fn) (8 + i) = fall →
     exec (.captureEdge fn i fall) s =
       let f := s.field fn
       let t := if f.captEdge.testBit i then s.setb (Reg.TBS_CAPT_CTL fn) (24 + i) else s
       .next ((t.setField fn { f with captEdge := f.captEdge ||| 2 ^ i }).wn (Reg.TBS_CAPT fn i) t.now)) ∧
  (∀ (s : State) (who : Who) (fn i : Nat), i < 8 → s.fieldReason who fn = none →
     exec (.captureRead who fn i) s =
       let f := s.field fn
       .next ((s.setField fn { f with
         captEdge := if f.captEdge.testBit i then f.captEdge - 2 ^ i else f.captEdge }).answer (s.rn (Reg.TBS_CAPT fn i)))) ∧
  (∀ (s : State) (fn beats : Nat), s.powered fn = true → (s.field fn).joined = true →
     s.rb (Reg.FLD_BEATMON_CTL fn) 0 = true →
     exec (.beatmonWindowEnd fn beats) s =
       let f := s.field fn
       let due := f.bmStart + bmLen f.bmWindow
       let t := s.until due
       let v := min 65535 (beats * 1000 / bmLen f.bmWindow) + (t.rf (Reg.FLD_BEATMON_RATE fn) 23 16 + 1) % 256 * 65536 +
         (if f.bmRail then 2 ^ 30 else 0) + 2 ^ 31
       let t := ((t.wn (Reg.FLD_BEATMON_RATE fn) v).wn (Reg.FLD_BEATMON_STAMP fn) due).add (Reg.FLD_BEATMON_COUNT fn) 63 0 beats
       .next (t.setField fn { t.field fn with
         bmStart := due, bmWindow := t.rf (Reg.FLD_BEATMON_CTL fn) 2 1, bmRail := false })) ∧
  (∀ (s : State) (who : Who) (fn v : Nat), let c := Reg.FLD_BEATMON_CTL fn
     s.fieldReason who fn = none →
     (s.rb c 0 = true → nbit v 0 = false →
       exec (.beatmonCtlWrite who fn v) s = .next (((s.wf c 2 0 v).countBeats fn).clrb (Reg.FLD_BEATMON_RATE fn) 31)) ∧
     (s.rb c 0 = false → nbit v 0 = true →
       exec (.beatmonCtlWrite who fn v) s = .next ((s.wf c 2 0 v).setField fn { s.field fn with
         bmStart := s.now, bmWindow := nbits v 2 1, bmRail := false })) ∧
     (s.rb c 0 = nbit v 0 → exec (.beatmonCtlWrite who fn v) s = .next (s.wf c 2 0 v)))

/-- A mark of the group of a FULL field counts and, with its frame known, lowers the least slack of the step; mark 0 of a frame dates it. A step at the next multiple of the step time applies the cap, want and rail rules to the readings of the step. Three missed steps hold the loop at the lower of ceiling and thermal cap with the fault of the pace unit. A junction at 105 degrees, or above 95 for a millisecond, trips the field: its work ends, its leases drain, it goes to BASE and its partition goes down. -/
def Obligations.PaceMarksAndStepsRun : Prop :=
  (∀ (s : State) (fn : Nat) (m : Msg), m.kind = 8 → m.dstUnit = 9 → m.dstFn = fn → s.atDest m = true →
     s.isFull fn = true → s.rf (Reg.FLD_PWR_STATE fn) 31 24 = m.a →
     (m.c = 0 → exec (.paceMarkArrival fn m) s =
       let f := s.field fn
       .next ((s.takeArrived m).setField fn { f with
         markCount := f.markCount + 1, mark0 := ((m.b, m.d) :: f.mark0.filter (fun e => e.1 ≠ m.b)).take 2 })) ∧
     (∀ (t : Nat × Nat) (p : Nat), m.c ≠ 0 → (s.field fn).mark0.find? (fun e => e.1 = m.b) = some t →
       (tget [] s.brs.marks m.a)[m.c]? = some p →
       exec (.paceMarkArrival fn m) s =
         let f := s.field fn
         let slack : Int := (t.2 : Int) + p - m.d
         let least : Int := match f.markMin with
           | some z => if z < slack then z else slack
           | none => slack
         .next ((s.takeArrived m).setField fn { f with markCount := f.markCount + 1, markMin := some least }))) ∧
  (∀ (s : State) (fn : Nat) (r : RailReading), s.paceRuns fn = true →
     exec (.paceStep fn r) s =
       let t := s.until (((s.field fn).lastStep / Config.paceStepNs + 1) * Config.paceStepNs)
       .next (t.paceStep fn (t.now / Config.paceStepNs * Config.paceStepNs) r)) ∧
  (∀ (s : State) (fn : Nat), s.paceRuns fn = true → (s.field fn).hkUp = true →
     exec (.paceFault fn) s =
       let t := s.until (((s.field fn).lastStep / Config.paceStepNs + 3) * Config.paceStepNs)
       let t := t.setRail fn (min (t.rf (Reg.FLD_PACE_POLICY fn) 15 8) (t.rf (Reg.FLD_PLIMIT fn) 23 16))
       let t := (t.setField fn { t.field fn with loopHeld := true }).setb (Reg.FLD_PACE_EVENT fn) 6
       .next (t.fault 0x15 2 (t.owner fn) fn 0xFF 0xFF 0 0)) ∧
  (∀ (s : State) (fn : Nat) (tj : Int),
     (s.isFull fn = true → (105 * 16 ≤ tj ∨ (95 * 16 ≤ tj ∧ ∃ h, (s.field fn).hotSince = some h ∧ h + 1000000 ≤ s.now)) →
       exec (.thermalTrip fn tj) s = .next (s.trip fn tj)) ∧
     (s.isFull fn = true → tj < 105 * 16 → (∀ h, (s.field fn).hotSince = some h → tj < 95 * 16 ∨ s.now < h + 1000000) →
       exec (.thermalTrip fn tj) s = .next s) ∧
     (s.isFull fn = false → (s.field fn).tripped = true → exec (.thermalTrip fn tj) s =
       .next (s.setField fn { s.field fn with
         coolSince := if tj ≤ 85 * 16 then some ((s.field fn).coolSince.getD s.now) else none })))

/-- A valid policy for a field is staged, its reserved bits cleared, and replaces its half of a common policy staged before; a policy that breaks its rules is refused and POLICY_ERR set. A valid partition policy by its owner is stored and staged for every FULL or RETAIN field of the partition at the step boundary at least 60 microseconds away. A limit from 1 to 140 and a chaff window of at most 2,000 with a density of at most 16 are written, others refused with POLICY_ERR. -/
def Obligations.PolicyWritesRun : Prop :=
  (∀ (s : State) (who : Who) (fn v : Nat), s.fieldReason who fn = none →
     (policyOk v = true → exec (.pacePolicyWrite who fn false v) s =
       .next (s.setField fn { s.field fn with
         polSets := (s.now, BitVec.ofNat 64 v &&& 0xF3FFFFFF) :: (s.field fn).polSets,
         common := (s.field fn).common.map (fun c => if s.now < c.1 then (c.1, none, c.2.2) else c) })) ∧
     (policyOk v = false → exec (.pacePolicyWrite who fn false v) s = .next (s.setb (Reg.FLD_PACE_EVENT fn) 5)) ∧
     (slackOk v = true → exec (.pacePolicyWrite who fn true v) s =
       .next (s.setField fn { s.field fn with
         slackSets := (s.now, BitVec.ofNat 64 v) :: (s.field fn).slackSets,
         common := (s.field fn).common.map (fun c => if s.now < c.1 then (c.1, c.2.1, none) else c) })) ∧
     (slackOk v = false → exec (.pacePolicyWrite who fn true v) s = .next (s.setb (Reg.FLD_PACE_EVENT fn) 5))) ∧
  (∀ (s : State) (who : Who) (p v : Nat), p < 16 → s.brs.recovery = false →
     (who = .pf0 ∨ who = .bursar ∨ (who = .vf (p + 1) ∧ (s.part p).defined = true)) →
     let fs := (s.partFields p).filter (fun fn => (s.field fn).power == .full || (s.field fn).power == .retain)
     (policyOk v = true → exec (.partPolicyWrite who p v) s =
       let t := s.wr (Reg.PWR_PART_POLICY p) (BitVec.ofNat 64 v &&& 0xF3FFFFFF)
       let due := (t.now + 60000 + Config.paceStepNs - 1) / Config.paceStepNs * Config.paceStepNs
       .next (fs.foldl (fun st fn =>
         st.commonPolicy fn due (st.rd (Reg.PWR_PART_POLICY p)) (st.rd (Reg.PWR_PART_SLACK p))) t)) ∧
     (policyOk v = false → exec (.partPolicyWrite who p v) s = .next (fs.foldl (fun st fn => st.policyErr fn) s))) ∧
  (∀ (s : State) (who : Who) (fn v : Nat), s.fieldReason who fn = none →
     (1 ≤ nbits v 7 0 → nbits v 7 0 ≤ 140 →
       exec (.plimitWrite who fn v) s = .next (s.wf (Reg.FLD_PLIMIT fn) 7 0 (nbits v 7 0))) ∧
     (nbits v 7 0 = 0 ∨ 140 < nbits v 7 0 →
       exec (.plimitWrite who fn v) s = .next (s.setb (Reg.FLD_PACE_EVENT fn) 5))) ∧
  (∀ (s : State) (who : Who) (fn n v : Nat), n < 4 → s.fieldReason who fn = none →
     (nbits v 20 16 ≤ 16 → nbits v 15 0 ≤ 2000 →
       exec (.chaffCtlWrite who fn n v) s = .next (s.wf (Reg.FLD_CHAFF_CTL fn n) 20 0 v)) ∧
     (16 < nbits v 20 16 ∨ 2000 < nbits v 15 0 →
       exec (.chaffCtlWrite who fn n v) s = .next (s.setb (Reg.FLD_PACE_EVENT fn) 5)))

/-- An aligned write of a VF to its BAR2 inside one granule it holds a grant for, with the units, becomes a deposit; any other is refused with reason 7 and counted. A read of BAR2 answers all ones and counts. A doorbell of an enabled queue that admits items, with the right epoch and a tail in range, becomes the new tail; during a flush the value is held; one that follows a posted write of the VF waits for it, and goes on once the write is answered. -/
def Obligations.HostAccessesRun : Prop :=
  (∀ (s : State) (n off g : Nat) (data : List Byte), s.vfUp n = true → data ≠ [] → (s.part (n - 1)).defined = true →
     off % 64 = 0 → data.length % 64 = 0 → off / 0x1000000 < (s.granuleList n).length →
     off % 0x1000000 + data.length ≤ 0x1000000 → off + data.length ≤ 2 ^ s.host.bar2Log →
     let k := (s.granuleList n).getD (off / 0x1000000) 0
     let dst := granBase (k / 12) (k % 12) + off % 0x1000000
     (s.findGrant (vfHolder n) dst data.length = some g → data.length / 64 ≤ (s.grantOf (vfHolder n) g).scrip →
       exec (.bar2Write n off data) s = .next (s.sendDeposit s.anchor 5 (n - 1) (vfHolder n) g dst data (.bar2 n))) ∧
     (s.findGrant (vfHolder n) dst data.length = none →
       exec (.bar2Write n off data) s = .next ((s.accErrAt (.vf n) 7 true 2 0 off).addSat (Reg.HST_VF_BAR2 n) 31 0 1))) ∧
  (∀ (s : State) (n off len : Nat), s.vfUp n = true → (s.part (n - 1)).defined = true →
     exec (.bar2Read n off len) s =
       .next (State.addSat { s with reply := some (BitVec.allOnes 64) } (Reg.HST_VF_BAR2 n) 63 32 1)) ∧
  (∀ (s : State) (n page v : Nat), s.vfUp n = true → page < 256 → (s.part (n - 1)).defined = true →
     let key := (n - 1) * 256 + page
     let off := page * 4096
     (s.bar2Pending n = true → exec (.doorbell (.vf n) off 8 v) s =
       .next { s with host := { s.host with heldDb := s.host.heldDb ++ [(n, page, v)] } }) ∧
     (s.bar2Pending n = false → s.host.heldDb.any (fun e => e.1 = n) = false → s.qEnabled key = true → s.qAdmits key = true →
       nbits v 47 32 = s.qEpoch key →
       (s.rb (qStatus key) 0 = true →
         exec (.doorbell (.vf n) off 8 v) s =
           .next (s.setQueue key { s.queue key with held := (s.queue key).held ++ [(.vf n, v, off)] })) ∧
       (s.rb (qStatus key) 0 = false → s.tailOk key (nbits v 31 0) = true →
         exec (.doorbell (.vf n) off 8 v) s = .next (s.ring key (nbits v 31 0))))) ∧
  (∀ (s : State) (n : Nat) (e : Nat × Nat × Nat), s.bar2Pending n = false → s.host.heldDb.find? (fun x => x.1 = n) = some e →
     exec (.doorbellForward n) s = .next (State.doorbell { s with host := { s.host with heldDb := s.host.heldDb.erase e } }
       (.vf n) ((n - 1) * 256 + e.2.1) 8 0 e.2.2 (e.2.1 * 4096)))

/-- A function level reset of a VF that is up, or of PF0, resets its registers, queues and reads; PERST_N and the loss of the link reset every function and take the link down; a link that comes up with the module ready records its speed, width and anchor in HST_LINK, counts, and takes the configuration the host has set. -/
def Obligations.HostResetsRun : Prop :=
  (∀ (s : State) (n : Nat), s.vfUp n = true → exec (.vfFlr n) s = .next (s.vfReset n)) ∧
  (∀ (s : State), s.host.linkUp = true → exec .pf0Flr s = .next s.pf0Reset) ∧
  (∀ (s : State), s.host.perst = false → exec .perst s =
     let t := s.endpointDown
     .next { t with host := { t.host with perst := true } }) ∧
  (∀ (s : State), s.host.linkUp = true →
     exec .hostLinkDown s =
       let t := (s.pf0Reset.wf Reg.HST_LINK 11 8 0).wf Reg.HST_LINK 4 0 0
       .next { t with host := { t.host with
         linkUp := false, funcs := [], numVfs := 0, bar2Log := 34, reads := [], heldDb := [] } }) ∧
  (∀ (s : State) (sp w : Nat) (fs : List (Nat × FuncCfg)) (en : Bool) (n lg : Nat), s.powered s.anchor = true →
     s.host.linkUp = false → s.rb Reg.HST_READY 0 = true →
     exec (.hostLinkUp sp w fs en n lg) s =
       let t := (((s.wf Reg.HST_LINK 31 24 s.anchor).add Reg.HST_LINK 23 16 1).wf Reg.HST_LINK 11 8 sp).wf Reg.HST_LINK 4 0 w
       .next { t with host := { t.host with
         linkUp := true, perst := false,
         funcs := fs.foldl (fun t e => if e.1 ≤ 16 then tput FuncCfg.init t e.1 e.2 else t) [],
         vfEnable := en, numVfs := min 16 n, bar2Log := max 30 (min 34 lg) } })

/-- The completion of a read in flight with all its data delivers them and lets further reads go out; one that is poisoned, or has an error status, fails the read. A poisoned completion counts. A register read of a field that the field does not answer within 100 microseconds answers all ones and is recorded with reason 10. New MSI-X settings of a function take effect, and the pending vector named is sent if they let it. -/
def Obligations.HostTransactionsRun : Prop :=
  (∀ (s : State) (tag : Nat) (r : DmaRead) (data : List Byte), s.readOf tag = some r →
     (r.len ≤ data.length → exec (.completionTlp tag 0 false data) s =
       .next (((s.dropRead tag).readData r (data.take r.len)).dmaPump)) ∧
     (∀ status, status ≠ 0 → exec (.completionTlp tag status false data) s = .next (((s.dropRead tag).readFailed r).dmaPump)) ∧
     (∀ status, exec (.completionTlp tag status true data) s =
       .next ((((s.addSat Reg.HST_POISON 63 32 1).dropRead tag).readFailed r).dmaPump))) ∧
  (∀ (s : State) (tag : Nat) (r : DmaRead), s.host.linkUp = true → s.readOf tag = some r →
     exec (.poisonedTlp false tag) s = .next ((((s.addSat Reg.HST_POISON 63 32 1).dropRead tag).readFailed r).dmaPump) ∧
     exec (.poisonedTlp true tag) s = .next ((((s.addSat Reg.HST_POISON 31 0 1).dropRead tag).readFailed r).dmaPump)) ∧
  (∀ (s : State) (off : Nat), s.host.linkUp = true → Reg.win 0 ≤ off → off < Reg.win 100 →
     s.fieldReason .pf0 ((off - Reg.win 0) / 0x40000) = none →
     exec (.registerReadTimeout .pf0 off) s =
       .next (State.accErrAt { s.until (s.now + 100000) with reply := some (BitVec.allOnes 64) } .pf0 10 false 0 0 off)) ∧
  (∀ (s : State) (f v : Nat) (cfg : FuncCfg), s.host.linkUp = true → (f = 0 ∨ s.vfUp f = true) → v < vectorsOf f →
     s.rb (msixPba f) v = true →
     exec (.msixPendingSend f v cfg) s =
       let t : State := { s with host := { s.host with funcs := tput FuncCfg.init s.host.funcs f cfg } }
       .next ((t.msix f v).dmaPump.drainFunc f))

/-- A flush of a queue that exists, by a function it belongs to, drops every item not started, sets HEAD to TAIL with the next epoch and FLUSHING for 10 microseconds, and ends the wait and the ring reads of the queue; ENABLE of a queue whose context is enabled takes the configuration; RESUME of a context stopped by an error lets it go on; a new completion head is written and lets waiting records go out; a new event head pays the events owed; valid staged event routes take effect, an invalid one sets bit 29 and leaves the routes. -/
def Obligations.QueueRegistersRun : Prop :=
  (∀ (s : State) (who : Who) (key : Nat), key < 4112 → s.queReason who (keyPart 256 key) = none → s.qExists key = true →
     exec (.queueFlush who key) s =
       let tail := s.qTailN key
       let t := (s.setb (qStatus key) 0).wn (qHead key) (tail + ((s.setb (qStatus key) 0).qEpoch key + 1) % 65536 * 2 ^ 32)
       let t := t.setQueue key { t.queue key with
         slots := [], failed := [], orders := [], asked := tail, waitSince := none, wake := none, expired := none,
         flushAt := some (t.now + 10000) }
       let t := t.setWaits (t.host.waits.filter (fun w => w.who ≠ key))
       .next { t with host := { t.host with
         reads := t.host.reads.filter (fun r => match r.what with
           | .ring k _ _ => k != key
           | _ => true) } }) ∧
  (∀ (s : State) (p q v : Nat), let key := p * 256 + q
     p < 16 → q < 256 → s.queReason .pf0 (keyPart 256 key) = none → s.qExists key = true → v.testBit 31 = true →
     s.ctxOn p (nbits v 21 16) = true → v.testBit 30 = false →
     exec (.queueEnable .pf0 (0x100000 + 0x10000 * (p + 1) + 32 * q + 8) v) s =
       let r := qCfg key
       let t := ((s.wf r 31 31 1).wf r 4 0 (nbits v 4 0)).wf r 21 16 (nbits v 21 16)
       .next ((t.pump key 64).headWait key)) ∧
  (∀ (s : State) (who : Who) (p c : Nat), p < 16 → c < 64 → s.queReason who (keyPart 64 (p * 64 + c)) = none →
     s.ctxExists (p * 64 + c) = true → s.rf (Reg.QUE_CTX_STATE p c) 1 0 = 2 →
     exec (.contextResume who p c) s = .next (s.wf (Reg.QUE_CTX_STATE p c) 1 0 1)) ∧
  (∀ (s : State) (who : Who) (c v : Nat), (c < 1024 ∨ (4096 ≤ c ∧ c < 4112)) → s.queReason who (keyPart 64 c) = none →
     s.ctxExists c = true →
     exec (.cqHeadWrite who c v) s = .next ((s.wf (cqHead c) 31 0 v).drainWaiting c 65536)) ∧
  (∀ (s : State) (who : Who) (f v : Nat), f ≤ 16 → s.queReason who (if f = 0 then 16 else f - 1) = none →
     exec (.eventHeadWrite who f v) s =
       let t := s.wf (evtReg f 0x14) 31 0 v
       .next (if t.rb (evtReg f 8) 31 then (t.payOwed f).1 else t)) ∧
  (∀ (s : State) (who : Who) (f : Nat), f ≤ 16 → s.queReason who (if f = 0 then 16 else f - 1) = none →
     let es := (List.range (routesOf f)).map (fun i => (i, s.stagedRoute f i))
     (es.all (fun e => routeEntryOk f e.2) = false →
       exec (.eventRouteCommit who f) s = .next (s.setb (evtReg f 8) 29)) ∧
     (es.all (fun e => routeEntryOk f e.2) = true → exec (.eventRouteCommit who f) s =
       let t : State := { s with host := { s.host with
         evtRoute := es.foldl (fun t e => tput 0 t (f * 64 + e.1) e.2) s.host.evtRoute } }
       .next (if es.any (fun a => es.any (fun b => decide (a.1 < b.1) && routeMeet a.2 b.2)) then t.setb (evtReg f 8) 28 else t)))

/-- The item at the head of a queue that may start and whose turn it is (the oldest of its teller's, or the next of the management queues in rotation) is taken from the queue and starts, with the status of a refusal where its header or operands call for one. A wait of the head item that has lasted its bound expires. An item with a status, next in its order, closes its copy window and writes its completion record. -/
def Obligations.ItemsStartAndComplete : Prop :=
  (∀ (s : State) (key : Nat) (it : Item), s.mayStart key = true → s.isOldest key = true → s.qHeadItem key = .item it →
     let t := s.takeHead key (.item it)
     exec (.itemStart key) s =
       .next (if 4096 ≤ key then { t with brs := { t.brs with lastM := key - 4096 } } else t) ∧
     s.takeHead key (.item it) =
       let u := s.serverOf key
       let bad := (s.atOnce key it).or (s.refusedItem key it)
       let r := (s.consume key (it.bytes.length / 64)).startItem it u.1 u.2
       (match bad with
         | some (e, d) => r.2.endItem r.1 e 0 d
         | none => r.2).cmdsRunning) ∧
  (∀ (s : State) (key t : Nat) (it : Item), s.qHeadItem key = .item it → (s.queue key).waitSince = some t →
     exec (.itemWaitTimeout key) s = .next (s.waitExpires key it t)) ∧
  (∀ (s : State) (num : Nat) (x : Started), s.item num = some x → s.completeNext x = true →
     exec (.itemComplete num) s =
       let t := ((s.copyClose x).completeItem x).cmdsRunning
       .next (if x.item.managed then t else t.retainOn x.item.part))

/-- A heartbeat of a housekeeper is counted 100 microseconds after its last; every 10 microseconds a housekeeper checks the tellers 0 to 2 of its field: one whose heartbeat has advanced is counted and dated, one that has not for 100 microseconds is hung, any other stays. A housekeeper other than the active anchor's that has been silent for 500 microseconds is counted as hung, as the standby's it makes the mirror stale, fault class 0x11 is raised, its latches are dropped, and with its third hang within the span its field is retired. The teller of a halted slot ends the items it has submitted commands for, records an uncorrectable read (class 0x08) or a failed entry test (class 0x06), flushes the core and goes on. 5 milliseconds without a strobe reset a module without a standby, with cause 4. -/
def Obligations.WatchdogsRun : Prop :=
  (∀ (s : State) (fn : Nat), s.powered fn = true → (s.field fn).hkUp = true →
     exec (.housekeeperHeartbeat fn) s =
       let t := s.until ((s.field fn).hkBeatAt + 100000)
       let t := t.setField fn { t.field fn with hkBeatAt := t.now }
       .next ((t.add (Reg.FLD_HK_STATUS fn) 31 0 1).add (Reg.FLD_TELLER_STATUS fn 3) 31 0 1)) ∧
  (∀ (s : State) (fn : Nat) (beats stuck : List Nat), s.isFull fn = true → (s.field fn).hkUp = true →
     exec (.tellerWatchdogCheck fn beats stuck) s =
       let t := s.until (tget 0 (s.field fn).beatAt 3 + 10000)
       let t := t.setField fn { t.field fn with beatAt := tput 0 (t.field fn).beatAt 3 t.now }
       .next ((List.range 3).foldl (fun st k =>
         let r := Reg.FLD_TELLER_STATUS fn k
         let n := beats.getD k 0
         if ¬(st.rf r 34 32 = 2 ∨ st.rf r 34 32 = 3) then st
         else if n ≠ 0 then
           (st.setField fn { st.field fn with beatAt := tput 0 (st.field fn).beatAt k st.now }).add r 31 0 n
         else if tget 0 (st.field fn).beatAt k + 100000 ≤ st.now then st.tellerHang fn k (stuck.contains k)
         else st) t)) ∧
  (∀ (s : State) (fn : Nat), s.powered fn = true → (s.field fn).hkUp = true → fn ≠ s.anchor → s.brs.running = true →
     exec (.housekeeperHang fn) s =
       let r := Reg.FLD_HK_STATUS fn
       let t := s.until ((s.field fn).hkBeatAt + 500000)
       let t := ((t.addSat r 63 48 1).addSat (Reg.FLD_TELLER_STATUS fn 3) 63 48 1).addSat Reg.AXB_WDOG_STATUS 47 32 1
       let t := if t.standby = some fn then t.clrb Reg.AXB_BURSAR_STATUS 0 else t
       let t := t.fault 0x11 2 (t.owner fn) fn 0xFF 3 (t.rf r 63 48) 0
       let l := t.now :: (t.field fn).hkHangs.filter (t.inSpan fn)
       let t := (t.setField fn { t.field fn with hkHangs := l, hkBeatAt := t.now }).dropRequester (.teller fn 3)
       .next (if 3 ≤ l.length then t.retireField fn 4 3 0 else t)) ∧
  (∀ (s : State) (fn k : Nat), let e := Reg.GZC_LAST_ERR fn k
     s.isFull fn = true → s.present fn k = true → s.tellerRuns fn k = true → s.halted fn k = true →
     (s.core fn k).flushAt = none → (s.core fn k).unrepairable = false →
     exec (.haltResponse fn k) s =
       let tag := s.rf e 63 48
       let detail := s.rf e 31 0
       let t := ((s.slotItems fn k).filter (fun x => !x.cmds.isEmpty)).foldl
         (fun st x => st.haltItem fn k (s.core fn k) x tag (s.rf e 39 32) detail) s
       let t := if s.rf e 39 32 = 0x0B then t.fault 0x08 1 (t.owner fn) fn k 0xFF (t.eccAddr fn k detail) tag
         else if s.rf e 39 32 = 0x0C ∧ s.rf e 47 40 = 3 then
           t.fault 0x06 1 (t.owner fn) fn k 0xFF (tag * 2 ^ 48 + detail) (s.core fn k).entryRes
         else t
       .next (((t.flushCore fn k).tellerItems fn k).retainOn (t.owner fn))) ∧
  (∀ (s : State), s.brs.running = true → s.clock = true → s.standby = none →
     exec .watchdogModuleReset s = .next ((s.until (s.car.strobeAt + 5000000)).moduleReset 4))

/-- A scrub of the next frame at its period, its owner not held, counts what it corrected, names and dates the frame; a bad frame is counted, stops its owner and waits for its repair. A repair from an active build rewrites the frame from its source, releases its owner and raises the repaired class; one that fails takes a partition that is neither OFF nor FALLING down with cause 5 and is otherwise recorded with the unrepaired class. A draining lease ends once nothing of it is in flight, or at its due time, its generation moves on and its fault is raised. A read of AXB_LEASE_HI answers the second word of the lease that INDEX selects and moves INDEX on. Where F55 stands by as the standby anchor, 5 milliseconds without a strobe hand the anchor to it; a standby whose housekeeper runs has its mirror resynchronised, and MIRROR is set. -/
def Obligations.RecoveryRuns : Prop :=
  (∀ (s : State) (fn n : Nat), s.powered fn = true → (s.field fn).hkUp = true → s.rb (Reg.FLD_CFG_STATUS fn) 31 = true →
     s.rb (Reg.FLD_SCRUB_CTL fn) 31 = true →
     let due := (s.field fn).scrubAt + 1000 * s.rf (Reg.FLD_SCRUB_CTL fn) 9 0
     let t := if due < s.now then s.addSat (Reg.FLD_HK_STATUS fn) 47 32 1 else s
     let t := t.until due
     let a := scrubFrameAt (t.field fn).scrubNext
     let u := (t.setField fn { t.field fn with scrubAt := t.now }).scrubNext fn
     let slot := (t.field fn).frameOwner a
     let r := Reg.FLD_SCRUB_STATUS fn
     (if slot = 0xFF then (t.field fn).repair.any (fun b => (t.field fn).frameOwner b = 0xFF) else (t.field fn).stopped slot) = false →
     (slot < 4 → (u.core fn slot).held = false) →
     (n ≠ 0 → exec (.scrubFrame fn n false) s =
       let v := u.addSat r 31 16 n
       .next ((v.wf r 63 48 a).wn (Reg.FLD_SCRUB_TIME fn) v.now)) ∧
     (exec (.scrubFrame fn n true) s =
       let v := u.addSat r 31 16 n
       let v := (v.wf r 63 48 a).wn (Reg.FLD_SCRUB_TIME fn) v.now
       let v := (v.addSat r 47 32 1).stopOwner fn a
       .next (v.setField fn { v.field fn with repair := (v.field fn).repair ++ [a] }))) ∧
  (∀ (s : State) (fn a : Nat) (rest : List Nat), (s.field fn).repair = a :: rest →
     let t := s.setField fn { s.field fn with repair := rest }
     let slot := (s.field fn).frameOwner a
     (s.rb Reg.AXB_CFG_STATUS 8 = true → exec (.cfgRepairComplete fn true) s =
       let bytes := match (allFrames (t.section 0x13 fn)).find? (fun x => x.1 = a) with
         | some x => (x.2.zipIdx).foldl (fun t e => tput 0 t e.2 e.1) ([] : List (Nat × Byte))
         | none => []
       let u := t.setField fn { t.field fn with frames := tput [] (t.field fn).frames a bytes }
       .next ((u.releaseOwner fn a).fault 0x09 0 (s.owner fn) fn (if slot < 4 then slot else 0xFF) 0xFF a 0)) ∧
     (s.owner fn < 16 → t.partState (s.owner fn) ≠ 0 → t.partState (s.owner fn) ≠ 4 →
       exec (.cfgRepairComplete fn false) s = .next (t.bursarDown (s.owner fn) 5 0 0x0A fn a 0)) ∧
     (16 ≤ s.owner fn ∨ t.partState (s.owner fn) = 0 ∨ t.partState (s.owner fn) = 4 → exec (.cfgRepairComplete fn false) s =
       .next (t.fault 0x0A 2 (s.owner fn) fn (if slot < 4 then slot else 0xFF) 0xFF a 0))) ∧
  (∀ (s : State) (i : Nat), (s.lease i).state = 2 →
     exec (.leaseRevoke i) s =
       let t := if (s.lease i).inflight = 0 then s else s.until (s.lease i).due
       let l := t.lease i
       let u := (t.setLease i { l with
         state := 0, gen := (l.gen + 1) % 65536, inflight := 0, due := 0, scope := 0 }).reclaim l
       let u := u.fault 0x12 l.scope l.owner l.party.1 l.party.2.1 l.party.2.2 (i + l.kind * 65536) (l.resource + l.inflight * 2 ^ 32)
       .next ((List.range 16).foldl (fun st p => st.fallOn p) u)) ∧
  (∀ (s : State) (who : Who), s.moduleReason who = none →
     exec (.leaseHiRead who) s =
       let i := s.rf Reg.AXB_LEASE_INDEX 11 0
       .next ((s.wf Reg.AXB_LEASE_INDEX 11 0 (i + 1)).answer (s.lease i).hi)) ∧
  (∀ (s : State) (b : Nat) (back : Bool), s.brs.running = true → s.clock = true → s.standby = some b →
     exec (.anchorFailover back) s =
       .next ((s.until (s.car.strobeAt + 5000000)).failover s.anchor b back)) ∧
  (∀ (s : State) (b : Nat), s.brs.running = true → s.standby = some b → (s.field b).hkUp = true →
     exec .mirrorResync s = .next (s.setb Reg.AXB_BURSAR_STATUS 0))

/-- A 64-bit write of a 64-bit register that the requester may write takes effect at once; a 32-bit write of a 32-bit register too; the write of the low word of a 64-bit register is staged for the requester and changes nothing else; the write of its high word takes effect with the staged low word, or with the present one; the read of the low word answers it and latches the high word for the requester, whose next read of the high word takes it from there; a 64-bit read answers the whole register. An access of another size or alignment changes nothing and returns no data. A teller's access of 8 bytes at a wafer address of its store reads or writes that word of the store. -/
def Obligations.RegisterAccessesRun : Prop :=
  (∀ (s : State) (who : Who) (off v a : Nat) (r : Reg.Row), who ≠ .smbus → off + 8 ≤ Who.barSize who → off % 8 = 0 → s.resolve who off = (a, none) →
     s.accessReason who a true = none →
     Reg.row? a = some r → r.width = 64 →
     exec (.registerWrite who off 8 v) s = .next (s.writeReg who a (BitVec.ofNat 64 v))) ∧
  (∀ (s : State) (who : Who) (off v a : Nat) (r : Reg.Row), who ≠ .smbus → off + 4 ≤ Who.barSize who → off % 4 = 0 → s.resolve who off = (a, none) →
     s.accessReason who a true = none →
     Reg.holding a = some (a, r, false) → r.width = 32 →
     exec (.registerWrite who off 4 v) s = .next (s.writeReg who a (BitVec.ofNat 64 (v % 2 ^ 32)))) ∧
  (∀ (s : State) (who : Who) (off v a : Nat) (r : Reg.Row), who ≠ .smbus → off + 4 ≤ Who.barSize who → off % 4 = 0 → s.resolve who off = (a, none) →
     s.accessReason who a true = none →
     Reg.holding a = some (a, r, false) → r.width = 64 →
     exec (.lowWordWrite who off v) s = .next (s.latch who a true (v % 2 ^ 32))) ∧
  (∀ (s : State) (who : Who) (off v a b : Nat) (r : Reg.Row), who ≠ .smbus → off + 4 ≤ Who.barSize who → off % 4 = 0 →
     s.resolve who off = (b, none) → s.accessReason who b true = none → Reg.holding b = some (a, r, true) → r.width = 64 →
     exec (.highWordWrite who off v) s = .next ((s.unlatch who a true).writeReg who a
       (BitVec.ofNat 64 (v % 2 ^ 32 * 2 ^ 32 + (s.latchOf who a true).getD (s.presentLow a r))))) ∧
  (∀ (s : State) (off a : Nat) (r : Reg.Row), off + 4 ≤ 0x4000000 → off % 4 = 0 → s.resolve .pf0 off = (a, none) →
     s.accessReason .pf0 a false = none → a < 0x1000000 → Reg.holding a = some (a, r, false) → r.width = 64 →
     exec (.lowWordRead .pf0 off 4) s =
       .next (((if drawsAtRead a then s.draw.2 else s).latch .pf0 a false (bitsOf (s.view a) 63 32)).answer (bitsOf (s.view a) 31 0))) ∧
  (∀ (s : State) (off a b h : Nat) (r : Reg.Row), off + 4 ≤ 0x4000000 → off % 4 = 0 → s.resolve .pf0 off = (b, none) →
     s.accessReason .pf0 b false = none → b < 0x1000000 → Reg.holding b = some (a, r, true) → r.width = 64 →
     s.latchOf .pf0 a false = some h → a < 0x1000000 →
     exec (.lowWordRead .pf0 off 4) s = .next (((if drawsAtRead a then s.draw.2 else s).unlatch .pf0 a false).answer h)) ∧
  (∀ (s : State) (off a : Nat) (r : Reg.Row), off + 8 ≤ 0x4000000 → off % 8 = 0 → s.resolve .pf0 off = (a, none) →
     s.accessReason .pf0 a false = none → a < 0x1000000 → Reg.row? a = some r → r.width = 64 → a ≠ Reg.AXB_LEASE_HI →
     exec (.lowWordRead .pf0 off 8) s = .next ((if drawsAtRead a then s.draw.2 else s).answer (s.view a).toNat)) ∧
  (∀ (s : State) (who : Who) (off size : Nat), narrowOf who off = none → (size ≠ 4 ∧ size ≠ 8) ∨ off % size ≠ 0 →
     exec (.lowWordRead who off size) s = .next { s with reply := none } ∧
     (∀ v, exec (.registerWrite who off size v) s = .next s)) ∧
  (∀ (s : State) (fn k a v : Nat), 2 ^ 40 ≤ a → s.narrowSlot fn k a = some k → s.gleanAddr fn k a = false →
     exec (.registerWrite (.teller fn k) a 8 v) s = .next ((s.narrowWait fn k a).coreWrite fn k a (leBytes 8 v)) ∧
     (∀ bytes t, (s.narrowWait fn k a).narrowRead fn k a = (bytes, none, t) →
       exec (.lowWordRead (.teller fn k) a 8) s = .next { t with reply := some (BitVec.ofNat 64 (leNat bytes)) }))

/-- With the entry up, TRST selects IDCODE and the pins follow the module; IDCODE shifts out 0x10084B4F; SAMPLE_PRELOAD loads the boundary register, shifts out the pins and leaves them to the module; BYPASS selects the bypass; EXTEST, EXTEST_PULSE, EXTEST_TRAIN, CLAMP and HIGHZ drive or float the pins in test mode, and outside it act as BYPASS. No command of the port changes a register, a store or a clock of the module. -/
def Obligations.JtagInstructionsRun : Prop :=
  (∀ (s : State), s.car.entryUp = true → exec .tapReset s = .next { s with car := { s.car with jtagIr := 1, pinMode := 0 } }) ∧
  (∀ (s : State), s.car.entryUp = true →
     exec .idcode s = .next (State.emit { s with car := { s.car with jtagIr := 1, pinMode := 0 } } (.jtag 1 0x10084B4F))) ∧
  (∀ (s : State) (dr pins : Nat), s.car.entryUp = true → exec (.samplePreload dr pins) s =
     .next (State.emit { s with car := { s.car with boundary := dr, jtagIr := 2, pinMode := 0 } } (.jtag 2 pins))) ∧
  (∀ (s : State), s.car.entryUp = true → exec .bypass s = .next { s with car := { s.car with jtagIr := 0xFF, pinMode := 0 } }) ∧
  (∀ (s : State) (dr ir : Nat) (row : Nat → Instr),
     (ir, row) ∈ ([(0, .extest), (5, .extestPulse), (6, .extestTrain)] : List (Nat × (Nat → Instr))) → s.car.entryUp = true →
     (s.brs.testMode = true →
       exec (row dr) s = .next { s with car := { s.car with boundary := dr, jtagIr := ir, pinMode := 1 } } ∧
       exec .clamp s = .next { s with car := { s.car with jtagIr := 4, pinMode := 1 } } ∧
       exec .highz s = .next { s with car := { s.car with jtagIr := 3, pinMode := 2 } }) ∧
     (s.brs.testMode = false →
       (∀ i ∈ [row dr, .clamp, .highz], exec i s = .next { s with car := { s.car with jtagIr := 0xFF, pinMode := 0 } })))

/-- With the entry up, IDENT answers the identity and the revision; ENTRY_SENSE the last entry sample; STATUS the flags, the cause of the last reset, the state of the load and the hottest field; TEMPERATURE the hottest junction, or 0x8000 with no field FULL; the register offset is taken and a read answers its word and moves on by 4; ALERT is released by its acknowledgement and by a response that answers the address of the module. -/
def Obligations.SmbusCommandsRun : Prop :=
  (∀ (s : State), s.car.entryUp = true →
     exec .smbIdent s = .next (s.emit (.smbus (leBytes 4 Config.ident ++ leBytes 4 s.smbRevision)))) ∧
  (∀ (s : State), s.car.entryUp = true → exec .smbEntry s = .next (s.emit (.smbus (leBytes 8 (s.rn Reg.PWR_ENTRY_SENSE))))) ∧
  (∀ (s : State), s.car.entryUp = true → ∃ flags, exec .smbStatus s =
       .next (s.emit (.smbus (leBytes 1 flags ++ leBytes 1 (s.rf Reg.AXB_RESET_STATUS 7 0) ++
         leBytes 1 (s.rf Reg.AXB_CFG_STATUS 3 0) ++ leBytes 1 ((s.hottest.map (·.1)).getD 0xFF)))) ∧
       flags.testBit 0 = s.rb Reg.HST_READY 0 ∧ flags.testBit 1 = s.rb Reg.AXB_STAT_CTL 0 ∧ flags.testBit 2 = s.car.statTherm ∧
       flags.testBit 3 = s.brs.recovery ∧ flags.testBit 4 = s.brs.testMode ∧ flags < 32) ∧
  (∀ (s : State), s.car.entryUp = true → exec .smbTemp s = .next (s.emit (.smbus (leBytes 2 (match s.hottest with
       | some x => twos 16 x.2
       | none => 0x8000))))) ∧
  (∀ (s : State) (off : Nat), s.car.entryUp = true →
     exec (.regOffset off) s = .next { s with car := { s.car with regOffset := off % 2 ^ 32 } }) ∧
  (∀ (s : State), s.car.entryUp = true → s.car.regOffset % 4 = 0 →
     s.car.regOffset ≤ 0xFFFFFC → s.brs.running = true →
     exec .regRead s = .next { s.emit (.smbus (0 :: leBytes 4 ((s.word32 s.car.regOffset).getD 0xFFFFFFFF))) with
       car := { s.car with regOffset := (s.car.regOffset + 4) % 2 ^ 32 },
       fresh := if drawsAtRead s.car.regOffset then s.fresh + 1 else s.fresh }) ∧
  (∀ (s : State), s.car.entryUp = true →
     exec .alertAck s = .next (State.pins { s with car := { s.car with alertAck := true } })) ∧
  (∀ (s : State), s.car.entryUp = true → s.car.alertLow = true → exec .alertResponse s =
     .next (State.alertRelease (s.emit (.smbus [BitVec.ofNat 8 (0x4C + s.rf Reg.AXB_STRAPS 1 0)]))))

/-- A fall of RST_N resets the module with cause 2 and holds it; its rise lets the reset go on. A poll of a regulator that answers without a fault only dates it; the third poll in a row without an answer, or a fault, fails the field with cause 2. A write of AXB_GPIO by PF0 or the bursar drives the pins whose enable is set. Every millisecond after its last strobe the bursar strobes the carrier watchdog if its tasks were in bounds, and otherwise counts the strobe as missed. -/
def Obligations.PinCommandsRun : Prop :=
  (∀ (s : State), s.car.rstLow = false →
     exec .rstN s = .next (State.moduleReset { s with car := { s.car with rstLow := true } } 2)) ∧
  (∀ (s : State), s.car.rstLow = true →
     exec .rstNRelease s = .next (State.finishReset { s with car := { s.car with rstLow := false } })) ∧
  (∀ (s : State) (fn : Nat) (answered fault : Bool), s.brs.running = true → Config.sitePresent fn = true → s.usable fn = true →
     s.car.regulator.contains fn = true →
     exec (.pmbusPoll fn answered fault) s =
       let t := (s.until (tget 0 s.car.pmbusAt fn + 10000000)).emit (.pmbus fn 0x79)
       let n := if answered then 0 else tget 0 t.car.pmbusMiss fn + 1
       let bad := fault = true ∨ 3 ≤ n
       let t : State := { t with car := { t.car with
         pmbusAt := tput 0 t.car.pmbusAt fn t.now, pmbusMiss := tput 0 t.car.pmbusMiss fn (if bad then 0 else n) } }
       .next (if bad then t.upFailure fn 2 else t)) ∧
  (∀ (s : State) (who : Who) (v : Nat), s.moduleReason who = none → (who = .pf0 ∨ who = .bursar) →
     exec (.gpioWrite who v) s =
       let t := s.wf Reg.AXB_GPIO 15 0 (nbits v 15 0)
       .next { t with car := { t.car with gpioOut := nbits v 7 0, gpioOe := nbits v 15 8 } }) ∧
  (∀ (s : State), s.brs.running = true → s.clock = true →
     let past := s.now - s.car.strobeAt
     let t := s.until (s.car.strobeAt + 1000000 * (if past ≤ 1000000 then 1 else (past + 999999) / 1000000))
     exec (.bursarStrobe true) s = .next (State.emit { t with car := { t.car with strobeAt := t.now } } .strobe) ∧
     exec (.bursarStrobe false) s = .next (t.addSat Reg.AXB_WDOG_STATUS 31 0 1))

/-- A step with the command `c` at the front of the queue is `exec c` on the state with the rest of the queue (the queue of waiting commands is the model's own). -/
def Obligations.StepRunsTheFront : Prop :=
  ∀ (c : Instr) (s : State) (rest : List Instr), step { s with pending := c :: rest } = exec c { s with pending := rest }

/-- A step on an empty queue: nothing while wafer time does not run, one nanosecond of it while it runs. A design choice of the model (log 3): the table has no row for a tick. -/
def Obligations.EmptyQueueTicks : Prop :=
  ∀ (s : State), s.pending = [] →
    (s.clock = false → step s = .next s) ∧
    (s.clock = true → ∃ t : State, step s = .next t ∧ t.now = s.now + 1 ∧ t.pending = [])

/-- No command faults and none is refused: `exec` answers a next state for every command, operand and state, with the queue of waiting commands as it was; and so does every step. -/
def Obligations.EveryCommandAnswers : Prop :=
  (∀ (c : Instr) (s : State), ∃ t : State, exec c s = .next t ∧ t.pending = s.pending) ∧
  (∀ (s : State), ∃ t : State, step s = .next t ∧ t.pending = s.pending.tail)

/-- What holds at reset, before the entry has power: every table is in canonical form; a key slot is live in the fuses the model chose (log 4); no command waits; wafer time stands at 0 and does not run; every register reads its reset value and every byte of the stores reads 0 (the model's choice where the spec gives none, log 4 and log 5). -/
def Obligations.ResetIsCanonical : Prop :=
  State.reset.Canonical ∧ State.reset.keysLive ∧ State.reset.pending = [] ∧ State.reset.clock = false ∧
    State.reset.now = 0 ∧ (∀ off, State.reset.rd off = Reg.resetOf off) ∧ (∀ a, State.reset.mem8 a = 0) ∧
    State.reset.mesh.flights = [] ∧ State.reset.host.started = []

/-- The canonical form is an invariant of every step: keys strictly rising and no entry equal to what an unlisted key reads, in the register file, the stores and every table of units, so that equal machines are equal data. -/
def Obligations.CanonicalKept : Prop :=
  ∀ (s t : State), s.Canonical → step s = .next t → t.Canonical

/-- Fuses are one-time: no step makes a revoked key slot valid again or lowers the minimum SVN of a slot; and since REVOKE_KEY is refused where it would leave no programmed, unrevoked slot (R460), a module with a live key keeps one for ever. -/
def Obligations.FusesGoOneWay : Prop :=
  ∀ (s t : State), step s = .next t → Fuses.le s.car.fuses t.car.fuses ∧ (s.keysLive → t.keysLive)

/-- Who can change what outlives a reset: the fuses change only by REVOKE_KEY and RAISE_SVN, the carrier flash only by the commands listed in `Instr.mayWriteFlash`, and the carrier as a whole only by those of `Instr.mayChangeCarrier`. -/
def Obligations.FusesAndFlashChangeOnlyByTheirCommands : Prop :=
  (∀ (c : Instr) (s t : State), exec c s = .next t → t.car.fuses ≠ s.car.fuses →
     (∃ it ok, c = .revokeKey it ok) ∨ (∃ it ok, c = .raiseSvn it ok)) ∧
  (∀ (c : Instr) (s t : State), exec c s = .next t →
     (c.mayWriteFlash = false → t.car.flash = s.car.flash) ∧ (c.mayChangeCarrier = false → t.car = s.car))

/-- The frame of the stores: a command outside `Instr.mayStore` leaves what every address reads; a DEPOSIT leaves every byte outside `[dst, dst + length of its data)`. -/
def Obligations.StoresKept : Prop :=
  (∀ (c : Instr) (s t : State), exec c s = .next t → c.mayStore = false → ∀ a, t.mem8 a = s.mem8 a) ∧
  (∀ (s t : State) (m : Msg), exec (.deposit m) s = .next t →
     ∀ a, (a < m.dst ∨ m.dst + m.data.length ≤ a) → t.mem8 a = s.mem8 a) ∧
  (∀ (s : State) (d : Nat) (bs : List Byte), memoryWf s.mem →
     (∀ a, (a < d ∨ d + bs.length ≤ a) → (s.store d bs).mem8 a = s.mem8 a) ∧
     (∀ i b, bs[i]? = some b → (s.store d bs).mem8 (d + i) = b) ∧ memoryWf (s.store d bs).mem)

/-- The frames of the units: a command outside the list of a kind of state (Safety) leaves all of that state as it was. -/
def Obligations.UnitsKept : Prop :=
  ∀ (c : Instr) (s t : State), exec c s = .next t →
    (c.mayPassTime = false → t.now = s.now) ∧ (c.mayWriteRegisters = false → t.regs = s.regs) ∧
    (c.mayChangeFields = false → t.fields = s.fields) ∧ (c.mayChangeCores = false → t.cores = s.cores) ∧
    (c.mayChangeLinks = false → t.kvl = s.kvl) ∧ (c.mayChangeSensors = false → t.snp = s.snp) ∧
    (c.mayChangeIslands = false → t.isl = s.isl) ∧ (c.mayChangeLeases = false → t.leases = s.leases) ∧
    (c.mayChangeBursar = false → t.brs = s.brs) ∧ (c.mayChangeMesh = false → t.mesh = s.mesh)

/-- While the bursar runs and AXB_GRADE.STANDBY_FN reads 0xFF, the expiry of the carrier watchdog, 5 ms after the last strobe, is a module reset with cause 4, which AXB_RESET_STATUS holds once the reset has ended; and ANCHOR_FAILOVER changes nothing. -/
def Obligations.WatchdogWithoutStandbyResets : Prop :=
  ∀ (s : State), s.brs.running = true → s.clock = true → s.rf Reg.AXB_GRADE 31 24 = 0xFF →
    exec .watchdogModuleReset s = .next ((s.until (s.car.strobeAt + 5000000)).moduleReset 4) ∧ ∀ back, exec (.anchorFailover back) s = .next s

/-- A write of FLD_BEATMON_CTL that keeps ENABLE leaves the window in progress with its start and its WINDOW, and the next window has the written WINDOW; a write that clears ENABLE clears VALID, keeps COUNT (as it stands then, with the beats of the abandoned window so far, a free value of log 1), the stamp and the other bits of the rate, and no window of it ends afterwards; a write that sets ENABLE again starts a window with the written WINDOW at once. -/
def Obligations.BeatmonWritesTakeEffect : Prop :=
  (∀ (s : State) (who : Who) (fn v : Nat), let c := Reg.FLD_BEATMON_CTL fn
     let r := Reg.FLD_BEATMON_RATE fn
     s.Canonical → s.fieldReason who fn = none →
     (s.rb c 0 = true → nbit v 0 = true → ∃ t : State, exec (.beatmonCtlWrite who fn v) s = .next t ∧
       t.rf c 2 1 = nbits v 2 1 ∧ (t.field fn).bmWindow = (s.field fn).bmWindow ∧ (t.field fn).bmStart = (s.field fn).bmStart) ∧
     (s.rb c 0 = true → nbit v 0 = false → ∃ t : State, exec (.beatmonCtlWrite who fn v) s = .next t ∧
       t.rb r 31 = false ∧ t.rf r 30 0 = s.rf r 30 0 ∧
       t.rd (Reg.FLD_BEATMON_COUNT fn) = (s.countBeats fn).rd (Reg.FLD_BEATMON_COUNT fn) ∧
       t.rd (Reg.FLD_BEATMON_STAMP fn) = s.rd (Reg.FLD_BEATMON_STAMP fn) ∧
       (∀ beats, exec (.beatmonWindowEnd fn beats) t = .next t)) ∧
     (s.rb c 0 = false → nbit v 0 = true → ∃ t : State, exec (.beatmonCtlWrite who fn v) s = .next t ∧
       (t.field fn).bmStart = s.now ∧ (t.field fn).bmWindow = nbits v 2 1 ∧ t.rb c 0 = true)) ∧
  (∀ (s t : State) (fn beats : Nat), s.Canonical → s.powered fn = true → (s.field fn).joined = true →
     s.rb (Reg.FLD_BEATMON_CTL fn) 0 = true → exec (.beatmonWindowEnd fn beats) s = .next t →
     (t.field fn).bmWindow = t.rf (Reg.FLD_BEATMON_CTL fn) 2 1)

/-- In a slot whose GZC_SHAPE.PRESENT is 0, of a powered field, every 32-bit read of a GZC_ register other than the two shape registers answers 0 and every write of one changes no register of the slot; each such access is recorded as a register access error of reason 2. -/
def Obligations.AbsentSlotReadsZero : Prop :=
  ∀ (s : State) (who : Who) (off fn k o v : Nat), fn < 100 → k < 4 → 0x10 ≤ o → o < 0x1000 →
    let a := Reg.win fn + 0x20000 + 0x1000 * k + o
    who ≠ .smbus → off + 4 ≤ Who.barSize who → off % 4 = 0 → s.resolve who off = (a, none) → s.brs.recovery = false →
    s.fieldReason who fn = none → (Reg.locate a).isSome = true → s.present fn k = false →
    exec (.lowWordRead who off 4) s = .next (State.accErrAt { s with reply := some 0 } who 2 false 0 0 off) ∧
    exec (.registerWrite who off 4 v) s = .next (s.accErrAt who 2 true 0 0 off)

/-- A vector of a function whose messages may be sent puts one message with the address and data of its table entry on the link and leaves its pending bit clear; a masked one, or one of a function that may not send, puts nothing on the link and leaves the pending bit set, however often it is raised. -/
def Obligations.MsixSendsOrPends : Prop :=
  ∀ (s : State) (f v : Nat), v < 64 → regsWf s.regs →
    (s.msixOpen f v = true → (s.msix f v).out = s.out ++ [.msix f v (s.rn (msixAddr f v)) (s.rf (msixData f v) 31 0)] ∧
      (s.msix f v).rb (msixPba f) v = false) ∧
    (s.msixOpen f v = false → (s.msix f v).out = s.out ∧ (s.msix f v).rb (msixPba f) v = true) ∧
    (s.rb (msixData f v) 32 = true ∨ (s.func f).msixEnable = false ∨ (s.func f).funcMask = true ∨ s.canDma f = false →
      s.msixOpen f v = false)
end

