-- ==== Sys2Proof/Laws/Arrived.lean ====
section
/-! SUPPORT. What the rows of a message answer: their action on the state that has taken the message, and what taking it leaves
as it was. -/

namespace Sys2Proof.Machine

set_option Elab.async false

theorem State.onArrived_here {s : State} {m : Msg} {f : State → State} (h : s.atDest m = true) :
    s.onArrived m f = .next (f (s.takeArrived m)) := by
  unfold State.onArrived State.when
  rw [if_pos h]

theorem State.onArrived_gone {s : State} {m : Msg} {f : State → State} (h : s.atDest m = false) :
    s.onArrived m f = .next s := by
  unfold State.onArrived State.when
  rw [if_neg (by simp only [h, Bool.false_eq_true, not_false_eq_true])]

section
variable (s : State) (m : Msg)

@[simp] theorem State.takeArrived_regs : (s.takeArrived m).regs = s.regs := rfl
@[simp] theorem State.takeArrived_mem : (s.takeArrived m).mem = s.mem := rfl
@[simp] theorem State.takeArrived_car : (s.takeArrived m).car = s.car := rfl
@[simp] theorem State.takeArrived_brs : (s.takeArrived m).brs = s.brs := rfl
@[simp] theorem State.takeArrived_host : (s.takeArrived m).host = s.host := rfl
@[simp] theorem State.takeArrived_now : (s.takeArrived m).now = s.now := rfl
@[simp] theorem State.takeArrived_leases : (s.takeArrived m).leases = s.leases := rfl
@[simp] theorem State.takeArrived_cores : (s.takeArrived m).cores = s.cores := rfl
@[simp] theorem State.takeArrived_sentOf (t : Nat) : (s.takeArrived m).sentOf t = s.sentOf t := rfl
@[simp] theorem State.takeArrived_grantOf (h g : Nat) : (s.takeArrived m).grantOf h g = s.grantOf h g := rfl
@[simp] theorem State.takeArrived_window (k w : Nat) : (s.takeArrived m).window k w = s.window k w := rfl
@[simp] theorem State.takeArrived_grantsOfWindow (h : Nat) (n : Msg) :
    (s.takeArrived m).grantsOfWindow h n = s.grantsOfWindow h n := rfl
@[simp] theorem State.takeArrived_core (fn k : Nat) : (s.takeArrived m).core fn k = s.core fn k := rfl
@[simp] theorem State.takeArrived_anchor : (s.takeArrived m).anchor = s.anchor := rfl
@[simp] theorem State.takeArrived_kvlFreeTag (p : Nat) : (s.takeArrived m).kvlFreeTag p = s.kvlFreeTag p := rfl
@[simp] theorem State.takeArrived_kvlState (p : Nat) : (s.takeArrived m).kvlState p = s.kvlState p := rfl
@[simp] theorem State.takeArrived_tally (t : Nat) : (s.takeArrived m).tally t = s.tally t := rfl
@[simp] theorem State.takeArrived_blockOwner (b : Nat) : (s.takeArrived m).blockOwner b = s.blockOwner b := rfl
@[simp] theorem State.takeArrived_mayTally (n : Msg) (t : Nat) : (s.takeArrived m).mayTally n t = s.mayTally n t := rfl

end

end Sys2Proof.Machine
end

