-- ==== Sys2Proof/Laws/Items.lean ====
section
/-! SUPPORT. What the operations shared by the rows of an item answer: the item's own action on the state in which it has
begun, and what beginning it leaves as it was. -/

namespace Sys2Proof.Machine

set_option Elab.async false

theorem State.onItemIf_open {s : State} {it : Item} {op : Nat} {x : Started} {ok : Started → Bool}
    {f : Started → State → State} (h : s.openItem it op = some x) (hk : ok x = true) :
    s.onItemIf it op ok f = .next (f x (s.begun x)) := by
  unfold State.openItem at h
  unfold State.onItemIf
  rw [h]
  simp [hk, State.begun]

theorem State.onItemIf_held {s : State} {it : Item} {op : Nat} {x : Started} {ok : Started → Bool}
    {f : Started → State → State} (h : s.openItem it op = some x) (hk : ok x = false) :
    s.onItemIf it op ok f = .next s := by
  unfold State.openItem at h
  unfold State.onItemIf
  rw [h]
  simp [hk]

theorem State.onItemIf_none {s : State} {it : Item} {op : Nat} {ok : Started → Bool}
    {f : Started → State → State} (h : s.openItem it op = none) : s.onItemIf it op ok f = .next s := by
  unfold State.openItem at h
  unfold State.onItemIf
  rw [h]

theorem State.onItem_open {s : State} {it : Item} {op : Nat} {x : Started} {f : Started → State → State}
    (h : s.openItem it op = some x) : s.onItem it op f = .next (f x (s.begun x)) :=
  State.onItemIf_open h rfl

theorem State.onItem_none {s : State} {it : Item} {op : Nat} {f : Started → State → State}
    (h : s.openItem it op = none) : s.onItem it op f = .next s :=
  State.onItemIf_none h

theorem State.onPart_open {s : State} {it : Item} {cop mop : Nat} {x : Started} {f : Started → Nat → State → State}
    (h : s.openItem it (if it.managed then mop else cop) = some x) (hp : targetPart it < 16)
    (hd : (s.part (targetPart it)).defined = true) :
    s.onPart it cop mop f = .next (f x (targetPart it) (s.begun x)) := by
  have hd' : ((s.begun x).part (targetPart it)).defined = true := hd
  unfold State.onPart
  rw [State.onItem_open h]
  simp only [hd', Nat.not_lt.mpr (Nat.le_of_lt_succ hp), if_false, Bool.not_true, Bool.false_eq_true]

theorem State.openItem_item {s : State} {it : Item} {op : Nat} {x : Started} (h : s.openItem it op = some x) :
    x.item = it ∧ it.op = op := by
  have := List.find?_some h
  simp only [Bool.and_eq_true, decide_eq_true_eq] at this
  exact ⟨this.1.1.1, this.2⟩

/-! What beginning an item leaves as it was. -/

section
variable (s : State) (x : Started)

@[simp] theorem State.begun_regs : (s.begun x).regs = s.regs := rfl
@[simp] theorem State.begun_mem : (s.begun x).mem = s.mem := rfl
@[simp] theorem State.begun_car : (s.begun x).car = s.car := rfl
@[simp] theorem State.begun_brs : (s.begun x).brs = s.brs := rfl
@[simp] theorem State.begun_mesh : (s.begun x).mesh = s.mesh := rfl
@[simp] theorem State.begun_now : (s.begun x).now = s.now := rfl
@[simp] theorem State.begun_leases : (s.begun x).leases = s.leases := rfl
@[simp] theorem State.begun_field (fn : Nat) : (s.begun x).field fn = s.field fn := rfl
@[simp] theorem State.begun_core (fn k : Nat) : (s.begun x).core fn k = s.core fn k := rfl
@[simp] theorem State.begun_part (p : Nat) : (s.begun x).part p = s.part p := rfl
@[simp] theorem State.begun_rn (r : Nat) : (s.begun x).rn r = s.rn r := rfl
@[simp] theorem State.begun_rf (r hi lo : Nat) : (s.begun x).rf r hi lo = s.rf r hi lo := rfl
@[simp] theorem State.begun_rb (r k : Nat) : (s.begun x).rb r k = s.rb r k := rfl
@[simp] theorem State.begun_window (k w : Nat) : (s.begun x).window k w = s.window k w := rfl
@[simp] theorem State.begun_grantOf (h g : Nat) : (s.begun x).grantOf h g = s.grantOf h g := rfl
@[simp] theorem State.begun_freeGrant (h : Nat) : (s.begun x).freeGrant h = s.freeGrant h := rfl
@[simp] theorem State.begun_freeCopy (p : Nat) : (s.begun x).freeCopy p = s.freeCopy p := rfl
@[simp] theorem State.begun_holderUnit (k n : Nat) : (s.begun x).holderUnit k n = s.holderUnit k n := rfl
@[simp] theorem State.begun_holderAllowed (p k n : Nat) : (s.begun x).holderAllowed p k n = s.holderAllowed p k n := rfl
@[simp] theorem State.begun_ownRange (fn k b n : Nat) : (s.begun x).ownRange fn k b n = s.ownRange fn k b n := rfl
@[simp] theorem State.begun_objRange (y : Started) (i o n : Nat) : (s.begun x).objRange y i o n = s.objRange y i o n := rfl
@[simp] theorem State.begun_owner (fn : Nat) : (s.begun x).owner fn = s.owner fn := rfl
@[simp] theorem State.begun_present (fn k : Nat) : (s.begun x).present fn k = s.present fn k := rfl
@[simp] theorem State.begun_anchor : (s.begun x).anchor = s.anchor := rfl
@[simp] theorem State.begun_partState (p : Nat) : (s.begun x).partState p = s.partState p := rfl
@[simp] theorem State.begun_partMoving (p : Nat) : (s.begun x).partMoving p = s.partMoving p := rfl
@[simp] theorem State.begun_hotFields (p : Nat) : (s.begun x).hotFields p = s.hotFields p := rfl
@[simp] theorem State.begun_loading : (s.begun x).loading = s.loading := rfl
@[simp] theorem State.begun_activeSlot (k : Nat) : (s.begun x).activeSlot k = s.activeSlot k := rfl
@[simp] theorem State.begun_headerErr (i : Image) : (s.begun x).headerErr i = s.headerErr i := rfl
@[simp] theorem State.begun_dirErr (i : Image) : (s.begun x).dirErr i = s.dirErr i := rfl
@[simp] theorem State.begun_keyErr (i : Image) : (s.begun x).keyErr i = s.keyErr i := rfl
@[simp] theorem State.begun_canDma (f : Nat) : (s.begun x).canDma f = s.canDma f := rfl
@[simp] theorem State.begun_powered (fn : Nat) : (s.begun x).powered fn = s.powered fn := rfl
@[simp] theorem State.begun_tbsState (fn : Nat) : (s.begun x).tbsState fn = s.tbsState fn := rfl
@[simp] theorem State.begun_portUp (fn p : Nat) : (s.begun x).portUp fn p = s.portUp fn p := rfl

end

end Sys2Proof.Machine
end

