-- ==== Sys2Proof/Laws/Table.lean ====
section
/-! SUPPORT. Laws of the sorted tables: a read after a write, and the canonical form that every table operation keeps. -/

namespace Sys2Proof.Machine

set_option Elab.async false

variable {α : Type} [DecidableEq α]

/-- Removing entries keeps rising keys and a higher lower bound is a stronger claim. -/
theorem tableFrom_mono {d : Nat → α} {t : List (Nat × α)} {lo hi : Nat} (h : lo ≤ hi)
    (w : tableFrom d hi t = true) : tableFrom d lo t = true := by
  cases t with
  | nil => rfl
  | cons e t =>
    simp only [tableFrom, Bool.and_eq_true, decide_eq_true_eq] at w ⊢
    exact ⟨⟨by omega, w.1.2⟩, w.2⟩

/-- A write keeps the canonical form. -/
theorem tableFrom_tput {d : Nat → α} {t : List (Nat × α)} {lo k : Nat} (v : α) (hk : lo ≤ k)
    (w : tableFrom d lo t = true) : tableFrom d lo (tput (d k) t k v) = true := by
  induction t generalizing lo with
  | nil =>
    simp only [tput]
    split
    · rfl
    · simp [tableFrom, *]
  | cons e t ih =>
    simp only [tableFrom, Bool.and_eq_true, decide_eq_true_eq] at w
    obtain ⟨⟨h1, h2⟩, h3⟩ := w
    simp only [tput]
    split
    · split
      · simp [tableFrom, *]
      · simp [tableFrom, *]
    · split
      · subst_vars
        split
        · exact tableFrom_mono (by omega) h3
        · simp [tableFrom, *]
      · have := ih (lo := e.1 + 1) (by omega) h3
        simp [tableFrom, *]

/-- A filter keeps the canonical form. -/
theorem tableFrom_filter {d : Nat → α} {t : List (Nat × α)} {lo : Nat} (p : Nat × α → Bool)
    (w : tableFrom d lo t = true) : tableFrom d lo (t.filter p) = true := by
  induction t generalizing lo with
  | nil => rfl
  | cons e t ih =>
    simp only [tableFrom, Bool.and_eq_true, decide_eq_true_eq] at w
    simp only [List.filter]
    split
    · simp [tableFrom, w.1.1, w.1.2, ih w.2]
    · exact tableFrom_mono (by omega) (ih w.2)

theorem tableWf_tput {d : Nat → α} {t : List (Nat × α)} {k : Nat} (v : α) (w : tableWf d t = true) :
    tableWf d (tput (d k) t k v) = true := tableFrom_tput v (Nat.zero_le k) w

theorem tableWf_filter {d : Nat → α} {t : List (Nat × α)} (p : Nat × α → Bool) (w : tableWf d t = true) :
    tableWf d (t.filter p) = true := tableFrom_filter p w

theorem tableWf_tclear {d : Nat → α} {t : List (Nat × α)} {lo hi : Nat} (w : tableWf d t = true) :
    tableWf d (tclear lo hi t) = true := tableFrom_filter _ w

/-- Below its first key a canonical table lists nothing. -/
theorem tget_below {d : Nat → α} {t : List (Nat × α)} {lo k : Nat} (hk : k < lo) (w : tableFrom d lo t = true) (x : α) :
    tget x t k = x := by
  induction t generalizing lo with
  | nil => rfl
  | cons e t ih =>
    simp only [tableFrom, Bool.and_eq_true, decide_eq_true_eq] at w
    have : k ≠ e.1 := by omega
    simp [tget, this, ih (lo := e.1 + 1) (by omega) w.2]

theorem tget_tput_of {d : Nat → α} {t : List (Nat × α)} {lo k j : Nat} (v : α) (w : tableFrom d lo t = true) :
    tget (d j) (tput (d k) t k v) j = if j = k then v else tget (d j) t j := by
  induction t generalizing lo with
  | nil =>
    simp only [tput]
    split <;> simp_all [tget]
  | cons e t ih =>
    simp only [tableFrom, Bool.and_eq_true, decide_eq_true_eq] at w
    obtain ⟨⟨h1, h2⟩, h3⟩ := w
    have hi := ih h3
    simp only [tput]
    by_cases hjk : j = k
    · subst hjk
      split
      · have hb := tget_below (x := d j) (k := j) (lo := e.1 + 1) (by omega) h3
        split <;> simp_all [tget]
        omega
      · split
        · subst_vars
          have hb := tget_below (x := d e.1) (k := e.1) (lo := e.1 + 1) (by omega) h3
          split <;> simp_all [tget]
        · simp_all [tget]
    · simp only [hjk, if_false] at hi ⊢
      split
      · split <;> simp [tget, hjk]
      · split
        · subst_vars
          split <;> simp [tget, hjk]
        · simp [tget, hi]

/-- A write leaves every other key as it was, in any table. -/
theorem tget_tput_ne {x d : α} {t : List (Nat × α)} {k j : Nat} (v : α) (h : j ≠ k) :
    tget x (tput d t k v) j = tget x t j := by
  induction t with
  | nil => simp only [tput]; split <;> simp [tget, h]
  | cons e t ih =>
    simp only [tput]
    split
    · split <;> simp [tget, h]
    · split
      · subst_vars
        split <;> simp [tget, h]
      · simp only [tget, ih]

/-- A value that is not the unlisted one reads back, in any table. -/
theorem tget_tput_self {x d : α} {t : List (Nat × α)} {k : Nat} {v : α} (h : v ≠ d) : tget x (tput d t k v) k = v := by
  induction t with
  | nil => simp [tput, h, tget]
  | cons e t ih =>
    simp only [tput]
    split
    · simp [tget]
    · split
      · simp [tget]
      · simp [tget, *]

/-- A read after a write of a canonical table: the value written at its key, the old one everywhere else. -/
theorem tget_tput {d : Nat → α} {t : List (Nat × α)} {k j : Nat} (v : α) (w : tableWf d t = true) :
    tget (d j) (tput (d k) t k v) j = if j = k then v else tget (d j) t j := tget_tput_of v w

end Sys2Proof.Machine
end

