-- ==== Sys2Proof/Laws/Kept.lean ====
section
/-! SUPPORT. What every operation of the model keeps: the queue of waiting commands, the canonical form of every table, the
fuses, which only ever go one way, and, for the operations that do not touch them, the stores, the fuses, the flash, wafer
time and the state of fields, cores, ports, islands and leases. `Kept k z s` relates a starting state `z` to a later one;
`k` names the pieces that are to stay as they were. Each operation of the model has a lemma of the form
`Kept k z s → Kept k z (operation s)`, whose hypotheses `¬k.mem` and the like say which pieces the operation may change;
a meaning is so followed operation by operation. -/

namespace Sys2Proof.Machine

set_option Elab.async false

/-- The pieces of state that `Kept` holds fixed. -/
structure Facets where
  regs : Prop
  car : Prop
  brs : Prop
  mesh : Prop
  mem : Prop
  fuses : Prop
  flash : Prop
  now : Prop
  fields : Prop
  cores : Prop
  kvl : Prop
  snp : Prop
  isl : Prop
  leases : Prop

/-- The fuses of `b` follow from those of `a`: nothing that is blown comes back, and a live key stays. -/
structure Fuses.Follows (a b : Fuses) : Prop where
  le : Fuses.le a b
  live : a.live ≠ [] → b.live ≠ []

theorem Fuses.Follows.rfl (a : Fuses) : Fuses.Follows a a := ⟨⟨fun _ h => h, fun _ => Nat.le_refl _⟩, fun h => h⟩

theorem Fuses.Follows.trans {a b c : Fuses} (h : Fuses.Follows a b) (k : Fuses.Follows b c) : Fuses.Follows a c :=
  ⟨⟨fun n m => k.le.1 n (h.le.1 n m), fun n => Nat.le_trans (h.le.2 n) (k.le.2 n)⟩, fun m => k.live (h.live m)⟩

/-- What lies between the state `z` in which a command starts and a later state `s` of the same command. -/
structure Kept (k : Facets) (z s : State) : Prop where
  pending : s.pending = z.pending
  follows : Fuses.Follows z.car.fuses s.car.fuses
  canonical : z.Canonical → s.Canonical
  regs : k.regs → s.regs = z.regs
  car : k.car → s.car = z.car
  brs : k.brs → s.brs = z.brs
  mesh : k.mesh → s.mesh = z.mesh
  mem : k.mem → s.mem = z.mem
  fuses : k.fuses → s.car.fuses = z.car.fuses
  flash : k.flash → s.car.flash = z.car.flash
  now : k.now → s.now = z.now
  fields : k.fields → s.fields = z.fields
  cores : k.cores → s.cores = z.cores
  kvl : k.kvl → s.kvl = z.kvl
  snp : k.snp → s.snp = z.snp
  isl : k.isl → s.isl = z.isl
  leases : k.leases → s.leases = z.leases

variable {k : Facets}

theorem Kept.rfl (z : State) : Kept k z z :=
  ⟨Eq.refl _, Fuses.Follows.rfl _, fun h => h, fun _ => Eq.refl _, fun _ => Eq.refl _, fun _ => Eq.refl _, fun _ => Eq.refl _, fun _ => Eq.refl _, fun _ => Eq.refl _, fun _ => Eq.refl _, fun _ => Eq.refl _,
    fun _ => Eq.refl _, fun _ => Eq.refl _, fun _ => Eq.refl _, fun _ => Eq.refl _, fun _ => Eq.refl _, fun _ => Eq.refl _⟩

/-- A record update that touches none of the tables, the queue or the fuses. -/
theorem Kept.upd {z st : State} {now : Nat} {clock : Bool} {fresh : Nat} {reply : Option Word} {latches : List Latch}
    {mesh : MeshSt} {host : HostSt} {car : Carrier} {brs : Bursar} {out : List Out}
    (h : Kept k z st) (hc : car.fuses = st.car.fuses := by with_reducible rfl)
    (hn : k.now → now = st.now := by first | exact fun h => absurd h (by assumption) | with_reducible exact fun _ => Eq.refl _)
    (hf : k.flash → car.flash = st.car.flash := by
      first | exact fun h => absurd h (by assumption) | with_reducible exact fun _ => Eq.refl _)
    (hr : k.car → car = st.car := by first | exact fun h => absurd h (by assumption) | with_reducible exact fun _ => Eq.refl _)
    (hb : k.brs → brs = st.brs := by first | exact fun h => absurd h (by assumption) | with_reducible exact fun _ => Eq.refl _)
    (hm : k.mesh → mesh = st.mesh := by
      first | exact fun h => absurd h (by assumption) | with_reducible exact fun _ => Eq.refl _) :
    Kept k z ⟨st.pending, now, clock, fresh, reply, st.regs, latches, st.mem, st.poison, st.flipped, st.fields, st.cores,
      st.kvl, st.snp, st.isl, st.leases, mesh, host, car, brs, out⟩ :=
  { h with
    follows := hc ▸ h.follows
    canonical := fun w => { h.canonical w with }
    fuses := fun a => hc.trans (h.fuses a)
    flash := fun a => (hf a).trans (h.flash a)
    now := fun a => (hn a).trans (h.now a)
    car := fun a => (hr a).trans (h.car a)
    brs := fun a => (hb a).trans (h.brs a)
    mesh := fun a => (hm a).trans (h.mesh a) }

theorem Kept.ite {z a b : State} {c : Prop} [Decidable c] (ha : Kept k z a) (hb : Kept k z b) :
    Kept k z (if c then a else b) := by split <;> assumption

theorem Kept.ite₁ {α : Type} {z : State} {a b : State × α} {c : Prop} [Decidable c] (ha : Kept k z a.1)
    (hb : Kept k z b.1) : Kept k z (if c then a else b).1 := by split <;> assumption

theorem Kept.ite₂ {α : Type} {z : State} {a b : α × State} {c : Prop} [Decidable c] (ha : Kept k z a.2)
    (hb : Kept k z b.2) : Kept k z (if c then a else b).2 := by split <;> assumption

theorem Kept.foldl {α : Type} {z st : State} {f : State → α → State} {l : List α} (h : Kept k z st)
    (hf : ∀ x a, Kept k z x → Kept k z (f x a)) : Kept k z (l.foldl f st) := by
  induction l generalizing st with
  | nil => exact h
  | cons a t ih => exact ih (hf _ _ h)

theorem Kept.foldl₁ {α β : Type} {z : State} {r : State × β} {f : State × β → α → State × β} {l : List α}
    (h : Kept k z r.1) (hf : ∀ x a, Kept k z x.1 → Kept k z (f x a).1) : Kept k z (l.foldl f r).1 := by
  induction l generalizing r with
  | nil => exact h
  | cons a t ih => exact ih (hf _ _ h)

theorem Kept.foldl₂ {α β : Type} {z : State} {r : β × State} {f : β × State → α → β × State} {l : List α}
    (h : Kept k z r.2) (hf : ∀ x a, Kept k z x.2 → Kept k z (f x a).2) : Kept k z (l.foldl f r).2 := by
  induction l generalizing r with
  | nil => exact h
  | cons a t ih => exact ih (hf _ _ h)

theorem Kept.foldl₂₂ {α β γ : Type} {z : State} {r : β × γ × State} {f : β × γ × State → α → β × γ × State} {l : List α}
    (h : Kept k z r.2.2) (hf : ∀ x a, Kept k z x.2.2 → Kept k z (f x a).2.2) : Kept k z (l.foldl f r).2.2 := by
  induction l generalizing r with
  | nil => exact h
  | cons a t ih => exact ih (hf _ _ h)

/-- An intermediate state, named and kept. -/
theorem Kept.cut (k : Facets) (z x : State) {g : Prop} (h : Kept k z x) (j : Kept k z x → g) : g := j h

theorem Kept.cutF (k : Facets) (z : State) (x : State → State) {g : Prop} (h : ∀ s, Kept k z s → Kept k z (x s))
    (j : (∀ s, Kept k z s → Kept k z (x s)) → g) : g := j h

theorem Kept.cutF₁ {α : Type} (k : Facets) (z : State) (x : State → α → State) {g : Prop} (h : ∀ s a, Kept k z s → Kept k z (x s a))
    (j : (∀ s a, Kept k z s → Kept k z (x s a)) → g) : g := j h

theorem Kept.cutF₂ {α β : Type} (k : Facets) (z : State) (x : State → α → β → State) {g : Prop}
    (h : ∀ s a b, Kept k z s → Kept k z (x s a b)) (j : (∀ s a b, Kept k z s → Kept k z (x s a b)) → g) : g := j h

theorem Kept.cutF₄ {α β γ δ : Type} (k : Facets) (z : State) (x : State → α → β → γ → δ → State) {g : Prop}
    (h : ∀ s a b c d, Kept k z s → Kept k z (x s a b c d))
    (j : (∀ s a b c d, Kept k z s → Kept k z (x s a b c d)) → g) : g := j h

theorem Kept.cutA {α : Type} (k : Facets) (z : State) (x : α → State) {g : Prop}
    (h : ∀ a, Kept k z (x a)) (j : (∀ a, Kept k z (x a)) → g) : g := j h

theorem Kept.cutP {α β : Type} (k : Facets) (z : State) (x : State × β → α → State × β) {g : Prop}
    (h : ∀ r a, Kept k z r.1 → Kept k z (x r a).1) (j : (∀ r a, Kept k z r.1 → Kept k z (x r a).1) → g) : g := j h

/-- The command answers a next state, and that state keeps what `Kept` says. -/
def KeptOut (k : Facets) (z : State) (o : Out1) : Prop := ∃ t, o = .next t ∧ Kept k z t

theorem KeptOut.next {z t : State} (h : Kept k z t) : KeptOut k z (.next t) :=
  ⟨t, Eq.refl _, h⟩

theorem KeptOut.ite {z : State} {a b : Out1} {c : Prop} [Decidable c] (ha : KeptOut k z a) (hb : KeptOut k z b) :
    KeptOut k z (if c then a else b) := by split <;> assumption

end Sys2Proof.Machine
end

