-- ==== Sys2Proof/Laws/KeptOps.lean ====
section
/-! SUPPORT. What the shared operations: registers, units, events, leases, windows, the core operations and wafer time keep (see Kept.lean). -/

namespace Sys2Proof.Machine

set_option Elab.async false

set_option linter.unusedVariables false

variable {kf : Facets} {z0 : State}

theorem State.wr_kept {kf : Facets} {z0 st : State} {off : Nat} {v : Word} (h : Kept kf z0 st) (hregs : ¬kf.regs) :
    Kept kf z0 (State.wr st off v) :=
  { h with
    canonical := fun w => { h.canonical w with regs := tableWf_tput _ (h.canonical w).regs }
    regs := fun a => absurd a hregs }

theorem State.wf_kept {st : State} {off hi lo n : Nat} (h_st : Kept kf z0 st) (hregs : ¬kf.regs) :
    Kept kf z0 (State.wf st off hi lo n) := by
  unfold State.wf
  with_reducible repeat' first
    | assumption
    | apply State.wr_kept

theorem State.setb_kept {st : State} {off b : Nat} (h_st : Kept kf z0 st) (hregs : ¬kf.regs) :
    Kept kf z0 (State.setb st off b) := by
  unfold State.setb
  with_reducible repeat' first
    | assumption
    | apply State.wf_kept

theorem State.clrb_kept {st : State} {off b : Nat} (h_st : Kept kf z0 st) (hregs : ¬kf.regs) :
    Kept kf z0 (State.clrb st off b) := by
  unfold State.clrb
  with_reducible repeat' first
    | assumption
    | apply State.wf_kept

theorem State.wn_kept {st : State} {off n : Nat} (h_st : Kept kf z0 st) (hregs : ¬kf.regs) :
    Kept kf z0 (State.wn st off n) := by
  unfold State.wn
  with_reducible repeat' first
    | assumption
    | apply State.wr_kept

theorem State.add_kept {st : State} {off hi lo n : Nat} (h_st : Kept kf z0 st) (hregs : ¬kf.regs) :
    Kept kf z0 (State.add st off hi lo n) := by
  unfold State.add
  with_reducible repeat' first
    | assumption
    | apply State.wf_kept

theorem State.addSat_kept {st : State} {off hi lo n : Nat} (h_st : Kept kf z0 st) (hregs : ¬kf.regs) :
    Kept kf z0 (State.addSat st off hi lo n) := by
  unfold State.addSat
  with_reducible repeat' first
    | assumption
    | apply State.wf_kept

theorem State.resetRegs_kept {kf : Facets} {z0 st : State} {lo hi : Nat} (h : Kept kf z0 st) (hregs : ¬kf.regs) :
    Kept kf z0 (State.resetRegs st lo hi) :=
  { h with
    canonical := fun w => { h.canonical w with regs := tableWf_tclear (h.canonical w).regs }
    regs := fun a => absurd a hregs }

theorem State.draw_kept {kf : Facets} {z0 st : State} (h : Kept kf z0 st) : Kept kf z0 (State.draw st).2 :=
  Kept.upd h

theorem State.when_kept {kf : Facets} {z0 st : State} {c : Bool} {f : State → State} (h : Kept kf z0 st)
    (hf : ∀ x, Kept kf z0 x → Kept kf z0 (f x)) : Kept kf z0 (State.when st c f) := by
  unfold State.when
  split
  · exact hf _ h
  · exact h

theorem State.setField_kept {kf : Facets} {z0 st : State} {fn : Nat} {f : FieldSt} (h : Kept kf z0 st) (hfields : ¬kf.fields) :
    Kept kf z0 (State.setField st fn f) :=
  { h with
    canonical := fun w => { h.canonical w with fields := tableWf_tput _ (h.canonical w).fields }
    fields := fun a => absurd a hfields }

theorem State.setCore_kept {kf : Facets} {z0 st : State} {fn s : Nat} {c : CoreSt} (h : Kept kf z0 st) (hcores : ¬kf.cores) :
    Kept kf z0 (State.setCore st fn s c) :=
  { h with
    canonical := fun w => { h.canonical w with cores := tableWf_tput _ (h.canonical w).cores }
    cores := fun a => absurd a hcores }

theorem State.setPart_kept {st : State} {p : Nat} {x : PartSt} (h_st : Kept kf z0 st) (hbrs : ¬kf.brs) :
    Kept kf z0 (State.setPart st p x) := by
  unfold State.setPart
  with_reducible repeat' first
    | assumption
    | (extract_lets +onlyGivenNames x; clear_value x)
    | fail_if_no_progress (refine Kept.upd ?_)

theorem State.setQueue_kept {st : State} {q : Nat} {x : QueueSt} (h_st : Kept kf z0 st) :
    Kept kf z0 (State.setQueue st q x) := by
  unfold State.setQueue
  with_reducible repeat' first
    | assumption
    | (extract_lets +onlyGivenNames x; clear_value x)
    | fail_if_no_progress (refine Kept.upd ?_)

theorem State.setPower_kept {st : State} {fn : Nat} {p : Power} (h_st : Kept kf z0 st) (hregs : ¬kf.regs)
    (hfields : ¬kf.fields) :
    Kept kf z0 (State.setPower st fn p) := by
  unfold State.setPower
  with_reducible repeat' first
    | assumption
    | (extract_lets +onlyGivenNames x; clear_value x)
    | apply State.setField_kept
    | apply State.wf_kept

theorem State.setMem8_kept {kf : Facets} {z0 st : State} {a : Nat} {b : Byte} (h : Kept kf z0 st) (hmem : ¬kf.mem) :
    Kept kf z0 (State.setMem8 st a b) :=
  { h with
    canonical := fun w => { h.canonical w with mem := tableWf_tput _ (h.canonical w).mem }
    mem := fun a => absurd a hmem }

theorem State.setBytes_kept {kf : Facets} {z0 st : State} {a : Nat} {bs : List Byte} (h : Kept kf z0 st) (hmem : ¬kf.mem) :
    Kept kf z0 (State.setBytes st a bs) := by
  induction bs generalizing st a with
  | nil => exact h
  | cons b t ih => exact ih (State.setMem8_kept h hmem)

theorem State.store_kept {kf : Facets} {z0 st : State} {a : Nat} {bs : List Byte} (h : Kept kf z0 st) (hmem : ¬kf.mem) :
    Kept kf z0 (State.store st a bs) := by
  have e := State.setBytes_kept (a := a) (bs := bs) h hmem
  exact { e with canonical := fun w =>
    { e.canonical w with poison := tableWf_tclear (h.canonical w).poison, flipped := tableWf_tclear (h.canonical w).flipped } }

theorem State.zeroRange_kept {kf : Facets} {z0 st : State} {lo hi : Nat} (h : Kept kf z0 st) (hmem : ¬kf.mem) :
    Kept kf z0 (State.zeroRange st lo hi) :=
  { h with
    canonical := fun w => { h.canonical w with
      mem := tableWf_tclear (h.canonical w).mem, poison := tableWf_tclear (h.canonical w).poison,
      flipped := tableWf_tclear (h.canonical w).flipped }
    mem := fun a => absurd a hmem }

theorem State.eccCount_kept {st : State} {a : Nat} {uncorr : Bool} (h_st : Kept kf z0 st) (hregs : ¬kf.regs) :
    Kept kf z0 (State.eccCount st a uncorr) := by
  unfold State.eccCount
  with_reducible repeat' first
    | assumption
    | (extract_lets +onlyGivenNames x; first
        | (refine Kept.cut kf z0 x ?_ (fun hx => ?_) <;> [subst x; clear_value x])
        | clear_value x)
    | apply State.addSat_kept
    | apply State.wn_kept
    | apply Kept.ite

theorem State.checkWords_kept {kf : Facets} {z0 st : State} {n w : Nat} (h : Kept kf z0 st) (hregs : ¬kf.regs) :
    Kept kf z0 (State.checkWords st n w).1 := by
  induction n generalizing st w with
  | zero => exact h
  | succ n ih =>
    refine ih ?_
    split
    · exact State.eccCount_kept h hregs
    · split
      · have e := State.eccCount_kept (a := w * 8) (uncorr := false) h hregs
        exact { e with canonical := fun c =>
          { e.canonical c with flipped := tableWf_tput _ (h.canonical c).flipped } }
      · exact h

theorem State.readEcc_kept {st : State} {a n : Nat} (h_st : Kept kf z0 st) (hregs : ¬kf.regs) :
    Kept kf z0 (State.readEcc st a n).2.2 := by
  unfold State.readEcc
  with_reducible repeat' first
    | assumption
    | (extract_lets +onlyGivenNames x; refine Kept.cut kf z0 x.1 ?_ (fun hx => ?_) <;> [subst x; clear_value x])
    | apply State.checkWords_kept
    | apply Kept.ite₁

theorem State.emit_kept {st : State} {o : Out} (h_st : Kept kf z0 st) :
    Kept kf z0 (State.emit st o) := by
  unfold State.emit
  with_reducible repeat' first
    | assumption
    | fail_if_no_progress (refine Kept.upd ?_)

theorem State.dmaWrite_kept {st : State} {f addr : Nat} {bytes : List Byte} {poison : Bool} {bulk : Bool}
    (h_st : Kept kf z0 st) (hregs : ¬kf.regs) :
    Kept kf z0 (State.dmaWrite st f addr bytes poison bulk) := by
  unfold State.dmaWrite
  with_reducible repeat' first
    | assumption
    | refine fun _ (_ : Kept _ _ _) => ?_
    | refine fun _ _ (_ : Kept _ _ _) => ?_
    | refine fun _ _ _ (_ : Kept _ _ _) => ?_
    | (extract_lets +onlyGivenNames x; clear_value x)
    | apply State.add_kept
    | apply State.emit_kept
    | apply hF
    | apply Kept.ite
    | apply Kept.foldl

theorem State.msix_kept {st : State} {f v : Nat} (h_st : Kept kf z0 st) (hregs : ¬kf.regs) :
    Kept kf z0 (State.msix st f v) := by
  unfold State.msix
  with_reducible repeat' first
    | assumption
    | apply State.clrb_kept
    | apply State.emit_kept
    | apply State.setb_kept
    | apply Kept.ite

theorem State.evtPut_kept {st : State} {f cls fn : Nat} {bytes : List Byte} (h_st : Kept kf z0 st) (hregs : ¬kf.regs) :
    Kept kf z0 (State.evtPut st f cls fn bytes).1 := by
  unfold State.evtPut
  with_reducible repeat' first
    | assumption
    | (extract_lets +onlyGivenNames x; first
        | (refine Kept.cut kf z0 x ?_ (fun hx => ?_) <;> [subst x; clear_value x])
        | clear_value x)
    | apply State.dmaWrite_kept
    | apply State.msix_kept
    | apply State.wf_kept
    | apply Kept.ite
    | apply Kept.ite₁

theorem State.payOwed_kept {st : State} {f : Nat} (h_st : Kept kf z0 st) (hregs : ¬kf.regs) :
    Kept kf z0 (State.payOwed st f).1 := by
  unfold State.payOwed
  with_reducible repeat' first
    | assumption
    | (extract_lets +onlyGivenNames x; first
        | (refine Kept.cut kf z0 x ?_ (fun hx => ?_) <;> [subst x; clear_value x])
        | (refine Kept.cut kf z0 x.1 ?_ (fun hx => ?_) <;> [subst x; clear_value x])
        | clear_value x)
    | apply State.evtPut_kept
    | apply Kept.ite₁
    | dsimp only
    | fail_if_no_progress (refine Kept.upd ?_)

theorem State.offer_kept {st : State} {f cls fn : Nat} {bytes : List Byte} (h_st : Kept kf z0 st) (hregs : ¬kf.regs) :
    Kept kf z0 (State.offer st f cls fn bytes) := by
  unfold State.offer
  with_reducible repeat' first
    | assumption
    | (extract_lets +onlyGivenNames x; first
        | (refine Kept.cut kf z0 x ?_ (fun hx => ?_) <;> [subst x; clear_value x])
        | (refine Kept.cut kf z0 x.1 ?_ (fun hx => ?_) <;> [subst x; clear_value x])
        | clear_value x)
    | apply State.add_kept
    | apply State.evtPut_kept
    | apply State.payOwed_kept
    | apply Kept.ite
    | apply Kept.ite₁
    | fail_if_no_progress (refine Kept.upd ?_)

theorem State.offerAll_kept {st : State} {cls part fn : Nat} {bytes : List Byte} (h_st : Kept kf z0 st)
    (hregs : ¬kf.regs) :
    Kept kf z0 (State.offerAll st cls part fn bytes) := by
  unfold State.offerAll
  with_reducible repeat' first
    | assumption
    | (extract_lets +onlyGivenNames x; refine Kept.cut kf z0 x ?_ (fun hx => ?_) <;> [subst x; clear_value x])
    | apply State.offer_kept
    | apply Kept.ite

theorem State.notice_kept {st : State} {cls part fn slot unit d0 d1 : Nat} (h_st : Kept kf z0 st) (hregs : ¬kf.regs) :
    Kept kf z0 (State.notice st cls part fn slot unit d0 d1) := by
  unfold State.notice
  with_reducible repeat' first
    | assumption
    | apply State.offerAll_kept

theorem State.pins_kept {st : State} (h_st : Kept kf z0 st) (hregs : ¬kf.regs) (hcar : ¬kf.car) :
    Kept kf z0 (State.pins st) := by
  unfold State.pins
  with_reducible repeat' first
    | assumption
    | (extract_lets +onlyGivenNames x; first
        | (refine Kept.cut kf z0 x ?_ (fun hx => ?_) <;> [subst x; clear_value x])
        | (have : x.fuses = x.fuses := (by rfl); clear this; subst x)
        | clear_value x)
    | apply State.wf_kept
    | fail_if_no_progress (refine Kept.upd ?_)

theorem State.latchFault_kept {st : State} (h_st : Kept kf z0 st) (hregs : ¬kf.regs) (hcar : ¬kf.car) :
    Kept kf z0 (State.latchFault st) := by
  unfold State.latchFault
  with_reducible repeat' first
    | assumption
    | (extract_lets +onlyGivenNames x; have : x.fuses = x.fuses := (by rfl); clear this; subst x)
    | apply State.pins_kept
    | apply State.setb_kept
    | fail_if_no_progress (refine Kept.upd ?_)

theorem State.fault_kept {st : State} {cls scope part fn slot unit d0 d1 : Nat} (h_st : Kept kf z0 st)
    (hregs : ¬kf.regs) (hcar : ¬kf.car) :
    Kept kf z0 (State.fault st cls scope part fn slot unit d0 d1) := by
  unfold State.fault
  with_reducible repeat' first
    | assumption
    | refine fun _ _ (_ : Kept _ _ _) => ?_
    | (extract_lets +onlyGivenNames x; first
        | (refine Kept.cut kf z0 x ?_ (fun hx => ?_) <;> [subst x; clear_value x])
        | clear_value x)
    | apply State.latchFault_kept
    | apply State.offerAll_kept
    | apply State.wf_kept
    | apply State.wn_kept
    | apply Kept.ite
    | apply Kept.foldl

theorem State.setLease_kept {kf : Facets} {z0 st : State} {i : Nat} {l : Lease} (h : Kept kf z0 st) (hleases : ¬kf.leases) :
    Kept kf z0 (State.setLease st i l) :=
  { h with
    canonical := fun w => { h.canonical w with leases := tableWf_tput _ (h.canonical w).leases }
    leases := fun a => absurd a hleases }

theorem State.grantLease_kept {st : State} {kind owner hkind holder resource : Nat} (h_st : Kept kf z0 st)
    (hregs : ¬kf.regs) (hleases : ¬kf.leases) :
    Kept kf z0 (State.grantLease st kind owner hkind holder resource).2 := by
  unfold State.grantLease
  with_reducible repeat' first
    | assumption
    | apply State.setLease_kept
    | apply State.setb_kept
    | apply Kept.ite
    | dsimp only
    | split

theorem State.releaseLease_kept {st : State} {i : Nat} (h_st : Kept kf z0 st) (hleases : ¬kf.leases) :
    Kept kf z0 (State.releaseLease st i) := by
  unfold State.releaseLease
  with_reducible repeat' first
    | assumption
    | (extract_lets +onlyGivenNames x; clear_value x)
    | apply State.setLease_kept

theorem State.leaseUse_kept {st : State} {i : Nat} {up : Bool} (h_st : Kept kf z0 st) (hleases : ¬kf.leases) :
    Kept kf z0 (State.leaseUse st i up) := by
  unfold State.leaseUse
  with_reducible repeat' first
    | assumption
    | (extract_lets +onlyGivenNames x; clear_value x)
    | apply State.setLease_kept

theorem State.setWindow_kept {st : State} {k w : Nat} {x : Window} (h_st : Kept kf z0 st) (hregs : ¬kf.regs)
    (hmesh : ¬kf.mesh) :
    Kept kf z0 (State.setWindow st k w x) := by
  unfold State.setWindow
  with_reducible repeat' first
    | assumption
    | (extract_lets +onlyGivenNames x; first
        | (refine Kept.cut kf z0 x ?_ (fun hx => ?_) <;> [subst x; clear_value x])
        | clear_value x)
    | apply State.wf_kept
    | apply Kept.ite
    | fail_if_no_progress (refine Kept.upd ?_)

theorem State.setGrant_kept {st : State} {h g : Nat} {x : Grant} (h_st : Kept kf z0 st) (hregs : ¬kf.regs)
    (hmesh : ¬kf.mesh) :
    Kept kf z0 (State.setGrant st h g x) := by
  unfold State.setGrant
  with_reducible repeat' first
    | assumption
    | (extract_lets +onlyGivenNames x; first
        | (refine Kept.cut kf z0 x ?_ (fun hx => ?_) <;> [subst x; clear_value x])
        | clear_value x)
    | apply State.wf_kept
    | apply Kept.ite
    | fail_if_no_progress (refine Kept.upd ?_)

theorem State.send_kept {st : State} {src : Nat} {m : Msg} (h_st : Kept kf z0 st) (hmesh : ¬kf.mesh) :
    Kept kf z0 (State.send st src m) := by
  unfold State.send
  with_reducible repeat' first
    | assumption
    | (extract_lets +onlyGivenNames x; clear_value x)
    | apply hF
    | apply Kept.ite
    | intro _
    | dsimp only
    | fail_if_no_progress (refine Kept.upd ?_)

theorem State.takeArrived_kept {st : State} {m : Msg} (h_st : Kept kf z0 st) (hmesh : ¬kf.mesh) :
    Kept kf z0 (State.takeArrived st m) := by
  unfold State.takeArrived
  with_reducible repeat' first
    | assumption
    | (extract_lets +onlyGivenNames x; clear_value x)
    | fail_if_no_progress (refine Kept.upd ?_)

theorem State.track_kept {st : State} {x : Sent} (h_st : Kept kf z0 st) (hmesh : ¬kf.mesh) :
    Kept kf z0 (State.track st x) := by
  unfold State.track
  with_reducible repeat' first
    | assumption
    | (extract_lets +onlyGivenNames x; clear_value x)
    | fail_if_no_progress (refine Kept.upd ?_)

theorem State.sendDeposit_kept {st : State} {src unit part h g dst : Nat} {data : List Byte} {job : Job}
    {poison : Bool} (h_st : Kept kf z0 st) (hregs : ¬kf.regs) (hmesh : ¬kf.mesh) (hleases : ¬kf.leases) :
    Kept kf z0 (State.sendDeposit st src unit part h g dst data job poison) := by
  unfold State.sendDeposit
  with_reducible repeat' first
    | assumption
    | refine fun _ (_ : Kept _ _ _) => ?_
    | refine fun _ _ (_ : Kept _ _ _) => ?_
    | refine fun _ _ _ (_ : Kept _ _ _) => ?_
    | (extract_lets +onlyGivenNames x; first
        | (refine Kept.cut kf z0 x ?_ (fun hx => ?_) <;> [subst x; clear_value x])
        | (refine Kept.cut kf z0 x.1 ?_ (fun hx => ?_) <;> [subst x; clear_value x])
        | (refine Kept.cut kf z0 x.2 ?_ (fun hx => ?_) <;> [subst x; clear_value x])
        | (refine Kept.cut kf z0 x.2.2 ?_ (fun hx => ?_) <;> [subst x; clear_value x])
        | (refine Kept.cutF kf z0 x ?_ (fun hF => ?_) <;> [subst x; clear_value x])
        | (refine Kept.cutF₁ kf z0 x ?_ (fun hF => ?_) <;> [subst x; clear_value x])
        | (refine Kept.cutF₂ kf z0 x ?_ (fun hF => ?_) <;> [subst x; clear_value x])
        | (refine Kept.cutP kf z0 x ?_ (fun hF => ?_) <;> [subst x; clear_value x])
        | (refine Kept.cutA kf z0 x ?_ (fun hF => ?_) <;> [subst x; clear_value x])
        | (have : x.fuses = x.fuses := (by rfl); clear this; subst x)
        | clear_value x)
    | apply State.leaseUse_kept
    | apply State.send_kept
    | apply State.setGrant_kept
    | apply State.track_kept
    | apply hF
    | apply Kept.ite
    | apply Kept.foldl
    | apply Kept.foldl₁
    | apply Kept.foldl₂
    | apply Kept.foldl₂₂
    | intro _
    | dsimp only
    | fail_if_no_progress (refine Kept.upd ?_)
    | split

theorem State.releaseWindow_kept {st : State} {k w : Nat} (h_st : Kept kf z0 st) (hregs : ¬kf.regs)
    (hmesh : ¬kf.mesh) (hleases : ¬kf.leases) :
    Kept kf z0 (State.releaseWindow st k w) := by
  unfold State.releaseWindow
  with_reducible repeat' first
    | assumption
    | refine fun _ (_ : Kept _ _ _) => ?_
    | refine fun _ _ (_ : Kept _ _ _) => ?_
    | refine fun _ _ _ (_ : Kept _ _ _) => ?_
    | (extract_lets +onlyGivenNames x; first
        | (refine Kept.cut kf z0 x ?_ (fun hx => ?_) <;> [subst x; clear_value x])
        | clear_value x)
    | apply State.releaseLease_kept
    | apply State.setWindow_kept
    | apply hF
    | apply Kept.ite
    | apply Kept.foldl

theorem State.settleWindow_kept {st : State} {k w : Nat} (h_st : Kept kf z0 st) (hregs : ¬kf.regs)
    (hmesh : ¬kf.mesh) (hleases : ¬kf.leases) :
    Kept kf z0 (State.settleWindow st k w) := by
  unfold State.settleWindow
  with_reducible repeat' first
    | assumption
    | apply State.releaseWindow_kept
    | apply Kept.ite

theorem State.closeWindow_kept {st : State} {fn slot w : Nat} (h_st : Kept kf z0 st) (hregs : ¬kf.regs)
    (hmesh : ¬kf.mesh) (hleases : ¬kf.leases) :
    Kept kf z0 (State.closeWindow st fn slot w) := by
  unfold State.closeWindow
  with_reducible repeat' first
    | assumption
    | (extract_lets +onlyGivenNames x; first
        | (refine Kept.cut kf z0 x ?_ (fun hx => ?_) <;> [subst x; clear_value x])
        | clear_value x)
    | apply State.send_kept
    | apply State.setWindow_kept
    | apply State.settleWindow_kept
    | apply Kept.ite

theorem State.endUse_kept {st : State} {x : Grant} (h_st : Kept kf z0 st) (hregs : ¬kf.regs) (hmesh : ¬kf.mesh)
    (hleases : ¬kf.leases) :
    Kept kf z0 (State.endUse st x) := by
  unfold State.endUse
  with_reducible repeat' first
    | assumption
    | refine fun _ _ (_ : Kept _ _ _) => ?_
    | (extract_lets +onlyGivenNames x; refine Kept.cut kf z0 x ?_ (fun hx => ?_) <;> [subst x; clear_value x])
    | apply State.leaseUse_kept
    | apply State.settleWindow_kept
    | apply Kept.foldl

theorem State.quarantine_kept {st : State} {i scope : Nat} (h_st : Kept kf z0 st) (hregs : ¬kf.regs)
    (hmesh : ¬kf.mesh) (hleases : ¬kf.leases) :
    Kept kf z0 (State.quarantine st i scope) := by
  unfold State.quarantine
  with_reducible repeat' first
    | assumption
    | (extract_lets +onlyGivenNames x; first
        | (refine Kept.cut kf z0 x ?_ (fun hx => ?_) <;> [subst x; clear_value x])
        | clear_value x)
    | apply State.setLease_kept
    | apply State.setWindow_kept
    | apply State.wf_kept
    | apply Kept.ite

theorem State.quarantineAll_kept {st : State} {scope : Nat} {p : Lease → Bool} (h_st : Kept kf z0 st)
    (hregs : ¬kf.regs) (hmesh : ¬kf.mesh) (hleases : ¬kf.leases) :
    Kept kf z0 (State.quarantineAll st scope p) := by
  unfold State.quarantineAll
  with_reducible repeat' first
    | assumption
    | refine fun _ _ (_ : Kept _ _ _) => ?_
    | apply State.quarantine_kept
    | apply Kept.foldl

theorem State.wakeMsg_kept {st : State} {who tally result at_ : Nat} (h_st : Kept kf z0 st) (hmesh : ¬kf.mesh) :
    Kept kf z0 (State.wakeMsg st who tally result at_) := by
  unfold State.wakeMsg
  with_reducible repeat' first
    | assumption
    | (extract_lets +onlyGivenNames x; clear_value x)
    | apply State.send_kept

theorem State.setWaits_kept {st : State} {l : List TallyWait} (h_st : Kept kf z0 st) :
    Kept kf z0 (State.setWaits st l) := by
  unfold State.setWaits
  with_reducible repeat' first
    | assumption
    | (extract_lets +onlyGivenNames x; clear_value x)
    | fail_if_no_progress (refine Kept.upd ?_)

theorem State.wakeTally_kept {st : State} {t : Nat} (h_st : Kept kf z0 st) (hmesh : ¬kf.mesh) :
    Kept kf z0 (State.wakeTally st t) := by
  unfold State.wakeTally
  with_reducible repeat' first
    | assumption
    | refine fun _ (_ : Kept _ _ _) => ?_
    | refine fun _ _ (_ : Kept _ _ _) => ?_
    | refine fun _ _ _ (_ : Kept _ _ _) => ?_
    | (extract_lets +onlyGivenNames x; first
        | (refine Kept.cut kf z0 x ?_ (fun hx => ?_) <;> [subst x; clear_value x])
        | clear_value x)
    | apply State.setWaits_kept
    | apply State.wakeMsg_kept
    | apply hF
    | apply Kept.ite
    | apply Kept.foldl

theorem State.shadowTally_kept {st : State} {t : Nat} (h_st : Kept kf z0 st) :
    Kept kf z0 (State.shadowTally st t) := by
  unfold State.shadowTally
  with_reducible repeat' first
    | assumption
    | (extract_lets +onlyGivenNames x; clear_value x)
    | fail_if_no_progress (refine Kept.upd ?_)

theorem State.forward_kept {st : State} {t : Nat} (h_st : Kept kf z0 st) (hregs : ¬kf.regs) (hmesh : ¬kf.mesh) :
    Kept kf z0 (State.forward st t) := by
  unfold State.forward
  with_reducible repeat' first
    | assumption
    | (extract_lets +onlyGivenNames x; first
        | (refine Kept.cut kf z0 x ?_ (fun hx => ?_) <;> [subst x; clear_value x])
        | clear_value x)
    | apply State.addSat_kept
    | apply State.send_kept
    | apply State.track_kept
    | apply Kept.ite

theorem State.advanceTally_kept {st : State} {t new : Nat} (h_st : Kept kf z0 st) (hregs : ¬kf.regs) :
    Kept kf z0 (State.advanceTally st t new) := by
  unfold State.advanceTally
  with_reducible repeat' first
    | assumption
    | (extract_lets +onlyGivenNames x; first
        | (refine Kept.cut kf z0 x ?_ (fun hx => ?_) <;> [subst x; clear_value x])
        | clear_value x)
    | apply State.wf_kept
    | apply hF
    | apply Kept.ite
    | intro _
    | dsimp only
    | fail_if_no_progress (refine Kept.upd ?_)

theorem State.tallySignal_kept {st : State} {t new : Nat} (h_st : Kept kf z0 st) (hregs : ¬kf.regs)
    (hmesh : ¬kf.mesh) :
    Kept kf z0 (State.tallySignal st t new).1 := by
  unfold State.tallySignal
  with_reducible repeat' first
    | assumption
    | (extract_lets +onlyGivenNames x; clear_value x)
    | apply State.addSat_kept
    | apply State.advanceTally_kept
    | apply State.forward_kept
    | apply State.notice_kept
    | apply State.shadowTally_kept
    | apply State.wakeTally_kept
    | apply hF
    | apply Kept.ite
    | apply Kept.ite₁

theorem State.clearTallies_kept {st : State} {blocks : Nat} (h_st : Kept kf z0 st) (hregs : ¬kf.regs)
    (hmesh : ¬kf.mesh) :
    Kept kf z0 (State.clearTallies st blocks) := by
  unfold State.clearTallies
  with_reducible repeat' first
    | assumption
    | refine fun _ (_ : Kept _ _ _) => ?_
    | refine fun _ _ (_ : Kept _ _ _) => ?_
    | refine fun _ _ _ (_ : Kept _ _ _) => ?_
    | (extract_lets +onlyGivenNames x; first
        | (refine Kept.cut kf z0 x ?_ (fun hx => ?_) <;> [subst x; clear_value x])
        | clear_value x)
    | apply State.setWaits_kept
    | apply State.wakeMsg_kept
    | apply State.wn_kept
    | apply State.wr_kept
    | apply hF
    | apply Kept.ite
    | apply Kept.foldl
    | apply Kept.foldl₁
    | apply Kept.foldl₂
    | apply Kept.foldl₂₂
    | intro _
    | dsimp only
    | fail_if_no_progress (refine Kept.upd ?_)

theorem State.refresh_kept {st : State} {fn s : Nat} (h_st : Kept kf z0 st) (hregs : ¬kf.regs) :
    Kept kf z0 (State.refresh st fn s) := by
  unfold State.refresh
  with_reducible repeat' first
    | assumption
    | refine fun _ (_ : Kept _ _ _) => ?_
    | refine fun _ _ (_ : Kept _ _ _) => ?_
    | refine fun _ _ _ (_ : Kept _ _ _) => ?_
    | (extract_lets +onlyGivenNames x; first
        | (refine Kept.cut kf z0 x ?_ (fun hx => ?_) <;> [subst x; clear_value x])
        | clear_value x)
    | apply State.wf_kept
    | apply State.wn_kept

theorem State.putCore_kept {st : State} {fn s : Nat} {c : CoreSt} (h_st : Kept kf z0 st) (hregs : ¬kf.regs)
    (hcores : ¬kf.cores) :
    Kept kf z0 (State.putCore st fn s c) := by
  unfold State.putCore
  with_reducible repeat' first
    | assumption
    | apply State.refresh_kept
    | apply State.setCore_kept

theorem State.cacheTouch_kept {st : State} {fn s l : Nat} {write : Bool} (h_st : Kept kf z0 st) (hregs : ¬kf.regs)
    (hcores : ¬kf.cores) :
    Kept kf z0 (State.cacheTouch st fn s l write) := by
  unfold State.cacheTouch
  with_reducible repeat' first
    | assumption
    | (extract_lets +onlyGivenNames x; first
        | (refine Kept.cut kf z0 x ?_ (fun hx => ?_) <;> [subst x; clear_value x])
        | clear_value x)
    | apply State.add_kept
    | apply State.setCore_kept
    | apply State.wf_kept
    | apply Kept.ite
    | dsimp only
    | split

theorem State.touchRange_kept {st : State} {fn s a n : Nat} {write : Bool} (h_st : Kept kf z0 st) (hregs : ¬kf.regs)
    (hcores : ¬kf.cores) :
    Kept kf z0 (State.touchRange st fn s a n write) := by
  unfold State.touchRange
  with_reducible repeat' first
    | assumption
    | refine fun _ _ (_ : Kept _ _ _) => ?_
    | apply State.cacheTouch_kept
    | apply Kept.ite
    | apply Kept.foldl

theorem State.coreRead_kept {st : State} {fn s a n : Nat} (h_st : Kept kf z0 st) (hregs : ¬kf.regs)
    (hcores : ¬kf.cores) :
    Kept kf z0 (State.coreRead st fn s a n).2.2 := by
  unfold State.coreRead
  with_reducible repeat' first
    | assumption
    | (extract_lets +onlyGivenNames x; first
        | (refine Kept.cut kf z0 x.2.2 ?_ (fun hx => ?_) <;> [subst x; clear_value x])
        | clear_value x)
    | apply State.readEcc_kept
    | apply State.setCore_kept
    | apply State.touchRange_kept
    | apply hF
    | apply Kept.ite
    | apply Kept.ite₂
    | intro _
    | dsimp only
    | fail_if_no_progress (refine Kept.upd ?_)
    | split

theorem State.coreWrite_kept {st : State} {fn s a : Nat} {bytes : List Byte} (h_st : Kept kf z0 st)
    (hregs : ¬kf.regs) (hcores : ¬kf.cores) (hmem : ¬kf.mem) :
    Kept kf z0 (State.coreWrite st fn s a bytes) := by
  unfold State.coreWrite
  with_reducible repeat' first
    | assumption
    | apply State.store_kept
    | apply State.touchRange_kept

theorem State.intakeCheck_kept {kf : Facets} {z0 st : State} {fn s : Nat} {w : CmdWords} (h : Kept kf z0 st) (hregs : ¬kf.regs)
    (hcores : ¬kf.cores) :
    Kept kf z0 (State.intakeCheck st fn s w).2.2 := by
  unfold State.intakeCheck
  extract_lets +onlyGivenNames ix
  clear_value ix
  split
  · exact h
  · split
    · exact h
    · split
      · exact h
      · split
        · exact h
        · split
          · exact h
          · exact State.add_kept (State.coreRead_kept h hregs hcores) hregs
        · exact h

theorem State.lastErr_kept {st : State} {fn s : Nat} {w : CmdWords} {status detail : Nat} (h_st : Kept kf z0 st)
    (hregs : ¬kf.regs) :
    Kept kf z0 (State.lastErr st fn s w status detail) := by
  unfold State.lastErr
  with_reducible repeat' first
    | assumption
    | (extract_lets +onlyGivenNames x; first
        | (refine Kept.cut kf z0 x ?_ (fun hx => ?_) <;> [subst x; clear_value x])
        | (refine Kept.cut kf z0 x.1 ?_ (fun hx => ?_) <;> [subst x; clear_value x])
        | (refine Kept.cut kf z0 x.2 ?_ (fun hx => ?_) <;> [subst x; clear_value x])
        | (refine Kept.cut kf z0 x.2.2 ?_ (fun hx => ?_) <;> [subst x; clear_value x])
        | (refine Kept.cutF kf z0 x ?_ (fun hF => ?_) <;> [subst x; clear_value x])
        | (refine Kept.cutF₁ kf z0 x ?_ (fun hF => ?_) <;> [subst x; clear_value x])
        | (refine Kept.cutF₂ kf z0 x ?_ (fun hF => ?_) <;> [subst x; clear_value x])
        | (refine Kept.cutP kf z0 x ?_ (fun hF => ?_) <;> [subst x; clear_value x])
        | (refine Kept.cutA kf z0 x ?_ (fun hF => ?_) <;> [subst x; clear_value x])
        | (have : x.fuses = x.fuses := (by rfl); clear this; subst x))
    | apply State.wn_kept

theorem State.halt_kept {st : State} {fn s : Nat} {w : CmdWords} {status detail : Nat} (h_st : Kept kf z0 st)
    (hregs : ¬kf.regs) :
    Kept kf z0 (State.halt st fn s w status detail) := by
  unfold State.halt
  with_reducible repeat' first
    | assumption
    | apply State.lastErr_kept
    | apply State.setb_kept

theorem State.postRecord_kept {st : State} {fn s : Nat} {w : CmdWords} {status : Nat} (h_st : Kept kf z0 st)
    (hregs : ¬kf.regs) (hcores : ¬kf.cores) :
    Kept kf z0 (State.postRecord st fn s w status) := by
  unfold State.postRecord
  with_reducible repeat' first
    | assumption
    | (extract_lets +onlyGivenNames x; clear_value x)
    | apply State.putCore_kept

theorem State.ungate_kept {st : State} {fn s : Nat} {x : Cmd} (h_st : Kept kf z0 st) (hregs : ¬kf.regs)
    (hcores : ¬kf.cores) :
    Kept kf z0 (State.ungate st fn s x) := by
  unfold State.ungate
  with_reducible repeat' first
    | assumption
    | refine fun _ (_ : Kept _ _ _) => ?_
    | refine fun _ _ (_ : Kept _ _ _) => ?_
    | refine fun _ _ _ (_ : Kept _ _ _) => ?_
    | (extract_lets +onlyGivenNames x; first
        | (refine Kept.cut kf z0 x ?_ (fun hx => ?_) <;> [subst x; clear_value x])
        | clear_value x)
    | apply State.add_kept
    | apply State.setCore_kept
    | apply hF
    | apply Kept.ite

theorem State.fetchLine_kept {st : State} {fn s l : Nat} (h_st : Kept kf z0 st) (hregs : ¬kf.regs)
    (hcores : ¬kf.cores) :
    Kept kf z0 (State.fetchLine st fn s l).2 := by
  unfold State.fetchLine
  with_reducible repeat' first
    | assumption
    | (extract_lets +onlyGivenNames x; first
        | (refine Kept.cut kf z0 x.2.2 ?_ (fun hx => ?_) <;> [subst x; clear_value x])
        | clear_value x)
    | apply State.add_kept
    | apply State.coreRead_kept
    | apply State.setCore_kept
    | apply hF
    | apply Kept.ite
    | apply Kept.ite₂

theorem State.fetchSeg_kept {st : State} {fn s r a : Nat} (h_st : Kept kf z0 st) (hregs : ¬kf.regs)
    (hcores : ¬kf.cores) :
    Kept kf z0 (State.fetchSeg st fn s r a).2 := by
  unfold State.fetchSeg
  with_reducible repeat' first
    | assumption
    | (extract_lets +onlyGivenNames x; first
        | (refine Kept.cut kf z0 x.2.2 ?_ (fun hx => ?_) <;> [subst x; clear_value x])
        | clear_value x)
    | apply State.coreRead_kept
    | apply State.setCore_kept
    | apply hF
    | apply Kept.ite
    | apply Kept.ite₂

theorem State.genLanes_kept {st : State} {fn s : Nat} {bs : List Byte} {w : CmdWords} {l i r : Nat}
    {y0 : List Nat} {y1 : List Int} (h_st : Kept kf z0 st) (hregs : ¬kf.regs) (hcores : ¬kf.cores) :
    Kept kf z0 (State.genLanes st fn s bs w l i r y0 y1).2.2 := by
  induction y0 generalizing st fn s bs w l i r y1 <;> unfold State.genLanes
  on_goal 2 => rename_i ih
  all_goals with_reducible repeat' first
    | assumption
    | (extract_lets +onlyGivenNames x; clear_value x)
    | apply State.add_kept
    | apply State.fetchLine_kept
    | apply State.fetchSeg_kept
    | apply ih
    | apply hF
    | apply Kept.ite
    | apply Kept.ite₂
    | intro _
    | dsimp only
    | fail_if_no_progress (refine Kept.upd ?_)
    | split

theorem State.blockStart_kept {st : State} {fn s : Nat} {bs : List Byte} {w : CmdWords} {l i r : Nat}
    (h_st : Kept kf z0 st) (hregs : ¬kf.regs) (hcores : ¬kf.cores) :
    Kept kf z0 (State.blockStart st fn s bs w l i r) := by
  unfold State.blockStart
  with_reducible repeat' first
    | assumption
    | (extract_lets +onlyGivenNames x; first
        | (refine Kept.cut kf z0 x ?_ (fun hx => ?_) <;> [subst x; clear_value x])
        | clear_value x)
    | apply State.add_kept
    | apply State.setCore_kept
    | apply hF
    | apply Kept.ite

theorem State.setIsl_kept {kf : Facets} {z0 st : State} {fn s : Nat} {x : IslSt} (h : Kept kf z0 st) (hregs : ¬kf.regs) (hisl : ¬kf.isl) :
    Kept kf z0 (State.setIsl st fn s x) := by
  unfold State.setIsl
  have e : Kept kf z0 { st with isl := tput {} st.isl (fn * 4 + s) x } :=
    { h with
      canonical := fun w => { h.canonical w with isl := tableWf_tput _ (h.canonical w).isl }
      isl := fun a => absurd a hisl }
  exact State.wf_kept (State.wf_kept (State.wf_kept (State.wf_kept e hregs) hregs) hregs) hregs

theorem State.deliver_kept {st : State} {fn s r num idx : Nat} {lanes : List Int} (h_st : Kept kf z0 st)
    (hcores : ¬kf.cores) :
    Kept kf z0 (State.deliver st fn s r num idx lanes) := by
  unfold State.deliver
  with_reducible repeat' first
    | assumption
    | (extract_lets +onlyGivenNames x; clear_value x)
    | apply State.setCore_kept

theorem State.pfResync_kept {st : State} {fn s : Nat} (h_st : Kept kf z0 st) (hregs : ¬kf.regs) :
    Kept kf z0 (State.pfResync st fn s) := by
  unfold State.pfResync
  with_reducible repeat' first
    | assumption
    | (extract_lets +onlyGivenNames x; first
        | (refine Kept.cut kf z0 x ?_ (fun hx => ?_) <;> [subst x; clear_value x])
        | (refine Kept.cut kf z0 x.1 ?_ (fun hx => ?_) <;> [subst x; clear_value x])
        | (refine Kept.cut kf z0 x.2 ?_ (fun hx => ?_) <;> [subst x; clear_value x])
        | (refine Kept.cut kf z0 x.2.2 ?_ (fun hx => ?_) <;> [subst x; clear_value x])
        | (refine Kept.cutF kf z0 x ?_ (fun hF => ?_) <;> [subst x; clear_value x])
        | (refine Kept.cutF₁ kf z0 x ?_ (fun hF => ?_) <;> [subst x; clear_value x])
        | (refine Kept.cutF₂ kf z0 x ?_ (fun hF => ?_) <;> [subst x; clear_value x])
        | (refine Kept.cutP kf z0 x ?_ (fun hF => ?_) <;> [subst x; clear_value x])
        | (refine Kept.cutA kf z0 x ?_ (fun hF => ?_) <;> [subst x; clear_value x])
        | (have : x.fuses = x.fuses := (by rfl); clear this; subst x))
    | apply State.addSat_kept
    | apply State.notice_kept

theorem State.pfMatch_kept {st : State} {fn s : Nat} {y0 : Nat} (h_st : Kept kf z0 st) (hregs : ¬kf.regs)
    (hcores : ¬kf.cores) (hisl : ¬kf.isl) :
    Kept kf z0 (State.pfMatch st fn s y0) := by
  induction y0 generalizing st fn s <;> unfold State.pfMatch
  on_goal 2 => rename_i ih
  all_goals with_reducible repeat' first
    | assumption
    | refine fun _ (_ : Kept _ _ _) => ?_
    | refine fun _ _ (_ : Kept _ _ _) => ?_
    | refine fun _ _ _ (_ : Kept _ _ _) => ?_
    | (extract_lets +onlyGivenNames x; clear_value x)
    | apply State.add_kept
    | apply State.addSat_kept
    | apply State.deliver_kept
    | apply State.pfResync_kept
    | apply State.setIsl_kept
    | apply ih
    | apply hF
    | apply Kept.ite
    | intro _
    | dsimp only
    | fail_if_no_progress (refine Kept.upd ?_)
    | split

theorem State.pmDiscard_kept {st : State} {fn s : Nat} (h_st : Kept kf z0 st) (hregs : ¬kf.regs)
    (hcores : ¬kf.cores) (hisl : ¬kf.isl) :
    Kept kf z0 (State.pmDiscard st fn s) := by
  unfold State.pmDiscard
  with_reducible repeat' first
    | assumption
    | refine fun _ (_ : Kept _ _ _) => ?_
    | refine fun _ _ (_ : Kept _ _ _) => ?_
    | refine fun _ _ _ (_ : Kept _ _ _) => ?_
    | (extract_lets +onlyGivenNames x; first
        | (refine Kept.cut kf z0 x ?_ (fun hx => ?_) <;> [subst x; clear_value x])
        | clear_value x)
    | apply State.putCore_kept
    | apply State.setIsl_kept
    | apply hF
    | apply Kept.ite
    | apply Kept.foldl
    | apply Kept.foldl₁
    | apply Kept.foldl₂
    | apply Kept.foldl₂₂
    | intro _
    | dsimp only
    | fail_if_no_progress (refine Kept.upd ?_)
    | split

theorem State.islDown_kept {st : State} {fn s : Nat} (h_st : Kept kf z0 st) (hregs : ¬kf.regs)
    (hcores : ¬kf.cores) (hisl : ¬kf.isl) :
    Kept kf z0 (State.islDown st fn s) := by
  unfold State.islDown
  with_reducible repeat' first
    | assumption
    | (extract_lets +onlyGivenNames x; first
        | (refine Kept.cut kf z0 x ?_ (fun hx => ?_) <;> [subst x; clear_value x])
        | clear_value x)
    | apply State.pfMatch_kept
    | apply State.pmDiscard_kept
    | apply State.setIsl_kept

theorem State.islUp_kept {st : State} {fn s : Nat} (h_st : Kept kf z0 st) (hregs : ¬kf.regs) (hisl : ¬kf.isl) :
    Kept kf z0 (State.islUp st fn s) := by
  unfold State.islUp
  with_reducible repeat' first
    | assumption
    | apply State.setIsl_kept

theorem State.ssDrain_kept {st : State} {fn s y0 : Nat} (h_st : Kept kf z0 st) (hregs : ¬kf.regs) (hisl : ¬kf.isl) :
    Kept kf z0 (State.ssDrain st fn s y0) := by
  induction y0 generalizing st fn s <;> unfold State.ssDrain
  on_goal 2 => rename_i ih
  all_goals with_reducible repeat' first
    | assumption
    | (extract_lets +onlyGivenNames x; clear_value x)
    | apply State.emit_kept
    | apply State.setIsl_kept
    | apply ih
    | split

theorem State.ssAnswer_kept {st : State} {fn s i status data : Nat} (h_st : Kept kf z0 st) (hregs : ¬kf.regs)
    (hisl : ¬kf.isl) :
    Kept kf z0 (State.ssAnswer st fn s i status data) := by
  unfold State.ssAnswer
  with_reducible repeat' first
    | assumption
    | (extract_lets +onlyGivenNames x; first
        | (refine Kept.cut kf z0 x ?_ (fun hx => ?_) <;> [subst x; clear_value x])
        | clear_value x)
    | apply State.addSat_kept
    | apply State.setIsl_kept
    | apply Kept.ite

theorem State.narrowRead_kept {st : State} {fn s a : Nat} (h_st : Kept kf z0 st) (hregs : ¬kf.regs)
    (hcores : ¬kf.cores) :
    Kept kf z0 (State.narrowRead st fn s a).2.2 := by
  unfold State.narrowRead
  with_reducible repeat' first
    | assumption
    | apply State.readEcc_kept
    | apply State.touchRange_kept

theorem State.ssServe_kept {st : State} {fn s i : Nat} {e : SsPend} (h_st : Kept kf z0 st) (hregs : ¬kf.regs)
    (hcar : ¬kf.car) (hmesh : ¬kf.mesh) (hcores : ¬kf.cores) (hisl : ¬kf.isl) (hmem : ¬kf.mem) :
    Kept kf z0 (State.ssServe st fn s i e) := by
  unfold State.ssServe
  with_reducible repeat' first
    | assumption
    | (extract_lets +onlyGivenNames x; first
        | (refine Kept.cut kf z0 x ?_ (fun hx => ?_) <;> [subst x; clear_value x])
        | (refine Kept.cut kf z0 x.2.2 ?_ (fun hx => ?_) <;> [subst x; clear_value x])
        | clear_value x)
    | apply State.coreWrite_kept
    | apply State.fault_kept
    | apply State.narrowRead_kept
    | apply State.send_kept
    | apply State.setIsl_kept
    | apply State.ssAnswer_kept
    | apply State.track_kept
    | apply State.wf_kept
    | apply hF
    | apply Kept.ite
    | intro _
    | dsimp only
    | fail_if_no_progress (refine Kept.upd ?_)
    | split

theorem State.ssPump_kept {st : State} {fn s y0 : Nat} (h_st : Kept kf z0 st) (hregs : ¬kf.regs) (hcar : ¬kf.car)
    (hmesh : ¬kf.mesh) (hcores : ¬kf.cores) (hisl : ¬kf.isl) (hmem : ¬kf.mem) :
    Kept kf z0 (State.ssPump st fn s y0) := by
  induction y0 generalizing st fn s <;> unfold State.ssPump
  on_goal 2 => rename_i ih
  all_goals with_reducible repeat' first
    | assumption
    | (extract_lets +onlyGivenNames x; clear_value x)
    | apply State.ssDrain_kept
    | apply State.ssServe_kept
    | apply ih
    | apply Kept.ite
    | split

theorem State.ssGoOn_kept {st : State} {fn : Nat} (h_st : Kept kf z0 st) (hregs : ¬kf.regs) (hcar : ¬kf.car)
    (hmesh : ¬kf.mesh) (hcores : ¬kf.cores) (hisl : ¬kf.isl) (hmem : ¬kf.mem) :
    Kept kf z0 (State.ssGoOn st fn) := by
  unfold State.ssGoOn
  with_reducible repeat' first
    | assumption
    | refine fun _ _ (_ : Kept _ _ _) => ?_
    | apply State.ssPump_kept
    | apply Kept.ite
    | apply Kept.foldl

theorem State.ssSignalled_kept {st : State} {fn s tag status : Nat} (h_st : Kept kf z0 st) (hregs : ¬kf.regs)
    (hisl : ¬kf.isl) :
    Kept kf z0 (State.ssSignalled st fn s tag status) := by
  unfold State.ssSignalled
  with_reducible repeat' first
    | assumption
    | apply State.ssAnswer_kept
    | apply State.ssDrain_kept
    | split

theorem State.loadSubs_kept {st : State} {fn s r : Nat} {w : CmdWords} (h_st : Kept kf z0 st) (hregs : ¬kf.regs)
    (hcores : ¬kf.cores) :
    Kept kf z0 (State.loadSubs st fn s r w).2.2 := by
  unfold State.loadSubs
  with_reducible repeat' first
    | assumption
    | refine fun _ (_ : Kept _ _ _) => ?_
    | refine fun _ _ (_ : Kept _ _ _) => ?_
    | refine fun _ _ _ (_ : Kept _ _ _) => ?_
    | (extract_lets +onlyGivenNames x; clear_value x)
    | apply State.coreRead_kept
    | apply hF
    | apply Kept.ite
    | apply Kept.ite₂
    | apply Kept.foldl
    | apply Kept.foldl₁
    | apply Kept.foldl₂
    | apply Kept.foldl₂₂
    | intro _
    | dsimp only
    | fail_if_no_progress (refine Kept.upd ?_)
    | split

theorem State.genLoad_kept {st : State} {fn s r : Nat} {x : Cmd} (h_st : Kept kf z0 st) (hregs : ¬kf.regs)
    (hcores : ¬kf.cores) :
    Kept kf z0 (State.genLoad st fn s r x) := by
  unfold State.genLoad
  with_reducible repeat' first
    | assumption
    | (extract_lets +onlyGivenNames x; first
        | (refine Kept.cut kf z0 x.2.2 ?_ (fun hx => ?_) <;> [subst x; clear_value x])
        | clear_value x)
    | apply State.coreRead_kept
    | apply State.loadSubs_kept
    | apply State.setCore_kept
    | apply hF
    | apply Kept.ite
    | intro _
    | dsimp only
    | fail_if_no_progress (refine Kept.upd ?_)
    | split

theorem State.genBeat_kept {st : State} {fn s r : Nat} (h_st : Kept kf z0 st) (hregs : ¬kf.regs)
    (hcores : ¬kf.cores) (hisl : ¬kf.isl) :
    Kept kf z0 (State.genBeat st fn s r) := by
  unfold State.genBeat
  with_reducible repeat' first
    | assumption
    | refine fun _ (_ : Kept _ _ _) => ?_
    | refine fun _ _ (_ : Kept _ _ _) => ?_
    | refine fun _ _ _ (_ : Kept _ _ _) => ?_
    | (extract_lets +onlyGivenNames x; clear_value x)
    | apply State.add_kept
    | apply State.blockStart_kept
    | apply State.genLanes_kept
    | apply State.genLoad_kept
    | apply State.pfMatch_kept
    | apply State.setCore_kept
    | apply State.setIsl_kept
    | apply hF
    | apply Kept.ite
    | intro _
    | dsimp only
    | fail_if_no_progress (refine Kept.upd ?_)
    | split

theorem State.rowBeat_kept {st : State} {fn s r : Nat} (h_st : Kept kf z0 st) (hregs : ¬kf.regs)
    (hcores : ¬kf.cores) :
    Kept kf z0 (State.rowBeat st fn s r) := by
  unfold State.rowBeat
  with_reducible repeat' first
    | assumption
    | refine fun _ (_ : Kept _ _ _) => ?_
    | refine fun _ _ (_ : Kept _ _ _) => ?_
    | refine fun _ _ _ (_ : Kept _ _ _) => ?_
    | (extract_lets +onlyGivenNames x; clear_value x)
    | apply State.add_kept
    | apply State.putCore_kept
    | apply hF
    | apply Kept.ite
    | apply Kept.foldl
    | apply Kept.foldl₁
    | apply Kept.foldl₂
    | apply Kept.foldl₂₂
    | intro _
    | dsimp only
    | fail_if_no_progress (refine Kept.upd ?_)
    | split

theorem State.treeBeat_kept {st : State} {fn s col : Nat} (h_st : Kept kf z0 st) (hregs : ¬kf.regs)
    (hcores : ¬kf.cores) :
    Kept kf z0 (State.treeBeat st fn s col) := by
  unfold State.treeBeat
  with_reducible repeat' first
    | assumption
    | (extract_lets +onlyGivenNames x; clear_value x)
    | apply State.putCore_kept
    | apply Kept.ite
    | dsimp only
    | split

theorem State.readEscs_kept {st : State} {fn s base cols : Nat} {y0 : Nat} {y1 : Nat} {y2 : Option Esc}
    {y3 : EscRead} (h_st : Kept kf z0 st) (hregs : ¬kf.regs) (hcores : ¬kf.cores) :
    Kept kf z0 (State.readEscs st fn s base cols y0 y1 y2 y3).2 := by
  induction y0 generalizing st fn s base cols y1 y2 y3 <;> unfold State.readEscs
  on_goal 2 => rename_i ih
  all_goals with_reducible repeat' first
    | assumption
    | (extract_lets +onlyGivenNames x; first
        | (refine Kept.cut kf z0 x.2.2 ?_ (fun hx => ?_) <;> [subst x; clear_value x])
        | clear_value x)
    | apply State.coreRead_kept
    | apply ih
    | apply hF
    | apply Kept.ite
    | apply Kept.ite₂

theorem State.recordShift_kept {st : State} {fn s : Nat} {w : CmdWords} {t : Int} (h_st : Kept kf z0 st)
    (hregs : ¬kf.regs) (hcores : ¬kf.cores) :
    Kept kf z0 (State.recordShift st fn s w t) := by
  unfold State.recordShift
  with_reducible repeat' first
    | assumption
    | (extract_lets +onlyGivenNames x; clear_value x)
    | apply State.setCore_kept
    | apply State.setb_kept
    | apply State.wf_kept
    | apply hF
    | apply Kept.ite

theorem State.tokenDone_kept {st : State} {fn s : Nat} {x : Cmd} {t : Tok} (h_st : Kept kf z0 st)
    (hregs : ¬kf.regs) (hcores : ¬kf.cores) :
    Kept kf z0 (State.tokenDone st fn s x t) := by
  unfold State.tokenDone
  with_reducible repeat' first
    | assumption
    | refine fun _ (_ : Kept _ _ _) => ?_
    | refine fun _ _ (_ : Kept _ _ _) => ?_
    | refine fun _ _ _ (_ : Kept _ _ _) => ?_
    | (extract_lets +onlyGivenNames x; first
        | (refine Kept.cut kf z0 x ?_ (fun hx => ?_) <;> [subst x; clear_value x])
        | clear_value x)
    | apply State.add_kept
    | apply State.addSat_kept
    | apply State.putCore_kept
    | apply State.setb_kept
    | apply State.wn_kept
    | apply hF
    | apply Kept.ite

theorem State.mergeCol_kept {st : State} {fn s col : Nat} {x : Cmd} {t : Tok} (h_st : Kept kf z0 st)
    (hregs : ¬kf.regs) (hcores : ¬kf.cores) :
    Kept kf z0 (State.mergeCol st fn s col x t) := by
  unfold State.mergeCol
  with_reducible repeat' first
    | assumption
    | (extract_lets +onlyGivenNames x; first
        | (refine Kept.cut kf z0 x ?_ (fun hx => ?_) <;> [subst x; clear_value x])
        | clear_value x)
    | apply State.add_kept
    | apply State.recordShift_kept
    | apply State.setCore_kept
    | apply State.setb_kept
    | apply hF
    | apply Kept.ite

theorem State.ovfBeat_kept {st : State} {fn s : Nat} {x : Cmd} {t : Tok} (h_st : Kept kf z0 st)
    (hregs : ¬kf.regs) (hcores : ¬kf.cores) :
    Kept kf z0 (State.ovfBeat st fn s x t) := by
  unfold State.ovfBeat
  with_reducible repeat' first
    | assumption
    | (extract_lets +onlyGivenNames x; first
        | (refine Kept.cut kf z0 x.2 ?_ (fun hx => ?_) <;> [subst x; clear_value x])
        | clear_value x)
    | apply State.add_kept
    | apply State.putCore_kept
    | apply State.readEscs_kept

theorem State.finishToks_kept {st : State} {fn s : Nat} {y0 : Nat} (h_st : Kept kf z0 st) (hregs : ¬kf.regs)
    (hcores : ¬kf.cores) :
    Kept kf z0 (State.finishToks st fn s y0) := by
  induction y0 generalizing st fn s <;> unfold State.finishToks
  on_goal 2 => rename_i ih
  all_goals with_reducible repeat' first
    | assumption
    | (extract_lets +onlyGivenNames x; clear_value x)
    | apply State.tokenDone_kept
    | apply ih
    | apply hF
    | apply Kept.ite
    | intro _
    | dsimp only
    | fail_if_no_progress (refine Kept.upd ?_)
    | split

theorem State.settleToks_kept {st : State} {fn s : Nat} (h_st : Kept kf z0 st) (hregs : ¬kf.regs)
    (hcores : ¬kf.cores) :
    Kept kf z0 (State.settleToks st fn s) := by
  unfold State.settleToks
  with_reducible repeat' first
    | assumption
    | (extract_lets +onlyGivenNames x; first
        | (refine Kept.cut kf z0 x ?_ (fun hx => ?_) <;> [subst x; clear_value x])
        | (refine Kept.cut kf z0 x.1 ?_ (fun hx => ?_) <;> [subst x; clear_value x])
        | (refine Kept.cut kf z0 x.2 ?_ (fun hx => ?_) <;> [subst x; clear_value x])
        | (refine Kept.cut kf z0 x.2.2 ?_ (fun hx => ?_) <;> [subst x; clear_value x])
        | (refine Kept.cutF kf z0 x ?_ (fun hF => ?_) <;> [subst x; clear_value x])
        | (refine Kept.cutF₁ kf z0 x ?_ (fun hF => ?_) <;> [subst x; clear_value x])
        | (refine Kept.cutF₂ kf z0 x ?_ (fun hF => ?_) <;> [subst x; clear_value x])
        | (refine Kept.cutP kf z0 x ?_ (fun hF => ?_) <;> [subst x; clear_value x])
        | (refine Kept.cutA kf z0 x ?_ (fun hF => ?_) <;> [subst x; clear_value x])
        | (have : x.fuses = x.fuses := (by rfl); clear this; subst x))
    | apply State.finishToks_kept
    | apply State.putCore_kept

theorem State.accumBeat_kept {st : State} {fn s col : Nat} (h_st : Kept kf z0 st) (hregs : ¬kf.regs)
    (hcores : ¬kf.cores) :
    Kept kf z0 (State.accumBeat st fn s col) := by
  unfold State.accumBeat
  with_reducible repeat' first
    | assumption
    | (extract_lets +onlyGivenNames x; first
        | (refine Kept.cut kf z0 x ?_ (fun hx => ?_) <;> [subst x; clear_value x])
        | clear_value x)
    | apply State.mergeCol_kept
    | apply State.ovfBeat_kept
    | apply State.settleToks_kept
    | apply hF
    | apply Kept.ite
    | intro _
    | dsimp only
    | fail_if_no_progress (refine Kept.upd ?_)
    | split

theorem State.accErrAt_kept {st : State} {who : Who} {reason : Nat} {write : Bool} {bar detail off : Nat}
    (h_st : Kept kf z0 st) (hregs : ¬kf.regs) :
    Kept kf z0 (State.accErrAt st who reason write bar detail off) := by
  unfold State.accErrAt
  with_reducible repeat' first
    | assumption
    | (extract_lets +onlyGivenNames x; first
        | (refine Kept.cut kf z0 x ?_ (fun hx => ?_) <;> [subst x; clear_value x])
        | clear_value x)
    | apply State.addSat_kept
    | apply State.notice_kept
    | apply State.wn_kept
    | apply Kept.ite

theorem State.accErr_kept {st : State} {who : Who} {reason : Nat} {write : Bool} {off : Nat} (h_st : Kept kf z0 st)
    (hregs : ¬kf.regs) :
    Kept kf z0 (State.accErr st who reason write off) := by
  unfold State.accErr
  with_reducible repeat' first
    | assumption
    | (extract_lets +onlyGivenNames x; first
        | (refine Kept.cut kf z0 x ?_ (fun hx => ?_) <;> [subst x; clear_value x])
        | clear_value x)
    | apply State.accErrAt_kept
    | apply Kept.ite
    | fail_if_no_progress (refine Kept.upd ?_)

theorem State.slotWrite_kept {st : State} {who : Who} {fn s off : Nat} {permitted : Bool} {f : State → State}
    (h_st : Kept kf z0 st) (h_f : ∀ v0, Kept kf z0 v0 → Kept kf z0 (f v0)) (hregs : ¬kf.regs) :
    Kept kf z0 (State.slotWrite st who fn s off permitted f) := by
  unfold State.slotWrite
  with_reducible repeat' first
    | assumption
    | apply State.accErr_kept
    | apply h_f
    | apply Kept.ite
    | split

theorem State.fieldWrite_kept {st : State} {who : Who} {fn off : Nat} {permitted : Bool} {f : State → State}
    (h_st : Kept kf z0 st) (h_f : ∀ v0, Kept kf z0 v0 → Kept kf z0 (f v0)) (hregs : ¬kf.regs) :
    Kept kf z0 (State.fieldWrite st who fn off permitted f) := by
  unfold State.fieldWrite
  with_reducible repeat' first
    | assumption
    | apply State.accErr_kept
    | apply h_f
    | apply Kept.ite
    | split

theorem State.answer_kept {st : State} {n : Nat} (h_st : Kept kf z0 st) :
    Kept kf z0 (State.answer st n) := by
  unfold State.answer
  with_reducible repeat' first
    | assumption
    | fail_if_no_progress (refine Kept.upd ?_)

theorem State.dmaRead_kept {st : State} {f addr len : Nat} {what : ReadFor} (h_st : Kept kf z0 st) :
    Kept kf z0 (State.dmaRead st f addr len what) := by
  unfold State.dmaRead
  with_reducible repeat' first
    | assumption
    | (extract_lets +onlyGivenNames x; first
        | (refine Kept.cut kf z0 x ?_ (fun hx => ?_) <;> [subst x; clear_value x])
        | (refine Kept.cut kf z0 x.1 ?_ (fun hx => ?_) <;> [subst x; clear_value x])
        | (refine Kept.cut kf z0 x.2 ?_ (fun hx => ?_) <;> [subst x; clear_value x])
        | (refine Kept.cut kf z0 x.2.2 ?_ (fun hx => ?_) <;> [subst x; clear_value x])
        | (refine Kept.cutF kf z0 x ?_ (fun hF => ?_) <;> [subst x; clear_value x])
        | (refine Kept.cutF₁ kf z0 x ?_ (fun hF => ?_) <;> [subst x; clear_value x])
        | (refine Kept.cutF₂ kf z0 x ?_ (fun hF => ?_) <;> [subst x; clear_value x])
        | (refine Kept.cutP kf z0 x ?_ (fun hF => ?_) <;> [subst x; clear_value x])
        | (refine Kept.cutA kf z0 x ?_ (fun hF => ?_) <;> [subst x; clear_value x])
        | (have : x.fuses = x.fuses := (by rfl); clear this; subst x)
        | clear_value x)
    | apply State.emit_kept
    | apply hF
    | apply Kept.ite
    | intro _
    | dsimp only
    | fail_if_no_progress (refine Kept.upd ?_)
    | split

theorem State.pump_kept {st : State} {key : Nat} {y0 : Nat} (h_st : Kept kf z0 st) :
    Kept kf z0 (State.pump st key y0) := by
  induction y0 generalizing st key <;> unfold State.pump
  on_goal 2 => rename_i ih
  all_goals with_reducible repeat' first
    | assumption
    | (extract_lets +onlyGivenNames x; first
        | (refine Kept.cut kf z0 x ?_ (fun hx => ?_) <;> [subst x; clear_value x])
        | clear_value x)
    | apply State.dmaRead_kept
    | apply State.setQueue_kept
    | apply ih
    | apply hF
    | apply Kept.ite

theorem State.ring_kept {st : State} {key tail : Nat} (h_st : Kept kf z0 st) (hregs : ¬kf.regs) :
    Kept kf z0 (State.ring st key tail) := by
  unfold State.ring
  with_reducible repeat' first
    | assumption
    | (extract_lets +onlyGivenNames x; first
        | (refine Kept.cut kf z0 x ?_ (fun hx => ?_) <;> [subst x; clear_value x])
        | clear_value x)
    | apply State.pump_kept
    | apply State.setQueue_kept
    | apply State.wf_kept
    | apply hF
    | apply Kept.ite
    | intro _
    | dsimp only
    | fail_if_no_progress (refine Kept.upd ?_)

theorem State.doorbell_kept {st : State} {who : Who} {key size inPage value page : Nat} (h_st : Kept kf z0 st)
    (hregs : ¬kf.regs) :
    Kept kf z0 (State.doorbell st who key size inPage value page) := by
  unfold State.doorbell
  with_reducible repeat' first
    | assumption
    | (extract_lets +onlyGivenNames x; first
        | (refine Kept.cut kf z0 x ?_ (fun hx => ?_) <;> [subst x; clear_value x])
        | clear_value x)
    | apply State.accErrAt_kept
    | apply State.addSat_kept
    | apply State.notice_kept
    | apply State.ring_kept
    | apply State.setQueue_kept
    | apply hF
    | apply Kept.ite

theorem State.cancelWait_kept {st : State} {who tally expiry : Nat} (h_st : Kept kf z0 st) (hmesh : ¬kf.mesh) :
    Kept kf z0 (State.cancelWait st who tally expiry) := by
  unfold State.cancelWait
  with_reducible repeat' first
    | assumption
    | (extract_lets +onlyGivenNames x; clear_value x)
    | apply State.send_kept

theorem State.flushQueue_kept {st : State} {key : Nat} (h_st : Kept kf z0 st) (hregs : ¬kf.regs) :
    Kept kf z0 (State.flushQueue st key) := by
  unfold State.flushQueue
  with_reducible repeat' first
    | assumption
    | (extract_lets +onlyGivenNames x; first
        | (refine Kept.cut kf z0 x ?_ (fun hx => ?_) <;> [subst x; clear_value x])
        | (refine Kept.cut kf z0 x.1 ?_ (fun hx => ?_) <;> [subst x; clear_value x])
        | (refine Kept.cut kf z0 x.2 ?_ (fun hx => ?_) <;> [subst x; clear_value x])
        | (refine Kept.cut kf z0 x.2.2 ?_ (fun hx => ?_) <;> [subst x; clear_value x])
        | (refine Kept.cutF kf z0 x ?_ (fun hF => ?_) <;> [subst x; clear_value x])
        | (refine Kept.cutF₁ kf z0 x ?_ (fun hF => ?_) <;> [subst x; clear_value x])
        | (refine Kept.cutF₂ kf z0 x ?_ (fun hF => ?_) <;> [subst x; clear_value x])
        | (refine Kept.cutP kf z0 x ?_ (fun hF => ?_) <;> [subst x; clear_value x])
        | (refine Kept.cutA kf z0 x ?_ (fun hF => ?_) <;> [subst x; clear_value x])
        | (have : x.fuses = x.fuses := (by rfl); clear this; subst x)
        | clear_value x)
    | apply State.setQueue_kept
    | apply State.setWaits_kept
    | apply State.setb_kept
    | apply State.wn_kept
    | apply hF
    | apply Kept.ite
    | intro _
    | dsimp only
    | fail_if_no_progress (refine Kept.upd ?_)
    | split

theorem State.flushQueueEnd_kept {st : State} {key : Nat} (h_st : Kept kf z0 st) (hregs : ¬kf.regs) :
    Kept kf z0 (State.flushQueueEnd st key) := by
  unfold State.flushQueueEnd
  with_reducible repeat' first
    | assumption
    | refine fun _ (_ : Kept _ _ _) => ?_
    | refine fun _ _ (_ : Kept _ _ _) => ?_
    | refine fun _ _ _ (_ : Kept _ _ _) => ?_
    | (extract_lets +onlyGivenNames x; first
        | (refine Kept.cut kf z0 x ?_ (fun hx => ?_) <;> [subst x; clear_value x])
        | clear_value x)
    | apply State.add_kept
    | apply State.clrb_kept
    | apply State.doorbell_kept
    | apply State.setQueue_kept
    | apply hF
    | apply Kept.ite
    | apply Kept.foldl

theorem State.coreFlushEnd_kept {st : State} {fn s : Nat} (h_st : Kept kf z0 st) (hregs : ¬kf.regs)
    (hcores : ¬kf.cores) :
    Kept kf z0 (State.coreFlushEnd st fn s) := by
  unfold State.coreFlushEnd
  with_reducible repeat' first
    | assumption
    | (extract_lets +onlyGivenNames x; clear_value x)
    | apply State.add_kept
    | apply State.putCore_kept
    | apply State.wf_kept

theorem State.shareEnd_kept {st : State} {fn s : Nat} (h_st : Kept kf z0 st) (hregs : ¬kf.regs) (hcar : ¬kf.car)
    (hmesh : ¬kf.mesh) (hcores : ¬kf.cores) (hisl : ¬kf.isl) (hmem : ¬kf.mem) :
    Kept kf z0 (State.shareEnd st fn s) := by
  unfold State.shareEnd
  with_reducible repeat' first
    | assumption
    | (extract_lets +onlyGivenNames x; first
        | (refine Kept.cut kf z0 x ?_ (fun hx => ?_) <;> [subst x; clear_value x])
        | clear_value x)
    | apply State.clrb_kept
    | apply State.setCore_kept
    | apply State.ssGoOn_kept
    | apply State.wf_kept

theorem State.attnNotice_kept {st : State} {fn s : Nat} (h_st : Kept kf z0 st) (hregs : ¬kf.regs) (hisl : ¬kf.isl) :
    Kept kf z0 (State.attnNotice st fn s) := by
  unfold State.attnNotice
  with_reducible repeat' first
    | assumption
    | (extract_lets +onlyGivenNames x; first
        | (refine Kept.cut kf z0 x ?_ (fun hx => ?_) <;> [subst x; clear_value x])
        | clear_value x)
    | apply State.notice_kept
    | apply State.setIsl_kept

theorem State.requiet_kept {st : State} {fn s : Nat} (h_st : Kept kf z0 st) (hcores : ¬kf.cores) :
    Kept kf z0 (State.requiet st fn s) := by
  unfold State.requiet
  with_reducible repeat' first
    | assumption
    | (extract_lets +onlyGivenNames x; clear_value x)
    | apply State.setCore_kept

theorem State.clearRegs_kept {st : State} {lo hi : Nat} (h : Kept kf z0 st) (hregs : ¬kf.regs) :
    Kept kf z0 (State.clearRegs st lo hi) := by
  unfold State.clearRegs
  exact { h with
    canonical := fun w => { h.canonical w with regs := tableWf_tclear (h.canonical w).regs }
    regs := fun a => absurd a hregs }

theorem State.dropRequester_kept {st : State} {who : Who} (h_st : Kept kf z0 st) :
    Kept kf z0 (State.dropRequester st who) := by
  unfold State.dropRequester
  with_reducible repeat' first
    | assumption
    | apply Kept.ite
    | dsimp only
    | fail_if_no_progress (refine Kept.upd ?_)

theorem State.markRetired_kept {st : State} {fn : Nat} (h_st : Kept kf z0 st) (hregs : ¬kf.regs) :
    Kept kf z0 (State.markRetired st fn) := by
  unfold State.markRetired
  with_reducible repeat' first
    | assumption
    | apply State.setb_kept

theorem State.planned_kept {st : State} (h_st : Kept kf z0 st) (hregs : ¬kf.regs) :
    Kept kf z0 (State.planned st) := by
  unfold State.planned
  with_reducible repeat' first
    | assumption
    | refine fun _ (_ : Kept _ _ _) => ?_
    | refine fun _ _ (_ : Kept _ _ _) => ?_
    | refine fun _ _ _ (_ : Kept _ _ _) => ?_
    | apply State.markRetired_kept
    | apply Kept.ite
    | apply Kept.foldl

theorem State.wakeGroups_kept {st : State} {fn s : Nat} (h_st : Kept kf z0 st) (hregs : ¬kf.regs)
    (hcores : ¬kf.cores) :
    Kept kf z0 (State.wakeGroups st fn s) := by
  unfold State.wakeGroups
  with_reducible repeat' first
    | assumption
    | (extract_lets +onlyGivenNames x; clear_value x)
    | apply State.putCore_kept

end Sys2Proof.Machine
end

