-- ==== Sys2Proof/Laws/KeptItems.lean ====
section
/-! SUPPORT. What items, the host interface and the operations of Kevenlink and sensor ports keep (see Kept.lean). -/

namespace Sys2Proof.Machine

set_option Elab.async false

set_option linter.unusedVariables false

variable {kf : Facets} {z0 : State}

theorem State.modItem_kept {st : State} {num : Nat} {f : Started → Started} (h_st : Kept kf z0 st) :
    Kept kf z0 (State.modItem st num f) := by
  unfold State.modItem
  with_reducible repeat' first
    | assumption
    | (extract_lets +onlyGivenNames x; clear_value x)
    | fail_if_no_progress (refine Kept.upd ?_)

theorem State.endItem_kept {st : State} {num status cmdStatus detail : Nat} (h_st : Kept kf z0 st) :
    Kept kf z0 (State.endItem st num status cmdStatus detail) := by
  unfold State.endItem
  with_reducible repeat' first
    | assumption
    | (extract_lets +onlyGivenNames x; first
        | (refine Kept.cut kf z0 x ?_ (fun hx => ?_) <;> [subst x; clear_value x])
        | clear_value x)
    | apply State.modItem_kept
    | fail_if_no_progress (refine Kept.upd ?_)

theorem State.onItemIf_kept {st : State} {it : Item} {op : Nat} {ok : Started → Bool} {f : Started → State → State}
    (h_st : Kept kf z0 st) (h_f : ∀ v0 v1, Kept kf z0 v1 → Kept kf z0 (f v0 v1)) :
    KeptOut kf z0 (State.onItemIf st it op ok f) := by
  unfold State.onItemIf
  with_reducible repeat' first
    | assumption
    | apply State.modItem_kept
    | apply h_f
    | apply Kept.ite
    | apply KeptOut.next
    | split

theorem State.onItem_kept {st : State} {it : Item} {op : Nat} {f : Started → State → State} (h_st : Kept kf z0 st)
    (h_f : ∀ v0 v1, Kept kf z0 v1 → Kept kf z0 (f v0 v1)) :
    KeptOut kf z0 (State.onItem st it op f) := by
  unfold State.onItem
  with_reducible repeat' first
    | assumption
    | apply State.onItemIf_kept

theorem State.abandonSlot_kept {st : State} {fn s status : Nat} (h_st : Kept kf z0 st) :
    Kept kf z0 (State.abandonSlot st fn s status) := by
  unfold State.abandonSlot
  with_reducible repeat' first
    | assumption
    | refine fun _ _ (_ : Kept _ _ _) => ?_
    | apply State.endItem_kept
    | apply Kept.foldl

theorem State.tellerItems_kept {st : State} {fn s : Nat} (h_st : Kept kf z0 st) (hregs : ¬kf.regs) :
    Kept kf z0 (State.tellerItems st fn s) := by
  unfold State.tellerItems
  with_reducible repeat' first
    | assumption
    | apply State.wf_kept

theorem State.startItem_kept {st : State} {it : Item} {fn s : Nat} (h_st : Kept kf z0 st) :
    Kept kf z0 (State.startItem st it fn s).2 := by
  unfold State.startItem
  with_reducible repeat' first
    | assumption
    | (extract_lets +onlyGivenNames x; clear_value x)
    | dsimp only
    | fail_if_no_progress (refine Kept.upd ?_)

theorem State.cqPut_kept {st : State} {c : Nat} {bytes : List Byte} (h_st : Kept kf z0 st) (hregs : ¬kf.regs) :
    Kept kf z0 (State.cqPut st c bytes) := by
  unfold State.cqPut
  with_reducible repeat' first
    | assumption
    | (extract_lets +onlyGivenNames x; clear_value x)
    | apply State.dmaWrite_kept
    | apply State.wf_kept

theorem State.afterRecord_kept {st : State} {x : Started} {c : Nat} (h_st : Kept kf z0 st) (hregs : ¬kf.regs)
    (hmesh : ¬kf.mesh) :
    Kept kf z0 (State.afterRecord st x c) := by
  unfold State.afterRecord
  with_reducible repeat' first
    | assumption
    | (extract_lets +onlyGivenNames x; first
        | (refine Kept.cut kf z0 x ?_ (fun hx => ?_) <;> [subst x; clear_value x])
        | clear_value x)
    | apply State.add_kept
    | apply State.msix_kept
    | apply State.notice_kept
    | apply State.send_kept
    | apply State.track_kept
    | apply State.wf_kept
    | apply Kept.ite
    | fail_if_no_progress (refine Kept.upd ?_)

theorem State.completeItem_kept {st : State} {x : Started} (h_st : Kept kf z0 st) (hregs : ¬kf.regs)
    (hmesh : ¬kf.mesh) :
    Kept kf z0 (State.completeItem st x) := by
  unfold State.completeItem
  with_reducible repeat' first
    | assumption
    | (extract_lets +onlyGivenNames x; first
        | (refine Kept.cut kf z0 x ?_ (fun hx => ?_) <;> [subst x; clear_value x])
        | clear_value x)
    | apply State.add_kept
    | apply State.addSat_kept
    | apply State.afterRecord_kept
    | apply State.cqPut_kept
    | apply Kept.ite
    | fail_if_no_progress (refine Kept.upd ?_)

theorem State.drainWaiting_kept {st : State} {c y0 : Nat} (h_st : Kept kf z0 st) (hregs : ¬kf.regs)
    (hmesh : ¬kf.mesh) :
    Kept kf z0 (State.drainWaiting st c y0) := by
  induction y0 generalizing st c <;> unfold State.drainWaiting
  on_goal 2 => rename_i ih
  all_goals with_reducible repeat' first
    | assumption
    | (extract_lets +onlyGivenNames x; clear_value x)
    | apply State.afterRecord_kept
    | apply State.cqPut_kept
    | apply ih
    | apply Kept.ite
    | dsimp only
    | fail_if_no_progress (refine Kept.upd ?_)
    | split

theorem State.dropWaiting_kept {st : State} {c : Nat} (h_st : Kept kf z0 st) (hregs : ¬kf.regs) :
    Kept kf z0 (State.dropWaiting st c) := by
  unfold State.dropWaiting
  with_reducible repeat' first
    | assumption
    | (extract_lets +onlyGivenNames x; first
        | (refine Kept.cut kf z0 x ?_ (fun hx => ?_) <;> [subst x; clear_value x])
        | clear_value x)
    | apply State.add_kept
    | apply Kept.ite
    | fail_if_no_progress (refine Kept.upd ?_)

theorem State.waitFor_kept {st : State} {key : Nat} {it : Item} (h_st : Kept kf z0 st) (hmesh : ¬kf.mesh) :
    Kept kf z0 (State.waitFor st key it) := by
  unfold State.waitFor
  with_reducible repeat' first
    | assumption
    | (extract_lets +onlyGivenNames x; first
        | (refine Kept.cut kf z0 x ?_ (fun hx => ?_) <;> [subst x; clear_value x])
        | clear_value x)
    | apply State.send_kept
    | apply State.setQueue_kept
    | apply Kept.ite

theorem State.waitAt_kept {st : State} {key : Nat} {y0 : Head} (h_st : Kept kf z0 st) (hmesh : ¬kf.mesh) :
    Kept kf z0 (State.waitAt st key y0) := by
  unfold State.waitAt
  with_reducible repeat' first
    | assumption
    | apply State.waitFor_kept
    | split

theorem State.headWait_kept {st : State} {key : Nat} (h_st : Kept kf z0 st) (hmesh : ¬kf.mesh) :
    Kept kf z0 (State.headWait st key) := by
  unfold State.headWait
  with_reducible repeat' first
    | assumption
    | apply State.waitAt_kept

theorem State.consume_kept {st : State} {key m : Nat} (h_st : Kept kf z0 st) (hregs : ¬kf.regs) (hmesh : ¬kf.mesh) :
    Kept kf z0 (State.consume st key m) := by
  unfold State.consume
  with_reducible repeat' first
    | assumption
    | (extract_lets +onlyGivenNames x; first
        | (refine Kept.cut kf z0 x ?_ (fun hx => ?_) <;> [subst x; clear_value x])
        | clear_value x)
    | apply State.headWait_kept
    | apply State.setQueue_kept
    | apply State.wf_kept

theorem State.fetchFail_kept {st : State} {num status detail : Nat} (h_st : Kept kf z0 st) :
    Kept kf z0 (State.fetchFail st num status detail) := by
  unfold State.fetchFail
  with_reducible repeat' first
    | assumption
    | apply State.modItem_kept

theorem State.fetchSettle_kept {st : State} {num : Nat} (h_st : Kept kf z0 st) :
    Kept kf z0 (State.fetchSettle st num) := by
  unfold State.fetchSettle
  with_reducible repeat' first
    | assumption
    | apply State.endItem_kept
    | apply Kept.ite
    | split

theorem State.fetchAsk_kept {st : State} {num y0 : Nat} (h_st : Kept kf z0 st) :
    Kept kf z0 (State.fetchAsk st num y0) := by
  induction y0 generalizing st num <;> unfold State.fetchAsk
  on_goal 2 => rename_i ih
  all_goals with_reducible repeat' first
    | assumption
    | apply State.dmaRead_kept
    | apply State.modItem_kept
    | apply ih
    | apply Kept.ite
    | dsimp only
    | split

theorem State.fetchSend_kept {st : State} {num y0 : Nat} (h_st : Kept kf z0 st) (hregs : ¬kf.regs)
    (hmesh : ¬kf.mesh) (hleases : ¬kf.leases) :
    Kept kf z0 (State.fetchSend st num y0) := by
  induction y0 generalizing st num <;> unfold State.fetchSend
  on_goal 2 => rename_i ih
  all_goals with_reducible repeat' first
    | assumption
    | apply State.modItem_kept
    | apply State.sendDeposit_kept
    | apply ih
    | apply Kept.ite
    | dsimp only
    | split

theorem State.dmaOne_kept {st : State} {f : Nat} (h_st : Kept kf z0 st) :
    Kept kf z0 (State.dmaOne st f) := by
  unfold State.dmaOne
  with_reducible repeat' first
    | assumption
    | apply State.fetchAsk_kept
    | apply State.pump_kept
    | apply Kept.ite
    | dsimp only
    | fail_if_no_progress (refine Kept.upd ?_)
    | split

theorem State.dmaUnit_kept {st : State} {f : Nat} {y0 : Nat} (h_st : Kept kf z0 st) :
    Kept kf z0 (State.dmaUnit st f y0) := by
  induction y0 generalizing st f <;> unfold State.dmaUnit
  on_goal 2 => rename_i ih
  all_goals with_reducible repeat' first
    | assumption
    | apply State.dmaOne_kept
    | apply ih
    | apply Kept.ite
    | dsimp only
    | fail_if_no_progress (refine Kept.upd ?_)
    | split

theorem State.dmaRounds_kept {st : State} {y0 : Nat} (h_st : Kept kf z0 st) :
    Kept kf z0 (State.dmaRounds st y0) := by
  induction y0 generalizing st <;> unfold State.dmaRounds
  on_goal 2 => rename_i ih
  all_goals with_reducible repeat' first
    | assumption
    | apply State.dmaUnit_kept
    | apply ih
    | apply Kept.ite
    | dsimp only
    | fail_if_no_progress (refine Kept.upd ?_)
    | split

theorem State.fetchMove_kept {st : State} {num : Nat} (h_st : Kept kf z0 st) (hregs : ¬kf.regs)
    (hmesh : ¬kf.mesh) (hleases : ¬kf.leases) :
    Kept kf z0 (State.fetchMove st num) := by
  unfold State.fetchMove
  with_reducible repeat' first
    | assumption
    | (extract_lets +onlyGivenNames x; first
        | (refine Kept.cut kf z0 x ?_ (fun hx => ?_) <;> [subst x; clear_value x])
        | (refine Kept.cut kf z0 x.1 ?_ (fun hx => ?_) <;> [subst x; clear_value x])
        | (refine Kept.cut kf z0 x.2 ?_ (fun hx => ?_) <;> [subst x; clear_value x])
        | (refine Kept.cut kf z0 x.2.2 ?_ (fun hx => ?_) <;> [subst x; clear_value x])
        | (refine Kept.cutF kf z0 x ?_ (fun hF => ?_) <;> [subst x; clear_value x])
        | (refine Kept.cutF₁ kf z0 x ?_ (fun hF => ?_) <;> [subst x; clear_value x])
        | (refine Kept.cutF₂ kf z0 x ?_ (fun hF => ?_) <;> [subst x; clear_value x])
        | (refine Kept.cutP kf z0 x ?_ (fun hF => ?_) <;> [subst x; clear_value x])
        | (refine Kept.cutA kf z0 x ?_ (fun hF => ?_) <;> [subst x; clear_value x])
        | (have : x.fuses = x.fuses := (by rfl); clear this; subst x)
        | clear_value x)
    | apply State.draw_kept
    | apply State.fetchFail_kept
    | apply State.fetchSend_kept
    | apply State.fetchSettle_kept
    | apply hF
    | apply Kept.ite
    | intro _
    | dsimp only
    | fail_if_no_progress (refine Kept.upd ?_)
    | split

theorem State.fetchPump_kept {st : State} {num : Nat} (h_st : Kept kf z0 st) (hregs : ¬kf.regs)
    (hmesh : ¬kf.mesh) (hleases : ¬kf.leases) :
    Kept kf z0 (State.fetchPump st num) := by
  unfold State.fetchPump
  with_reducible repeat' first
    | assumption
    | apply State.dmaRounds_kept
    | apply State.fetchMove_kept
    | apply Kept.ite
    | dsimp only
    | fail_if_no_progress (refine Kept.upd ?_)
    | split

theorem State.fetchAnswer_kept {st : State} {num units : Nat} {res : Option Nat} (h_st : Kept kf z0 st)
    (hregs : ¬kf.regs) (hmesh : ¬kf.mesh) (hleases : ¬kf.leases) :
    Kept kf z0 (State.fetchAnswer st num units res) := by
  unfold State.fetchAnswer
  with_reducible repeat' first
    | assumption
    | (extract_lets +onlyGivenNames x; refine Kept.cut kf z0 x ?_ (fun hx => ?_) <;> [subst x; clear_value x])
    | apply State.fetchFail_kept
    | apply State.fetchPump_kept
    | apply State.modItem_kept
    | split

theorem State.dmaPump_kept {kf : Facets} {z0 st : State} (h_st : Kept kf z0 st) (hregs : ¬kf.regs) (hmesh : ¬kf.mesh)
    (hleases : ¬kf.leases) :
    Kept kf z0 (State.dmaPump st) := by
  unfold State.dmaPump
  with_reducible repeat' first
    | assumption
    | refine fun _ _ (_ : Kept _ _ _) => ?_
    | apply State.dmaRounds_kept
    | apply State.fetchMove_kept
    | apply Kept.foldl
    | apply Kept.ite

theorem State.drainFunc_kept {st : State} {f : Nat} (h_st : Kept kf z0 st) (hregs : ¬kf.regs) (hmesh : ¬kf.mesh) :
    Kept kf z0 (State.drainFunc st f) := by
  unfold State.drainFunc
  with_reducible repeat' first
    | assumption
    | refine fun _ _ (_ : Kept _ _ _) => ?_
    | (extract_lets +onlyGivenNames x; clear_value x)
    | apply State.drainWaiting_kept
    | apply Kept.foldl

theorem State.readData_kept {st : State} {r : DmaRead} {bs : List Byte} (h_st : Kept kf z0 st)
    (hregs : ¬kf.regs) (hmesh : ¬kf.mesh) (hleases : ¬kf.leases) :
    Kept kf z0 (State.readData st r bs) := by
  unfold State.readData
  with_reducible repeat' first
    | assumption
    | refine fun _ (_ : Kept _ _ _) => ?_
    | refine fun _ _ (_ : Kept _ _ _) => ?_
    | refine fun _ _ _ (_ : Kept _ _ _) => ?_
    | (extract_lets +onlyGivenNames x; first
        | (refine Kept.cut kf z0 x ?_ (fun hx => ?_) <;> [subst x; clear_value x])
        | (refine Kept.cut kf z0 x.1 ?_ (fun hx => ?_) <;> [subst x; clear_value x])
        | (refine Kept.cut kf z0 x.2 ?_ (fun hx => ?_) <;> [subst x; clear_value x])
        | (refine Kept.cut kf z0 x.2.2 ?_ (fun hx => ?_) <;> [subst x; clear_value x])
        | (refine Kept.cutF kf z0 x ?_ (fun hF => ?_) <;> [subst x; clear_value x])
        | (refine Kept.cutF₁ kf z0 x ?_ (fun hF => ?_) <;> [subst x; clear_value x])
        | (refine Kept.cutF₂ kf z0 x ?_ (fun hF => ?_) <;> [subst x; clear_value x])
        | (refine Kept.cutP kf z0 x ?_ (fun hF => ?_) <;> [subst x; clear_value x])
        | (refine Kept.cutA kf z0 x ?_ (fun hF => ?_) <;> [subst x; clear_value x])
        | (have : x.fuses = x.fuses := (by rfl); clear this; subst x)
        | clear_value x)
    | apply State.add_kept
    | apply State.fetchPump_kept
    | apply State.headWait_kept
    | apply State.modItem_kept
    | apply State.setQueue_kept
    | apply hF
    | apply Kept.ite
    | apply Kept.foldl
    | apply Kept.foldl₁
    | apply Kept.foldl₂
    | apply Kept.foldl₂₂
    | intro _
    | dsimp only
    | fail_if_no_progress (refine Kept.upd ?_)
    | split

theorem State.readFailed_kept {st : State} {r : DmaRead} (h_st : Kept kf z0 st) (hregs : ¬kf.regs)
    (hmesh : ¬kf.mesh) (hleases : ¬kf.leases) :
    Kept kf z0 (State.readFailed st r) := by
  unfold State.readFailed
  with_reducible repeat' first
    | assumption
    | (extract_lets +onlyGivenNames x; first
        | (refine Kept.cut kf z0 x ?_ (fun hx => ?_) <;> [subst x; clear_value x])
        | (refine Kept.cut kf z0 x.1 ?_ (fun hx => ?_) <;> [subst x; clear_value x])
        | (refine Kept.cut kf z0 x.2 ?_ (fun hx => ?_) <;> [subst x; clear_value x])
        | (refine Kept.cut kf z0 x.2.2 ?_ (fun hx => ?_) <;> [subst x; clear_value x])
        | (refine Kept.cutF kf z0 x ?_ (fun hF => ?_) <;> [subst x; clear_value x])
        | (refine Kept.cutF₁ kf z0 x ?_ (fun hF => ?_) <;> [subst x; clear_value x])
        | (refine Kept.cutF₂ kf z0 x ?_ (fun hF => ?_) <;> [subst x; clear_value x])
        | (refine Kept.cutP kf z0 x ?_ (fun hF => ?_) <;> [subst x; clear_value x])
        | (refine Kept.cutA kf z0 x ?_ (fun hF => ?_) <;> [subst x; clear_value x])
        | (have : x.fuses = x.fuses := (by rfl); clear this; subst x)
        | clear_value x)
    | apply State.fetchFail_kept
    | apply State.fetchPump_kept
    | apply State.setQueue_kept
    | apply hF
    | apply Kept.ite
    | intro _
    | dsimp only
    | fail_if_no_progress (refine Kept.upd ?_)
    | split

theorem State.openWindow_kept {st : State} {fn slot w base size scrip mode hkind holder peerDst : Nat}
    (h_st : Kept kf z0 st) (hregs : ¬kf.regs) (hmesh : ¬kf.mesh) (hleases : ¬kf.leases) :
    Kept kf z0 (State.openWindow st fn slot w base size scrip mode hkind holder peerDst).1 := by
  unfold State.openWindow
  with_reducible repeat' first
    | assumption
    | (extract_lets +onlyGivenNames x; first
        | (refine Kept.cut kf z0 x ?_ (fun hx => ?_) <;> [subst x; clear_value x])
        | (refine Kept.cut kf z0 x.2 ?_ (fun hx => ?_) <;> [subst x; clear_value x])
        | clear_value x)
    | apply State.closeWindow_kept
    | apply State.grantLease_kept
    | apply State.releaseWindow_kept
    | apply State.send_kept
    | apply State.setWindow_kept
    | apply State.setb_kept
    | apply State.track_kept
    | apply Kept.ite
    | dsimp only
    | split

theorem State.setKvl_kept {kf : Facets} {z0 st : State} {p : Nat} {x : KvlSt} (h : Kept kf z0 st) (hkvl : ¬kf.kvl) :
    Kept kf z0 (State.setKvl st p x) :=
  { h with
    canonical := fun w => { h.canonical w with kvl := tableWf_tput _ (h.canonical w).kvl }
    kvl := fun a => absurd a hkvl }

theorem State.kvlEnter_kept {st : State} {p s : Nat} (h_st : Kept kf z0 st) (hregs : ¬kf.regs) (hkvl : ¬kf.kvl) :
    Kept kf z0 (State.kvlEnter st p s) := by
  unfold State.kvlEnter
  with_reducible repeat' first
    | assumption
    | (extract_lets +onlyGivenNames x; clear_value x)
    | apply State.setKvl_kept
    | apply State.wf_kept

theorem State.putKvl_kept {st : State} {p : Nat} {x : KvlSt} (h_st : Kept kf z0 st) (hregs : ¬kf.regs)
    (hkvl : ¬kf.kvl) :
    Kept kf z0 (State.putKvl st p x) := by
  unfold State.putKvl
  with_reducible repeat' first
    | assumption
    | apply State.setKvl_kept
    | apply State.wn_kept

theorem State.kvlUnit_kept {st : State} {p kind arg : Nat} (h_st : Kept kf z0 st) :
    Kept kf z0 (State.kvlUnit st p kind arg) := by
  unfold State.kvlUnit
  with_reducible repeat' first
    | assumption
    | apply State.emit_kept

theorem State.kvlSend_kept {st : State} {p : Nat} {m : Msg} (h_st : Kept kf z0 st) (hregs : ¬kf.regs)
    (hkvl : ¬kf.kvl) :
    Kept kf z0 (State.kvlSend st p m) := by
  unfold State.kvlSend
  with_reducible repeat' first
    | assumption
    | (extract_lets +onlyGivenNames x; first
        | (refine Kept.cut kf z0 x ?_ (fun hx => ?_) <;> [subst x; clear_value x])
        | clear_value x)
    | apply State.emit_kept
    | apply State.putKvl_kept
    | apply State.wf_kept

theorem State.kvlPump_kept {st : State} {p y0 : Nat} (h_st : Kept kf z0 st) (hregs : ¬kf.regs) (hkvl : ¬kf.kvl) :
    Kept kf z0 (State.kvlPump st p y0) := by
  induction y0 generalizing st p <;> unfold State.kvlPump
  on_goal 2 => rename_i ih
  all_goals with_reducible repeat' first
    | assumption
    | (extract_lets +onlyGivenNames x; clear_value x)
    | apply State.kvlSend_kept
    | apply State.setKvl_kept
    | apply ih
    | dsimp only
    | split

theorem State.kvlQueue_kept {st : State} {p : Nat} {m : Msg} (h_st : Kept kf z0 st) (hregs : ¬kf.regs)
    (hkvl : ¬kf.kvl) :
    Kept kf z0 (State.kvlQueue st p m) := by
  unfold State.kvlQueue
  with_reducible repeat' first
    | assumption
    | (extract_lets +onlyGivenNames x; clear_value x)
    | apply State.kvlPump_kept
    | apply State.setKvl_kept

theorem State.kvlAddTag_kept {st : State} {p : Nat} {t : KvlTag} (h_st : Kept kf z0 st) (hkvl : ¬kf.kvl) :
    Kept kf z0 (State.kvlAddTag st p t) := by
  unfold State.kvlAddTag
  with_reducible repeat' first
    | assumption
    | (extract_lets +onlyGivenNames x; clear_value x)
    | apply State.setKvl_kept

theorem State.setRgrant_kept {st : State} {p r : Nat} {g : RGrant} (h_st : Kept kf z0 st) (hkvl : ¬kf.kvl) :
    Kept kf z0 (State.setRgrant st p r g) := by
  unfold State.setRgrant
  with_reducible repeat' first
    | assumption
    | (extract_lets +onlyGivenNames x; clear_value x)
    | apply State.setKvl_kept

theorem State.nakTo_kept {st : State} {fn unit : Nat} {m : Msg} {status : Nat} (h_st : Kept kf z0 st)
    (hmesh : ¬kf.mesh) :
    Kept kf z0 (State.nakTo st fn unit m status) := by
  unfold State.nakTo
  with_reducible repeat' first
    | assumption
    | apply State.send_kept

theorem State.kvlLack_kept {st : State} {p : Nat} (h_st : Kept kf z0 st) (hkvl : ¬kf.kvl) :
    Kept kf z0 (State.kvlLack st p) := by
  unfold State.kvlLack
  with_reducible repeat' first
    | assumption
    | (extract_lets +onlyGivenNames x; clear_value x)
    | apply State.kvlUnit_kept
    | apply State.setKvl_kept

theorem State.kvlLnak_kept {st : State} {p : Nat} (h_st : Kept kf z0 st) (hkvl : ¬kf.kvl) :
    Kept kf z0 (State.kvlLnak st p) := by
  unfold State.kvlLnak
  with_reducible repeat' first
    | assumption
    | (extract_lets +onlyGivenNames x; clear_value x)
    | apply State.kvlUnit_kept
    | apply State.setKvl_kept

theorem State.kvlDiscard_kept {st : State} {p : Nat} (h_st : Kept kf z0 st) (hregs : ¬kf.regs) (hkvl : ¬kf.kvl) :
    Kept kf z0 (State.kvlDiscard st p) := by
  unfold State.kvlDiscard
  with_reducible repeat' first
    | assumption
    | (extract_lets +onlyGivenNames x; refine Kept.cut kf z0 x ?_ (fun hx => ?_) <;> [subst x; clear_value x])
    | apply State.addSat_kept
    | apply State.kvlLnak_kept
    | apply Kept.ite

theorem State.kvlFree_kept {st : State} {p : Nat} {m : Msg} (h_st : Kept kf z0 st) (hkvl : ¬kf.kvl) :
    Kept kf z0 (State.kvlFree st p m) := by
  unfold State.kvlFree
  with_reducible repeat' first
    | assumption
    | (extract_lets +onlyGivenNames x; clear_value x)
    | apply State.kvlUnit_kept
    | apply State.setKvl_kept

theorem State.kvlRefused_kept {st : State} {p : Nat} (h_st : Kept kf z0 st) (hregs : ¬kf.regs) :
    Kept kf z0 (State.kvlRefused st p) := by
  unfold State.kvlRefused
  with_reducible repeat' first
    | assumption
    | (extract_lets +onlyGivenNames x; clear_value x)
    | apply State.addSat_kept
    | apply State.setb_kept

theorem State.rgrantSettle_kept {st : State} {p r : Nat} (h_st : Kept kf z0 st) (hkvl : ¬kf.kvl) :
    Kept kf z0 (State.rgrantSettle st p r) := by
  unfold State.rgrantSettle
  with_reducible repeat' first
    | assumption
    | (extract_lets +onlyGivenNames x; clear_value x)
    | apply State.setRgrant_kept
    | apply Kept.ite

theorem State.rgrantClose_kept {st : State} {p r : Nat} (h_st : Kept kf z0 st) (hmesh : ¬kf.mesh) :
    Kept kf z0 (State.rgrantClose st p r) := by
  unfold State.rgrantClose
  with_reducible repeat' first
    | assumption
    | (extract_lets +onlyGivenNames x; clear_value x)
    | apply State.send_kept

theorem State.kvlInject_kept {st : State} {p : Nat} {m : Msg} (h_st : Kept kf z0 st) (hmesh : ¬kf.mesh)
    (hleases : ¬kf.leases) :
    Kept kf z0 (State.kvlInject st p m) := by
  unfold State.kvlInject
  with_reducible repeat' first
    | assumption
    | refine fun _ (_ : Kept _ _ _) => ?_
    | refine fun _ _ (_ : Kept _ _ _) => ?_
    | refine fun _ _ _ (_ : Kept _ _ _) => ?_
    | (extract_lets +onlyGivenNames x; first
        | (refine Kept.cut kf z0 x ?_ (fun hx => ?_) <;> [subst x; clear_value x])
        | clear_value x)
    | apply State.leaseUse_kept
    | apply State.send_kept
    | apply State.track_kept
    | apply hF
    | apply Kept.ite
    | apply Kept.foldl

theorem State.kvlPassData_kept {st : State} {p : Nat} {m : Msg} (h_st : Kept kf z0 st) (hregs : ¬kf.regs)
    (hmesh : ¬kf.mesh) (hkvl : ¬kf.kvl) (hleases : ¬kf.leases) :
    Kept kf z0 (State.kvlPassData st p m) := by
  unfold State.kvlPassData
  with_reducible repeat' first
    | assumption
    | (extract_lets +onlyGivenNames x; first
        | (refine Kept.cut kf z0 x ?_ (fun hx => ?_) <;> [subst x; clear_value x])
        | clear_value x)
    | apply State.kvlFree_kept
    | apply State.kvlInject_kept
    | apply State.kvlQueue_kept
    | apply State.kvlRefused_kept
    | apply hF
    | apply Kept.ite

theorem State.kvlUnhold_kept {st : State} {p : Nat} {y0 : Nat} (h_st : Kept kf z0 st) (hregs : ¬kf.regs)
    (hmesh : ¬kf.mesh) (hkvl : ¬kf.kvl) (hleases : ¬kf.leases) :
    Kept kf z0 (State.kvlUnhold st p y0) := by
  induction y0 generalizing st p <;> unfold State.kvlUnhold
  on_goal 2 => rename_i ih
  all_goals with_reducible repeat' first
    | assumption
    | (extract_lets +onlyGivenNames x; clear_value x)
    | apply State.kvlPassData_kept
    | apply State.setKvl_kept
    | apply ih
    | apply hF
    | apply Kept.ite
    | intro _
    | dsimp only
    | fail_if_no_progress (refine Kept.upd ?_)
    | split

theorem State.kvlDown_kept {st : State} {p cause : Nat} (h_st : Kept kf z0 st) (hregs : ¬kf.regs)
    (hcar : ¬kf.car) (hmesh : ¬kf.mesh) (hkvl : ¬kf.kvl) (hleases : ¬kf.leases) :
    Kept kf z0 (State.kvlDown st p cause) := by
  unfold State.kvlDown
  with_reducible repeat' first
    | assumption
    | refine fun _ (_ : Kept _ _ _) => ?_
    | refine fun _ _ (_ : Kept _ _ _) => ?_
    | refine fun _ _ _ (_ : Kept _ _ _) => ?_
    | (extract_lets +onlyGivenNames x; first
        | (refine Kept.cut kf z0 x ?_ (fun hx => ?_) <;> [subst x; clear_value x])
        | (refine Kept.cut kf z0 x.1 ?_ (fun hx => ?_) <;> [subst x; clear_value x])
        | (refine Kept.cut kf z0 x.2 ?_ (fun hx => ?_) <;> [subst x; clear_value x])
        | (refine Kept.cut kf z0 x.2.2 ?_ (fun hx => ?_) <;> [subst x; clear_value x])
        | (refine Kept.cutF kf z0 x ?_ (fun hF => ?_) <;> [subst x; clear_value x])
        | (refine Kept.cutF₁ kf z0 x ?_ (fun hF => ?_) <;> [subst x; clear_value x])
        | (refine Kept.cutF₂ kf z0 x ?_ (fun hF => ?_) <;> [subst x; clear_value x])
        | (refine Kept.cutP kf z0 x ?_ (fun hF => ?_) <;> [subst x; clear_value x])
        | (refine Kept.cutA kf z0 x ?_ (fun hF => ?_) <;> [subst x; clear_value x])
        | (have : x.fuses = x.fuses := (by rfl); clear this; subst x)
        | clear_value x)
    | apply State.add_kept
    | apply State.fault_kept
    | apply State.kvlUnit_kept
    | apply State.notice_kept
    | apply State.putKvl_kept
    | apply State.quarantineAll_kept
    | apply State.rgrantClose_kept
    | apply State.send_kept
    | apply State.setb_kept
    | apply State.wf_kept
    | apply State.wn_kept
    | apply hF
    | apply Kept.ite
    | apply Kept.foldl
    | apply Kept.foldl₁
    | apply Kept.foldl₂
    | apply Kept.foldl₂₂
    | intro _
    | dsimp only
    | fail_if_no_progress (refine Kept.upd ?_)
    | split

theorem State.kvlLeave_kept {st : State} {p : Nat} (h_st : Kept kf z0 st) (hregs : ¬kf.regs) (hcar : ¬kf.car)
    (hmesh : ¬kf.mesh) (hkvl : ¬kf.kvl) (hleases : ¬kf.leases) :
    Kept kf z0 (State.kvlLeave st p) := by
  unfold State.kvlLeave
  with_reducible repeat' first
    | assumption
    | apply State.kvlDown_kept
    | apply State.kvlEnter_kept
    | apply Kept.ite

theorem State.setSnp_kept {kf : Facets} {z0 st : State} {n : Nat} {x : SnpSt} (h : Kept kf z0 st) (hsnp : ¬kf.snp) :
    Kept kf z0 (State.setSnp st n x) :=
  { h with
    canonical := fun w => { h.canonical w with snp := tableWf_tput _ (h.canonical w).snp }
    snp := fun a => absurd a hsnp }

theorem State.snpEnter_kept {st : State} {n s : Nat} (h_st : Kept kf z0 st) (hregs : ¬kf.regs) :
    Kept kf z0 (State.snpEnter st n s) := by
  unfold State.snpEnter
  with_reducible repeat' first
    | assumption
    | apply State.wf_kept

theorem State.snpNotice_kept {st : State} {n cls d1 : Nat} (h_st : Kept kf z0 st) (hregs : ¬kf.regs) :
    Kept kf z0 (State.snpNotice st n cls d1) := by
  unfold State.snpNotice
  with_reducible repeat' first
    | assumption
    | apply State.notice_kept

theorem State.snpReturn_kept {st : State} {n r units : Nat} (h_st : Kept kf z0 st) (hregs : ¬kf.regs)
    (hmesh : ¬kf.mesh) :
    Kept kf z0 (State.snpReturn st n r units) := by
  unfold State.snpReturn
  with_reducible repeat' first
    | assumption
    | (extract_lets +onlyGivenNames x; clear_value x)
    | apply State.send_kept
    | apply State.setWindow_kept
    | apply Kept.ite

theorem State.snpDropOut_kept {st : State} {n : Nat} (h_st : Kept kf z0 st) (hregs : ¬kf.regs) (hmesh : ¬kf.mesh)
    (hsnp : ¬kf.snp) :
    Kept kf z0 (State.snpDropOut st n) := by
  unfold State.snpDropOut
  with_reducible repeat' first
    | assumption
    | refine fun _ _ (_ : Kept _ _ _) => ?_
    | (extract_lets +onlyGivenNames x; first
        | (refine Kept.cut kf z0 x ?_ (fun hx => ?_) <;> [subst x; clear_value x])
        | clear_value x)
    | apply State.setSnp_kept
    | apply State.snpReturn_kept
    | apply Kept.foldl

theorem State.snpFlushIn_kept {st : State} {n : Nat} (h_st : Kept kf z0 st) (hregs : ¬kf.regs) (hsnp : ¬kf.snp) :
    Kept kf z0 (State.snpFlushIn st n) := by
  unfold State.snpFlushIn
  with_reducible repeat' first
    | assumption
    | refine fun _ _ (_ : Kept _ _ _) => ?_
    | (extract_lets +onlyGivenNames x; first
        | (refine Kept.cut kf z0 x ?_ (fun hx => ?_) <;> [subst x; clear_value x])
        | clear_value x)
    | apply State.addSat_kept
    | apply State.notice_kept
    | apply State.setSnp_kept
    | apply State.setb_kept
    | apply Kept.ite
    | apply Kept.foldl

theorem State.snpChange_kept {st : State} {n s : Nat} {f : SnpSet → SnpSet} (h_st : Kept kf z0 st)
    (hregs : ¬kf.regs) (hsnp : ¬kf.snp) :
    Kept kf z0 (State.snpChange st n s f) := by
  unfold State.snpChange
  with_reducible repeat' first
    | assumption
    | (extract_lets +onlyGivenNames x; clear_value x)
    | apply State.setSnp_kept
    | apply State.setb_kept

theorem State.snpApply_kept {st : State} {n s : Nat} (h_st : Kept kf z0 st) (hregs : ¬kf.regs) (hsnp : ¬kf.snp) :
    Kept kf z0 (State.snpApply st n s) := by
  unfold State.snpApply
  with_reducible repeat' first
    | assumption
    | (extract_lets +onlyGivenNames x; clear_value x)
    | apply State.setSnp_kept
    | apply State.wn_kept
    | dsimp only
    | split

theorem State.snpMute_kept {st : State} {n : Nat} (h_st : Kept kf z0 st) (hregs : ¬kf.regs) (hsnp : ¬kf.snp) :
    Kept kf z0 (State.snpMute st n) := by
  unfold State.snpMute
  with_reducible repeat' first
    | assumption
    | refine fun _ (_ : Kept _ _ _) => ?_
    | refine fun _ _ (_ : Kept _ _ _) => ?_
    | refine fun _ _ _ (_ : Kept _ _ _) => ?_
    | apply State.snpChange_kept
    | apply Kept.ite
    | apply Kept.foldl
    | apply Kept.foldl₁
    | apply Kept.foldl₂
    | apply Kept.foldl₂₂
    | dsimp only
    | fail_if_no_progress (refine Kept.upd ?_)
    | split

theorem State.snpCloseWindows_kept {st : State} {n : Nat} (h_st : Kept kf z0 st) (hregs : ¬kf.regs)
    (hmesh : ¬kf.mesh) (hleases : ¬kf.leases) :
    Kept kf z0 (State.snpCloseWindows st n) := by
  unfold State.snpCloseWindows
  with_reducible repeat' first
    | assumption
    | refine fun _ _ (_ : Kept _ _ _) => ?_
    | apply State.closeWindow_kept
    | apply Kept.foldl

theorem State.snpStopped_kept {st : State} {n : Nat} (h_st : Kept kf z0 st) (hregs : ¬kf.regs)
    (hmesh : ¬kf.mesh) (hleases : ¬kf.leases) (hsnp : ¬kf.snp) :
    Kept kf z0 (State.snpStopped st n) := by
  unfold State.snpStopped
  with_reducible repeat' first
    | assumption
    | refine fun _ (_ : Kept _ _ _) => ?_
    | refine fun _ _ (_ : Kept _ _ _) => ?_
    | refine fun _ _ _ (_ : Kept _ _ _) => ?_
    | (extract_lets +onlyGivenNames x; first
        | (refine Kept.cut kf z0 x ?_ (fun hx => ?_) <;> [subst x; clear_value x])
        | (refine Kept.cut kf z0 x.1 ?_ (fun hx => ?_) <;> [subst x; clear_value x])
        | (refine Kept.cut kf z0 x.2 ?_ (fun hx => ?_) <;> [subst x; clear_value x])
        | (refine Kept.cut kf z0 x.2.2 ?_ (fun hx => ?_) <;> [subst x; clear_value x])
        | (refine Kept.cutF kf z0 x ?_ (fun hF => ?_) <;> [subst x; clear_value x])
        | (refine Kept.cutF₁ kf z0 x ?_ (fun hF => ?_) <;> [subst x; clear_value x])
        | (refine Kept.cutF₂ kf z0 x ?_ (fun hF => ?_) <;> [subst x; clear_value x])
        | (refine Kept.cutP kf z0 x ?_ (fun hF => ?_) <;> [subst x; clear_value x])
        | (refine Kept.cutA kf z0 x ?_ (fun hF => ?_) <;> [subst x; clear_value x])
        | (have : x.fuses = x.fuses := (by rfl); clear this; subst x)
        | clear_value x)
    | apply State.setSnp_kept
    | apply State.snpApply_kept
    | apply State.snpCloseWindows_kept
    | apply State.snpEnter_kept
    | apply hF
    | apply Kept.ite
    | apply Kept.foldl
    | apply Kept.foldl₁
    | apply Kept.foldl₂
    | apply Kept.foldl₂₂
    | intro _
    | dsimp only
    | fail_if_no_progress (refine Kept.upd ?_)
    | split

theorem State.snpDownPort_kept {st : State} {n : Nat} (h_st : Kept kf z0 st) (hregs : ¬kf.regs)
    (hmesh : ¬kf.mesh) (hleases : ¬kf.leases) (hsnp : ¬kf.snp) :
    Kept kf z0 (State.snpDownPort st n) := by
  unfold State.snpDownPort
  with_reducible repeat' first
    | assumption
    | (extract_lets +onlyGivenNames x; first
        | (refine Kept.cut kf z0 x ?_ (fun hx => ?_) <;> [subst x; clear_value x])
        | (refine Kept.cut kf z0 x.1 ?_ (fun hx => ?_) <;> [subst x; clear_value x])
        | (refine Kept.cut kf z0 x.2 ?_ (fun hx => ?_) <;> [subst x; clear_value x])
        | (refine Kept.cut kf z0 x.2.2 ?_ (fun hx => ?_) <;> [subst x; clear_value x])
        | (refine Kept.cutF kf z0 x ?_ (fun hF => ?_) <;> [subst x; clear_value x])
        | (refine Kept.cutF₁ kf z0 x ?_ (fun hF => ?_) <;> [subst x; clear_value x])
        | (refine Kept.cutF₂ kf z0 x ?_ (fun hF => ?_) <;> [subst x; clear_value x])
        | (refine Kept.cutP kf z0 x ?_ (fun hF => ?_) <;> [subst x; clear_value x])
        | (refine Kept.cutA kf z0 x ?_ (fun hF => ?_) <;> [subst x; clear_value x])
        | (have : x.fuses = x.fuses := (by rfl); clear this; subst x)
        | clear_value x)
    | apply State.setSnp_kept
    | apply State.snpCloseWindows_kept
    | apply State.snpEnter_kept
    | apply State.snpFlushIn_kept
    | apply State.snpMute_kept
    | apply State.snpStopped_kept
    | apply hF
    | apply Kept.ite
    | intro _
    | dsimp only
    | fail_if_no_progress (refine Kept.upd ?_)
    | split

theorem State.snpLost_kept {st : State} {n cause : Nat} (h_st : Kept kf z0 st) (hregs : ¬kf.regs) (hmesh : ¬kf.mesh)
    (hleases : ¬kf.leases) (hsnp : ¬kf.snp) :
    Kept kf z0 (State.snpLost st n cause) := by
  unfold State.snpLost
  with_reducible repeat' first
    | assumption
    | refine fun _ _ (_ : Kept _ _ _) => ?_
    | (extract_lets +onlyGivenNames x; first
        | (refine Kept.cut kf z0 x ?_ (fun hx => ?_) <;> [subst x; clear_value x])
        | clear_value x)
    | apply State.addSat_kept
    | apply State.setSnp_kept
    | apply State.setb_kept
    | apply State.snpApply_kept
    | apply State.snpDropOut_kept
    | apply State.snpEnter_kept
    | apply State.snpNotice_kept
    | apply State.snpStopped_kept
    | apply State.wf_kept
    | apply Kept.ite
    | apply Kept.foldl

theorem State.snpLate_kept {st : State} {n r units : Nat} (h_st : Kept kf z0 st) (hregs : ¬kf.regs)
    (hmesh : ¬kf.mesh) :
    Kept kf z0 (State.snpLate st n r units) := by
  unfold State.snpLate
  with_reducible repeat' first
    | assumption
    | (extract_lets +onlyGivenNames x; refine Kept.cut kf z0 x ?_ (fun hx => ?_) <;> [subst x; clear_value x])
    | apply State.addSat_kept
    | apply State.setb_kept
    | apply State.snpNotice_kept
    | apply State.snpReturn_kept

theorem State.snpArrive_kept {st : State} {n r off len : Nat} (h_st : Kept kf z0 st) (hregs : ¬kf.regs)
    (hmesh : ¬kf.mesh) (hsnp : ¬kf.snp) :
    Kept kf z0 (State.snpArrive st n r off len) := by
  unfold State.snpArrive
  with_reducible repeat' first
    | assumption
    | (extract_lets +onlyGivenNames x; clear_value x)
    | apply State.setSnp_kept
    | apply State.snpLate_kept
    | apply Kept.ite

theorem State.snpPump_kept {st : State} {n r y0 : Nat} (h_st : Kept kf z0 st) (hregs : ¬kf.regs) (hmesh : ¬kf.mesh)
    (hleases : ¬kf.leases) (hsnp : ¬kf.snp) :
    Kept kf z0 (State.snpPump st n r y0) := by
  induction y0 generalizing st n r <;> unfold State.snpPump
  on_goal 2 => rename_i ih
  all_goals with_reducible repeat' first
    | assumption
    | (extract_lets +onlyGivenNames x; clear_value x)
    | apply State.sendDeposit_kept
    | apply State.setSnp_kept
    | apply ih
    | apply Kept.ite
    | dsimp only
    | split

theorem State.snpPumpAll_kept {st : State} (h_st : Kept kf z0 st) (hregs : ¬kf.regs) (hmesh : ¬kf.mesh)
    (hleases : ¬kf.leases) (hsnp : ¬kf.snp) :
    Kept kf z0 (State.snpPumpAll st) := by
  unfold State.snpPumpAll
  with_reducible repeat' first
    | assumption
    | refine fun _ _ (_ : Kept _ _ _) => ?_
    | apply State.snpPump_kept
    | apply Kept.ite
    | apply Kept.foldl

end Sys2Proof.Machine
end

