-- ==== Sys2Proof/Laws/KeptCore.lean ====
section
/-! SUPPORT. What the array, the commands of a core and the stores keep (see Kept.lean). -/

namespace Sys2Proof.Machine

set_option Elab.async false

set_option linter.unusedVariables false

variable {kf : Facets} {z0 : State}

theorem State.gleanBack_kept {st : State} {fn s : Nat} {g : GleanAcc} {thresh : Bool} (h_st : Kept kf z0 st)
    (hregs : ¬kf.regs) (hmem : ¬kf.mem) :
    Kept kf z0 (State.gleanBack st fn s g thresh) := by
  unfold State.gleanBack
  with_reducible repeat' first
    | assumption
    | refine fun _ (_ : Kept _ _ _) => ?_
    | refine fun _ _ (_ : Kept _ _ _) => ?_
    | refine fun _ _ _ (_ : Kept _ _ _) => ?_
    | (extract_lets +onlyGivenNames x; first
        | (refine Kept.cut kf z0 x ?_ (fun hx => ?_) <;> [subst x; clear_value x])
        | (refine Kept.cut kf z0 x.1 ?_ (fun hx => ?_) <;> [subst x; clear_value x])
        | (refine Kept.cut kf z0 x.2 ?_ (fun hx => ?_) <;> [subst x; clear_value x])
        | (refine Kept.cut kf z0 x.2.2 ?_ (fun hx => ?_) <;> [subst x; clear_value x])
        | (refine Kept.cutF kf z0 x ?_ (fun hF => ?_) <;> [subst x; clear_value x])
        | (refine Kept.cutF₁ kf z0 x ?_ (fun hF => ?_) <;> [subst x; clear_value x])
        | (refine Kept.cutF₂ kf z0 x ?_ (fun hF => ?_) <;> [subst x; clear_value x])
        | (refine Kept.cutP kf z0 x ?_ (fun hF => ?_) <;> [subst x; clear_value x])
        | (refine Kept.cutA kf z0 x ?_ (fun hF => ?_) <;> [subst x; clear_value x])
        | (have : x.fuses = x.fuses := (by rfl); clear this; subst x)
        | clear_value x)
    | apply State.add_kept
    | apply State.readEcc_kept
    | apply State.store_kept
    | apply hF
    | apply Kept.ite
    | apply Kept.foldl
    | apply Kept.foldl₁
    | apply Kept.foldl₂
    | apply Kept.foldl₂₂
    | intro _
    | dsimp only
    | fail_if_no_progress (refine Kept.upd ?_)
    | split

theorem State.paramBeat_kept {st : State} {fn s : Nat} (h_st : Kept kf z0 st) (hregs : ¬kf.regs)
    (hcores : ¬kf.cores) :
    Kept kf z0 (State.paramBeat st fn s) := by
  unfold State.paramBeat
  with_reducible repeat' first
    | assumption
    | (extract_lets +onlyGivenNames x; clear_value x)
    | apply State.add_kept
    | apply State.coreRead_kept
    | apply State.putCore_kept
    | apply hF
    | apply Kept.ite
    | intro _
    | dsimp only
    | fail_if_no_progress (refine Kept.upd ?_)
    | split

theorem State.postTap_kept {st : State} {fn s : Nat} {x : Cmd} {vals : List (Option Int)} {entry fmt oexp : Nat}
    {last : Bool} {y0 : Nat} (h_st : Kept kf z0 st) (hregs : ¬kf.regs) (hisl : ¬kf.isl) :
    Kept kf z0 (State.postTap st fn s x vals entry fmt oexp last y0) := by
  induction y0 generalizing st fn s x vals entry fmt oexp last <;> unfold State.postTap
  on_goal 2 => rename_i ih
  all_goals with_reducible repeat' first
    | assumption
    | refine fun _ (_ : Kept _ _ _) => ?_
    | refine fun _ _ (_ : Kept _ _ _) => ?_
    | refine fun _ _ _ (_ : Kept _ _ _) => ?_
    | (extract_lets +onlyGivenNames x; first
        | (refine Kept.cut kf z0 x ?_ (fun hx => ?_) <;> [subst x; clear_value x])
        | clear_value x)
    | apply State.setIsl_kept
    | apply ih
    | apply hF
    | apply Kept.ite

theorem State.handOn_kept {st : State} {fn s : Nat} {x : Cmd} {addr fmt oexp entry : Nat}
    {vals : List (Option Int)} {last : Bool} (h_st : Kept kf z0 st) (hregs : ¬kf.regs) (hcores : ¬kf.cores)
    (hisl : ¬kf.isl) :
    Kept kf z0 (State.handOn st fn s x addr fmt oexp entry vals last) := by
  unfold State.handOn
  with_reducible repeat' first
    | assumption
    | (extract_lets +onlyGivenNames x; first
        | (refine Kept.cut kf z0 x ?_ (fun hx => ?_) <;> [subst x; clear_value x])
        | clear_value x)
    | apply State.add_kept
    | apply State.postTap_kept
    | apply State.setCore_kept
    | apply hF
    | apply Kept.ite

theorem State.mintMint_kept {st : State} {fn s : Nat} {x : Cmd} (h_st : Kept kf z0 st) (hregs : ¬kf.regs)
    (hcores : ¬kf.cores) (hisl : ¬kf.isl) :
    Kept kf z0 (State.mintMint st fn s x) := by
  unfold State.mintMint
  with_reducible repeat' first
    | assumption
    | refine fun _ (_ : Kept _ _ _) => ?_
    | refine fun _ _ (_ : Kept _ _ _) => ?_
    | refine fun _ _ _ (_ : Kept _ _ _) => ?_
    | (extract_lets +onlyGivenNames x; first
        | (refine Kept.cut kf z0 x ?_ (fun hx => ?_) <;> [subst x; clear_value x])
        | clear_value x)
    | apply State.add_kept
    | apply State.handOn_kept
    | apply State.putCore_kept
    | apply State.refresh_kept
    | apply State.setCore_kept
    | apply hF
    | apply Kept.ite

theorem State.mvVector_kept {st : State} {fn s : Nat} {x : Cmd} (h_st : Kept kf z0 st) (hregs : ¬kf.regs)
    (hcores : ¬kf.cores) :
    Kept kf z0 (State.mvVector st fn s x) := by
  unfold State.mvVector
  with_reducible repeat' first
    | assumption
    | (extract_lets +onlyGivenNames x; first
        | (refine Kept.cut kf z0 x ?_ (fun hx => ?_) <;> [subst x; clear_value x])
        | (refine Kept.cut kf z0 x.2.2 ?_ (fun hx => ?_) <;> [subst x; clear_value x])
        | clear_value x)
    | apply State.add_kept
    | apply State.coreRead_kept
    | apply State.putCore_kept
    | apply hF
    | apply Kept.ite
    | intro _
    | dsimp only
    | fail_if_no_progress (refine Kept.upd ?_)
    | split

theorem State.scaleLines_kept {st : State} {fn s : Nat} {x : Cmd} {need : List Nat}
    {held : List (Nat × List Byte)} (h_st : Kept kf z0 st) (hregs : ¬kf.regs) (hcores : ¬kf.cores) :
    Kept kf z0 (State.scaleLines st fn s x need held).2.2 := by
  unfold State.scaleLines
  with_reducible repeat' first
    | assumption
    | refine fun _ (_ : Kept _ _ _) => ?_
    | refine fun _ _ (_ : Kept _ _ _) => ?_
    | refine fun _ _ _ (_ : Kept _ _ _) => ?_
    | (extract_lets +onlyGivenNames x; first
        | (refine Kept.cut kf z0 x.2.2 ?_ (fun hx => ?_) <;> [subst x; clear_value x])
        | clear_value x)
    | apply State.add_kept
    | apply State.coreRead_kept
    | apply hF
    | apply Kept.ite
    | apply Kept.ite₂
    | apply Kept.foldl
    | apply Kept.foldl₁
    | apply Kept.foldl₂
    | apply Kept.foldl₂₂
    | intro _
    | dsimp only
    | fail_if_no_progress (refine Kept.upd ?_)
    | split

theorem State.mvBegin_kept {st : State} {fn s : Nat} {x : Cmd} (h_st : Kept kf z0 st) (hregs : ¬kf.regs)
    (hcores : ¬kf.cores) :
    Kept kf z0 (State.mvBegin st fn s x) := by
  unfold State.mvBegin
  with_reducible repeat' first
    | assumption
    | (extract_lets +onlyGivenNames x; first
        | (refine Kept.cut kf z0 x ?_ (fun hx => ?_) <;> [subst x; clear_value x])
        | (refine Kept.cut kf z0 x.2.2 ?_ (fun hx => ?_) <;> [subst x; clear_value x])
        | clear_value x)
    | apply State.putCore_kept
    | apply State.scaleLines_kept
    | apply State.wf_kept
    | apply hF
    | apply Kept.ite
    | intro _
    | dsimp only
    | fail_if_no_progress (refine Kept.upd ?_)
    | split

theorem State.mvBatchEnd_kept {st : State} {fn s : Nat} {x : Cmd} {m : MvSt} {pw : Nat} (h_st : Kept kf z0 st)
    (hregs : ¬kf.regs) (hcores : ¬kf.cores) :
    Kept kf z0 (State.mvBatchEnd st fn s x m pw) := by
  unfold State.mvBatchEnd
  with_reducible repeat' first
    | assumption
    | refine fun _ (_ : Kept _ _ _) => ?_
    | refine fun _ _ (_ : Kept _ _ _) => ?_
    | refine fun _ _ _ (_ : Kept _ _ _) => ?_
    | (extract_lets +onlyGivenNames x; first
        | (refine Kept.cut kf z0 x ?_ (fun hx => ?_) <;> [subst x; clear_value x])
        | clear_value x)
    | apply State.add_kept
    | apply State.addSat_kept
    | apply State.putCore_kept
    | apply State.setb_kept
    | apply State.wn_kept
    | apply hF
    | apply Kept.ite

theorem State.mvPrefetch_kept {st : State} {fn s : Nat} (h_st : Kept kf z0 st) (hregs : ¬kf.regs)
    (hcores : ¬kf.cores) :
    Kept kf z0 (State.mvPrefetch st fn s) := by
  unfold State.mvPrefetch
  with_reducible repeat' first
    | assumption
    | (extract_lets +onlyGivenNames x; clear_value x)
    | apply State.mvVector_kept
    | apply hF
    | apply Kept.ite
    | intro _
    | dsimp only
    | fail_if_no_progress (refine Kept.upd ?_)
    | split

theorem State.mvBeat_kept {st : State} {fn s : Nat} (h_st : Kept kf z0 st) (hregs : ¬kf.regs)
    (hcores : ¬kf.cores) :
    Kept kf z0 (State.mvBeat st fn s) := by
  unfold State.mvBeat
  with_reducible repeat' first
    | assumption
    | refine fun _ (_ : Kept _ _ _) => ?_
    | refine fun _ _ (_ : Kept _ _ _) => ?_
    | refine fun _ _ _ (_ : Kept _ _ _) => ?_
    | (extract_lets +onlyGivenNames x; first
        | (refine Kept.cut kf z0 x ?_ (fun hx => ?_) <;> [subst x; clear_value x])
        | clear_value x)
    | apply State.add_kept
    | apply State.coreRead_kept
    | apply State.mvBatchEnd_kept
    | apply State.mvBegin_kept
    | apply State.mvPrefetch_kept
    | apply State.putCore_kept
    | apply State.scaleLines_kept
    | apply State.setCore_kept
    | apply hF
    | apply Kept.ite
    | apply Kept.foldl
    | apply Kept.foldl₁
    | apply Kept.foldl₂
    | apply Kept.foldl₂₂
    | intro _
    | dsimp only
    | fail_if_no_progress (refine Kept.upd ?_)
    | split

theorem State.mintMv_kept {st : State} {fn s : Nat} {x : Cmd} (h_st : Kept kf z0 st) (hregs : ¬kf.regs)
    (hcores : ¬kf.cores) (hisl : ¬kf.isl) :
    Kept kf z0 (State.mintMv st fn s x) := by
  unfold State.mintMv
  with_reducible repeat' first
    | assumption
    | refine fun _ (_ : Kept _ _ _) => ?_
    | refine fun _ _ (_ : Kept _ _ _) => ?_
    | refine fun _ _ _ (_ : Kept _ _ _) => ?_
    | (extract_lets +onlyGivenNames x; clear_value x)
    | apply State.handOn_kept
    | apply State.putCore_kept
    | apply State.refresh_kept
    | apply State.setCore_kept
    | apply hF
    | apply Kept.ite
    | apply Kept.foldl
    | apply Kept.foldl₁
    | apply Kept.foldl₂
    | apply Kept.foldl₂₂
    | intro _
    | dsimp only
    | fail_if_no_progress (refine Kept.upd ?_)
    | split

theorem State.gleanZero_kept {st : State} {fn s : Nat} (h_st : Kept kf z0 st) (hregs : ¬kf.regs)
    (hcores : ¬kf.cores) (hmem : ¬kf.mem) :
    Kept kf z0 (State.gleanZero st fn s) := by
  unfold State.gleanZero
  with_reducible repeat' first
    | assumption
    | refine fun _ (_ : Kept _ _ _) => ?_
    | refine fun _ _ (_ : Kept _ _ _) => ?_
    | refine fun _ _ _ (_ : Kept _ _ _) => ?_
    | (extract_lets +onlyGivenNames x; first
        | (refine Kept.cut kf z0 x ?_ (fun hx => ?_) <;> [subst x; clear_value x])
        | clear_value x)
    | apply State.clrb_kept
    | apply State.setCore_kept
    | apply State.wn_kept
    | apply State.zeroRange_kept
    | apply hF
    | apply Kept.ite
    | apply Kept.foldl

theorem State.mintBeat_kept {st : State} {fn s : Nat} (h_st : Kept kf z0 st) (hregs : ¬kf.regs)
    (hcores : ¬kf.cores) (hisl : ¬kf.isl) (hmem : ¬kf.mem) :
    Kept kf z0 (State.mintBeat st fn s) := by
  unfold State.mintBeat
  with_reducible repeat' first
    | assumption
    | (extract_lets +onlyGivenNames x; clear_value x)
    | apply State.gleanZero_kept
    | apply State.mintMint_kept
    | apply State.mintMv_kept
    | apply hF
    | apply Kept.ite
    | intro _
    | dsimp only
    | fail_if_no_progress (refine Kept.upd ?_)
    | split

theorem State.fillHalf_kept {st : State} {rem : List (Nat × Option Byte)} {a y0 : Nat} (h_st : Kept kf z0 st) :
    Kept kf z0 (State.fillHalf st rem a y0).2 := by
  induction y0 generalizing st rem a <;> unfold State.fillHalf
  on_goal 2 => rename_i ih
  all_goals with_reducible repeat' first
    | assumption
    | (extract_lets +onlyGivenNames x; first
        | (refine Kept.cut kf z0 x.2 ?_ (fun hx => ?_) <;> [subst x; clear_value x])
        | clear_value x)
    | apply State.draw_kept
    | apply ih
    | split

theorem State.drainRemote_kept {st : State} {fn s : Nat} (h_st : Kept kf z0 st) (hregs : ¬kf.regs)
    (hmesh : ¬kf.mesh) (hcores : ¬kf.cores) (hleases : ¬kf.leases) :
    Kept kf z0 (State.drainRemote st fn s) := by
  unfold State.drainRemote
  with_reducible repeat' first
    | assumption
    | (extract_lets +onlyGivenNames x; clear_value x)
    | apply State.fillHalf_kept
    | apply State.putCore_kept
    | apply State.sendDeposit_kept
    | apply State.setCore_kept
    | apply hF
    | apply Kept.ite
    | intro _
    | dsimp only
    | fail_if_no_progress (refine Kept.upd ?_)
    | split

theorem State.drainBeat_kept {st : State} {fn s : Nat} (h_st : Kept kf z0 st) (hregs : ¬kf.regs)
    (hmesh : ¬kf.mesh) (hcores : ¬kf.cores) (hleases : ¬kf.leases) (hmem : ¬kf.mem) :
    Kept kf z0 (State.drainBeat st fn s) := by
  unfold State.drainBeat
  with_reducible repeat' first
    | assumption
    | refine fun _ (_ : Kept _ _ _) => ?_
    | refine fun _ _ (_ : Kept _ _ _) => ?_
    | refine fun _ _ _ (_ : Kept _ _ _) => ?_
    | (extract_lets +onlyGivenNames x; clear_value x)
    | apply State.add_kept
    | apply State.coreWrite_kept
    | apply State.drainRemote_kept
    | apply State.putCore_kept
    | apply hF
    | apply Kept.ite
    | apply Kept.foldl
    | apply Kept.foldl₁
    | apply Kept.foldl₂
    | apply Kept.foldl₂₂
    | intro _
    | dsimp only
    | fail_if_no_progress (refine Kept.upd ?_)
    | split

theorem State.submit_kept {st : State} {fn s : Nat} {w : CmdWords} (h_st : Kept kf z0 st) (hregs : ¬kf.regs)
    (hcores : ¬kf.cores) :
    Kept kf z0 (State.submit st fn s w) := by
  unfold State.submit
  with_reducible repeat' first
    | assumption
    | (extract_lets +onlyGivenNames x; first
        | (refine Kept.cut kf z0 x ?_ (fun hx => ?_) <;> [subst x; clear_value x])
        | clear_value x)
    | apply State.putCore_kept
    | apply State.setb_kept
    | apply State.wr_kept
    | apply Kept.ite

theorem State.submitOp_kept {st : State} {fn s op : Nat} {w : CmdWords} (h_st : Kept kf z0 st) (hregs : ¬kf.regs)
    (hcores : ¬kf.cores) :
    Kept kf z0 (State.submitOp st fn s op w) := by
  unfold State.submitOp
  with_reducible repeat' first
    | assumption
    | apply State.accErr_kept
    | apply State.submit_kept
    | split

theorem execNop_kept {fn s : Nat} {w : CmdWords} {st : State} (h_st : Kept kf z0 st) (hregs : ¬kf.regs)
    (hcores : ¬kf.cores) :
    KeptOut kf z0 (execNop fn s w st) := by
  unfold execNop
  with_reducible repeat' first
    | assumption
    | apply State.submitOp_kept
    | apply KeptOut.next

theorem execLoadW_kept {fn s : Nat} {w : CmdWords} {st : State} (h_st : Kept kf z0 st) (hregs : ¬kf.regs)
    (hcores : ¬kf.cores) :
    KeptOut kf z0 (execLoadW fn s w st) := by
  unfold execLoadW
  with_reducible repeat' first
    | assumption
    | apply State.submitOp_kept
    | apply KeptOut.next

theorem execRun_kept {fn s : Nat} {w : CmdWords} {st : State} (h_st : Kept kf z0 st) (hregs : ¬kf.regs)
    (hcores : ¬kf.cores) :
    KeptOut kf z0 (execRun fn s w st) := by
  unfold execRun
  with_reducible repeat' first
    | assumption
    | apply State.submitOp_kept
    | apply KeptOut.next

theorem execMint_kept {fn s : Nat} {w : CmdWords} {st : State} (h_st : Kept kf z0 st) (hregs : ¬kf.regs)
    (hcores : ¬kf.cores) :
    KeptOut kf z0 (execMint fn s w st) := by
  unfold execMint
  with_reducible repeat' first
    | assumption
    | apply State.submitOp_kept
    | apply KeptOut.next

theorem execMv_kept {fn s : Nat} {w : CmdWords} {st : State} (h_st : Kept kf z0 st) (hregs : ¬kf.regs)
    (hcores : ¬kf.cores) :
    KeptOut kf z0 (execMv fn s w st) := by
  unfold execMv
  with_reducible repeat' first
    | assumption
    | apply State.submitOp_kept
    | apply KeptOut.next

theorem execPush_kept {fn s : Nat} {w : CmdWords} {st : State} (h_st : Kept kf z0 st) (hregs : ¬kf.regs)
    (hcores : ¬kf.cores) :
    KeptOut kf z0 (execPush fn s w st) := by
  unfold execPush
  with_reducible repeat' first
    | assumption
    | apply State.submitOp_kept
    | apply KeptOut.next

theorem execPaceMark_kept {fn s : Nat} {w : CmdWords} {st : State} (h_st : Kept kf z0 st) (hregs : ¬kf.regs)
    (hcores : ¬kf.cores) :
    KeptOut kf z0 (execPaceMark fn s w st) := by
  unfold execPaceMark
  with_reducible repeat' first
    | assumption
    | apply State.submitOp_kept
    | apply KeptOut.next

theorem execRampUp_kept {fn s : Nat} {w : CmdWords} {st : State} (h_st : Kept kf z0 st) (hregs : ¬kf.regs)
    (hcores : ¬kf.cores) :
    KeptOut kf z0 (execRampUp fn s w st) := by
  unfold execRampUp
  with_reducible repeat' first
    | assumption
    | apply State.submitOp_kept
    | apply KeptOut.next

theorem execSignal_kept {fn s : Nat} {w : CmdWords} {st : State} (h_st : Kept kf z0 st) (hregs : ¬kf.regs)
    (hcores : ¬kf.cores) :
    KeptOut kf z0 (execSignal fn s w st) := by
  unfold execSignal
  with_reducible repeat' first
    | assumption
    | apply State.submitOp_kept
    | apply KeptOut.next

theorem execWait_kept {fn s : Nat} {w : CmdWords} {st : State} (h_st : Kept kf z0 st) (hregs : ¬kf.regs)
    (hcores : ¬kf.cores) :
    KeptOut kf z0 (execWait fn s w st) := by
  unfold execWait
  with_reducible repeat' first
    | assumption
    | apply State.submitOp_kept
    | apply KeptOut.next

theorem State.rampUpFeeder_kept {st : State} {fn s f : Nat} (h_st : Kept kf z0 st) (hcores : ¬kf.cores) :
    Kept kf z0 (State.rampUpFeeder st fn s f) := by
  unfold State.rampUpFeeder
  with_reducible repeat' first
    | assumption
    | (extract_lets +onlyGivenNames x; clear_value x)
    | apply State.setCore_kept
    | apply Kept.ite

theorem execChaffGap_kept {fn s feeder : Nat} {st : State} (h_st : Kept kf z0 st) (hcores : ¬kf.cores) :
    KeptOut kf z0 (execChaffGap fn s feeder st) := by
  unfold execChaffGap
  with_reducible repeat' first
    | assumption
    | refine fun _ (_ : Kept _ _ _) => ?_
    | refine fun _ _ (_ : Kept _ _ _) => ?_
    | refine fun _ _ _ (_ : Kept _ _ _) => ?_
    | (extract_lets +onlyGivenNames x; clear_value x)
    | apply State.setCore_kept
    | apply State.when_kept
    | apply hF
    | apply Kept.ite
    | apply KeptOut.next

theorem execRampUpStart_kept {fn s feeder : Nat} {st : State} (h_st : Kept kf z0 st) (hcores : ¬kf.cores) :
    KeptOut kf z0 (execRampUpStart fn s feeder st) := by
  unfold execRampUpStart
  with_reducible repeat' first
    | assumption
    | refine fun _ (_ : Kept _ _ _) => ?_
    | apply State.rampUpFeeder_kept
    | apply State.when_kept
    | apply KeptOut.next

theorem State.chaffBeat_kept {st : State} {fn s f : Nat} (h_st : Kept kf z0 st) (hregs : ¬kf.regs)
    (hcores : ¬kf.cores) :
    Kept kf z0 (State.chaffBeat st fn s f) := by
  unfold State.chaffBeat
  with_reducible repeat' first
    | assumption
    | refine fun _ (_ : Kept _ _ _) => ?_
    | refine fun _ _ (_ : Kept _ _ _) => ?_
    | refine fun _ _ _ (_ : Kept _ _ _) => ?_
    | (extract_lets +onlyGivenNames x; first
        | (refine Kept.cut kf z0 x ?_ (fun hx => ?_) <;> [subst x; clear_value x])
        | clear_value x)
    | apply State.add_kept
    | apply State.setCore_kept
    | apply State.when_kept
    | apply hF
    | apply Kept.ite

theorem State.ctrlHead_kept {st : State} {fn s : Nat} (h_st : Kept kf z0 st) (hregs : ¬kf.regs) (hmesh : ¬kf.mesh)
    (hcores : ¬kf.cores) :
    Kept kf z0 (State.ctrlHead st fn s) := by
  unfold State.ctrlHead
  with_reducible repeat' first
    | assumption
    | (extract_lets +onlyGivenNames x; clear_value x)
    | apply State.putCore_kept
    | apply State.send_kept
    | apply State.track_kept
    | apply Kept.ite
    | dsimp only
    | split

theorem State.freeEntries_kept {st : State} {fn s bank : Nat} {y0 : List (Nat × Nat)} (h_st : Kept kf z0 st)
    (hcores : ¬kf.cores) :
    Kept kf z0 (State.freeEntries st fn s bank y0) := by
  induction y0 generalizing st fn s bank <;> unfold State.freeEntries
  on_goal 2 => rename_i ih
  all_goals with_reducible repeat' first
    | assumption
    | (extract_lets +onlyGivenNames x; first
        | (refine Kept.cut kf z0 x.2 ?_ (fun hx => ?_) <;> [subst x; clear_value x])
        | clear_value x)
    | apply State.draw_kept
    | apply State.setCore_kept
    | apply ih

theorem State.freeBytes_kept {st : State} {y0 : List Nat} (h_st : Kept kf z0 st) (hmem : ¬kf.mem) :
    Kept kf z0 (State.freeBytes st y0) := by
  induction y0 generalizing st <;> unfold State.freeBytes
  on_goal 2 => rename_i ih
  all_goals with_reducible repeat' first
    | assumption
    | (extract_lets +onlyGivenNames x; refine Kept.cut kf z0 x.2 ?_ (fun hx => ?_) <;> [subst x; clear_value x])
    | apply State.draw_kept
    | apply State.setMem8_kept
    | apply ih

theorem State.rampUpIdle_kept {st : State} {fn s f : Nat} (h_st : Kept kf z0 st) (hcores : ¬kf.cores) :
    Kept kf z0 (State.rampUpIdle st fn s f) := by
  unfold State.rampUpIdle
  with_reducible repeat' first
    | assumption
    | (extract_lets +onlyGivenNames x; clear_value x)
    | apply State.setCore_kept
    | apply hF
    | apply Kept.ite

theorem State.retireEffect_kept {st : State} {fn s cls : Nat} {x : Cmd} (h_st : Kept kf z0 st)
    (hregs : ¬kf.regs) (hmesh : ¬kf.mesh) (hcores : ¬kf.cores) (hmem : ¬kf.mem) :
    Kept kf z0 (State.retireEffect st fn s cls x) := by
  unfold State.retireEffect
  with_reducible repeat' first
    | assumption
    | refine fun _ (_ : Kept _ _ _) => ?_
    | refine fun _ _ (_ : Kept _ _ _) => ?_
    | refine fun _ _ _ (_ : Kept _ _ _) => ?_
    | (extract_lets +onlyGivenNames x; first
        | (refine Kept.cut kf z0 x ?_ (fun hx => ?_) <;> [subst x; clear_value x])
        | clear_value x)
    | apply State.freeBytes_kept
    | apply State.freeEntries_kept
    | apply State.gleanBack_kept
    | apply State.rampUpIdle_kept
    | apply State.send_kept
    | apply State.setCore_kept
    | apply State.wn_kept
    | apply hF
    | apply Kept.ite
    | apply Kept.foldl
    | apply Kept.foldl₁
    | apply Kept.foldl₂
    | apply Kept.foldl₂₂
    | intro _
    | dsimp only
    | fail_if_no_progress (refine Kept.upd ?_)
    | split

theorem State.retire_kept {st : State} {fn s cls : Nat} (h_st : Kept kf z0 st) (hregs : ¬kf.regs) (hmesh : ¬kf.mesh)
    (hcores : ¬kf.cores) (hmem : ¬kf.mem) :
    Kept kf z0 (State.retire st fn s cls) := by
  unfold State.retire
  with_reducible repeat' first
    | assumption
    | (extract_lets +onlyGivenNames x; clear_value x)
    | apply State.add_kept
    | apply State.ctrlHead_kept
    | apply State.halt_kept
    | apply State.lastErr_kept
    | apply State.postRecord_kept
    | apply State.refresh_kept
    | apply State.requiet_kept
    | apply State.retireEffect_kept
    | apply State.setCore_kept
    | apply Kept.ite
    | dsimp only
    | split

theorem State.ctrlTail_kept {st : State} {fn s : Nat} (h_st : Kept kf z0 st) (hcores : ¬kf.cores) :
    Kept kf z0 (State.ctrlTail st fn s) := by
  unfold State.ctrlTail
  with_reducible repeat' first
    | assumption
    | (extract_lets +onlyGivenNames x; clear_value x)
    | apply State.setCore_kept
    | apply Kept.ite
    | dsimp only
    | split

theorem State.issueHead_kept {st : State} {fn s : Nat} {x : Cmd} {rest : List Cmd} {desc : List Byte}
    (h_st : Kept kf z0 st) (hregs : ¬kf.regs) (hmesh : ¬kf.mesh) (hcores : ¬kf.cores) (hisl : ¬kf.isl) :
    Kept kf z0 (State.issueHead st fn s x rest desc) := by
  unfold State.issueHead
  with_reducible repeat' first
    | assumption
    | (extract_lets +onlyGivenNames x; first
        | (refine Kept.cut kf z0 x ?_ (fun hx => ?_) <;> [subst x; clear_value x])
        | clear_value x)
    | apply State.add_kept
    | apply State.ctrlHead_kept
    | apply State.refresh_kept
    | apply State.requiet_kept
    | apply State.setCore_kept
    | apply State.setIsl_kept
    | apply State.ungate_kept
    | apply hF
    | apply Kept.ite

theorem execCommandIssue_kept {fn s : Nat} {st : State} (h_st : Kept kf z0 st) (hregs : ¬kf.regs) (hmesh : ¬kf.mesh)
    (hcores : ¬kf.cores) (hisl : ¬kf.isl) (hmem : ¬kf.mem) :
    KeptOut kf z0 (execCommandIssue fn s st) := by
  unfold execCommandIssue
  with_reducible repeat' first
    | assumption
    | (extract_lets +onlyGivenNames x; clear_value x)
    | apply State.ctrlTail_kept
    | apply State.halt_kept
    | apply State.intakeCheck_kept
    | apply State.issueHead_kept
    | apply State.postRecord_kept
    | apply State.retire_kept
    | apply State.setCore_kept
    | apply Kept.ite
    | apply KeptOut.next
    | apply KeptOut.ite
    | dsimp only
    | split

theorem execLatchWindow_kept {fn s : Nat} {st : State} (h_st : Kept kf z0 st) (hregs : ¬kf.regs)
    (hcores : ¬kf.cores) :
    KeptOut kf z0 (execLatchWindow fn s st) := by
  unfold execLatchWindow
  with_reducible repeat' first
    | assumption
    | refine fun _ (_ : Kept _ _ _) => ?_
    | refine fun _ _ (_ : Kept _ _ _) => ?_
    | refine fun _ _ _ (_ : Kept _ _ _) => ?_
    | (extract_lets +onlyGivenNames x; clear_value x)
    | apply State.add_kept
    | apply State.putCore_kept
    | apply State.wn_kept
    | apply hF
    | apply Kept.ite
    | apply KeptOut.next
    | apply KeptOut.ite
    | apply Kept.foldl
    | apply Kept.foldl₁
    | apply Kept.foldl₂
    | apply Kept.foldl₂₂
    | intro _
    | dsimp only
    | fail_if_no_progress (refine Kept.upd ?_)
    | split

theorem execEscapeTableLoad_kept {fn s : Nat} {st : State} (h_st : Kept kf z0 st) (hregs : ¬kf.regs)
    (hcores : ¬kf.cores) :
    KeptOut kf z0 (execEscapeTableLoad fn s st) := by
  unfold execEscapeTableLoad
  with_reducible repeat' first
    | assumption
    | refine fun _ (_ : Kept _ _ _) => ?_
    | refine fun _ _ (_ : Kept _ _ _) => ?_
    | refine fun _ _ _ (_ : Kept _ _ _) => ?_
    | (extract_lets +onlyGivenNames x; clear_value x)
    | apply State.add_kept
    | apply State.putCore_kept
    | apply State.readEscs_kept
    | apply hF
    | apply Kept.ite
    | apply KeptOut.next
    | apply KeptOut.ite
    | intro _
    | dsimp only
    | fail_if_no_progress (refine Kept.upd ?_)
    | split

theorem State.mvSlot_kept {st : State} {fn s : Nat} (h_st : Kept kf z0 st) (hregs : ¬kf.regs)
    (hcores : ¬kf.cores) :
    Kept kf z0 (State.mvSlot st fn s) := by
  unfold State.mvSlot
  with_reducible repeat' first
    | assumption
    | refine fun _ (_ : Kept _ _ _) => ?_
    | refine fun _ _ (_ : Kept _ _ _) => ?_
    | refine fun _ _ _ (_ : Kept _ _ _) => ?_
    | (extract_lets +onlyGivenNames x; first
        | (refine Kept.cut kf z0 x ?_ (fun hx => ?_) <;> [subst x; clear_value x])
        | clear_value x)
    | apply State.chaffBeat_kept
    | apply State.mvBeat_kept
    | apply State.rampUpFeeder_kept
    | apply State.setCore_kept
    | apply hF
    | apply Kept.ite
    | apply Kept.foldl

theorem State.pfOutBeat_kept {st : State} {fn s : Nat} (h_st : Kept kf z0 st) (hregs : ¬kf.regs)
    (hisl : ¬kf.isl) :
    Kept kf z0 (State.pfOutBeat st fn s) := by
  unfold State.pfOutBeat
  with_reducible repeat' first
    | assumption
    | (extract_lets +onlyGivenNames x; clear_value x)
    | apply State.emit_kept
    | apply State.setIsl_kept
    | apply hF
    | apply Kept.ite
    | intro _
    | dsimp only
    | fail_if_no_progress (refine Kept.upd ?_)
    | split

theorem State.pmOutBeat_kept {st : State} {fn s : Nat} (h_st : Kept kf z0 st) (hregs : ¬kf.regs)
    (hcores : ¬kf.cores) (hisl : ¬kf.isl) :
    Kept kf z0 (State.pmOutBeat st fn s) := by
  unfold State.pmOutBeat
  with_reducible repeat' first
    | assumption
    | (extract_lets +onlyGivenNames x; clear_value x)
    | apply State.emit_kept
    | apply State.putCore_kept
    | apply State.setIsl_kept
    | apply hF
    | apply Kept.ite
    | intro _
    | dsimp only
    | fail_if_no_progress (refine Kept.upd ?_)
    | split

theorem State.rowSlot_kept {st : State} {fn s r : Nat} (h_st : Kept kf z0 st) (hregs : ¬kf.regs)
    (hcores : ¬kf.cores) :
    Kept kf z0 (State.rowSlot st fn s r) := by
  unfold State.rowSlot
  with_reducible repeat' first
    | assumption
    | (extract_lets +onlyGivenNames x; first
        | (refine Kept.cut kf z0 x ?_ (fun hx => ?_) <;> [subst x; clear_value x])
        | clear_value x)
    | apply State.chaffBeat_kept
    | apply State.rampUpFeeder_kept
    | apply State.rowBeat_kept
    | apply State.setCore_kept
    | apply hF
    | apply Kept.ite

theorem execBeat_kept {fn s : Nat} {stage : Stage} {st : State} (h_st : Kept kf z0 st) (hregs : ¬kf.regs)
    (hmesh : ¬kf.mesh) (hcores : ¬kf.cores) (hisl : ¬kf.isl) (hleases : ¬kf.leases) (hmem : ¬kf.mem) :
    KeptOut kf z0 (execBeat fn s stage st) := by
  unfold execBeat
  with_reducible repeat' first
    | assumption
    | (extract_lets +onlyGivenNames x; clear_value x)
    | apply State.accumBeat_kept
    | apply State.drainBeat_kept
    | apply State.genBeat_kept
    | apply State.mintBeat_kept
    | apply State.mvSlot_kept
    | apply State.paramBeat_kept
    | apply State.pfOutBeat_kept
    | apply State.pmOutBeat_kept
    | apply State.refresh_kept
    | apply State.rowSlot_kept
    | apply State.treeBeat_kept
    | apply hF
    | apply Kept.ite
    | apply KeptOut.next
    | apply KeptOut.ite
    | intro _
    | dsimp only
    | fail_if_no_progress (refine Kept.upd ?_)
    | split

theorem State.tapFlush_kept {st : State} {fn s : Nat} (h_st : Kept kf z0 st) (hregs : ¬kf.regs)
    (hcores : ¬kf.cores) (hisl : ¬kf.isl) :
    Kept kf z0 (State.tapFlush st fn s) := by
  unfold State.tapFlush
  with_reducible repeat' first
    | assumption
    | (extract_lets +onlyGivenNames x; first
        | (refine Kept.cut kf z0 x ?_ (fun hx => ?_) <;> [subst x; clear_value x])
        | clear_value x)
    | apply State.emit_kept
    | apply State.pfResync_kept
    | apply State.pmDiscard_kept
    | apply State.setIsl_kept
    | apply hF
    | apply Kept.ite

theorem State.flushCore_kept {st : State} {fn s : Nat} (h_st : Kept kf z0 st) (hregs : ¬kf.regs)
    (hmesh : ¬kf.mesh) (hcores : ¬kf.cores) (hisl : ¬kf.isl) :
    Kept kf z0 (State.flushCore st fn s) := by
  unfold State.flushCore
  with_reducible repeat' first
    | assumption
    | (extract_lets +onlyGivenNames x; first
        | (refine Kept.cut kf z0 x ?_ (fun hx => ?_) <;> [subst x; clear_value x])
        | clear_value x)
    | apply State.cancelWait_kept
    | apply State.clrb_kept
    | apply State.refresh_kept
    | apply State.setCore_kept
    | apply State.tapFlush_kept
    | apply State.wn_kept
    | apply hF
    | apply Kept.ite
    | intro _
    | dsimp only
    | fail_if_no_progress (refine Kept.upd ?_)
    | split

theorem execFlush_kept {who : Who} {fn s : Nat} {st : State} (h_st : Kept kf z0 st) (hregs : ¬kf.regs)
    (hmesh : ¬kf.mesh) (hcores : ¬kf.cores) (hisl : ¬kf.isl) :
    KeptOut kf z0 (execFlush who fn s st) := by
  unfold execFlush
  with_reducible repeat' first
    | assumption
    | refine fun _ (_ : Kept _ _ _) => ?_
    | apply State.flushCore_kept
    | apply State.slotWrite_kept
    | apply KeptOut.next

theorem State.resumeCore_kept {st : State} {fn s : Nat} (h_st : Kept kf z0 st) (hregs : ¬kf.regs)
    (hcores : ¬kf.cores) :
    Kept kf z0 (State.resumeCore st fn s) := by
  unfold State.resumeCore
  with_reducible repeat' first
    | assumption
    | (extract_lets +onlyGivenNames x; clear_value x)
    | apply State.clrb_kept
    | apply State.putCore_kept
    | apply hF
    | apply Kept.ite

theorem execResume_kept {who : Who} {fn s : Nat} {st : State} (h_st : Kept kf z0 st) (hregs : ¬kf.regs)
    (hcores : ¬kf.cores) :
    KeptOut kf z0 (execResume who fn s st) := by
  unfold execResume
  with_reducible repeat' first
    | assumption
    | refine fun _ (_ : Kept _ _ _) => ?_
    | apply State.resumeCore_kept
    | apply State.slotWrite_kept
    | apply KeptOut.next

theorem State.gleanClear_kept {st : State} {fn s : Nat} (h_st : Kept kf z0 st) (hregs : ¬kf.regs)
    (hcores : ¬kf.cores) :
    Kept kf z0 (State.gleanClear st fn s) := by
  unfold State.gleanClear
  with_reducible repeat' first
    | assumption
    | apply State.setCore_kept
    | apply State.setb_kept

theorem execGleanClear_kept {who : Who} {fn s : Nat} {st : State} (h_st : Kept kf z0 st) (hregs : ¬kf.regs)
    (hcores : ¬kf.cores) :
    KeptOut kf z0 (execGleanClear who fn s st) := by
  unfold execGleanClear
  with_reducible repeat' first
    | assumption
    | refine fun _ (_ : Kept _ _ _) => ?_
    | refine fun _ _ (_ : Kept _ _ _) => ?_
    | refine fun _ _ _ (_ : Kept _ _ _) => ?_
    | apply State.gleanClear_kept
    | apply State.slotWrite_kept
    | apply Kept.ite
    | apply KeptOut.next

theorem execGleanBinRead_kept {who : Who} {fn s : Nat} {st : State} (h_st : Kept kf z0 st) (hregs : ¬kf.regs) :
    KeptOut kf z0 (execGleanBinRead who fn s st) := by
  unfold execGleanBinRead
  with_reducible repeat' first
    | assumption
    | apply State.accErr_kept
    | apply State.add_kept
    | apply State.answer_kept
    | apply KeptOut.next
    | split

theorem State.csVerdict_kept {st : State} {fn s verdict col : Nat} (h_st : Kept kf z0 st) (hregs : ¬kf.regs) :
    Kept kf z0 (State.csVerdict st fn s verdict col) := by
  unfold State.csVerdict
  with_reducible repeat' first
    | assumption
    | (extract_lets +onlyGivenNames x; clear_value x)
    | apply State.setb_kept
    | apply State.wf_kept

theorem State.diagnose_kept {st : State} {fn s : Nat} {f : Frozen} (h_st : Kept kf z0 st) (hregs : ¬kf.regs)
    (hcores : ¬kf.cores) :
    Kept kf z0 (State.diagnose st fn s f) := by
  unfold State.diagnose
  with_reducible repeat' first
    | assumption
    | refine fun _ (_ : Kept _ _ _) => ?_
    | refine fun _ _ (_ : Kept _ _ _) => ?_
    | refine fun _ _ _ (_ : Kept _ _ _) => ?_
    | (extract_lets +onlyGivenNames x; first
        | (refine Kept.cut kf z0 x ?_ (fun hx => ?_) <;> [subst x; clear_value x])
        | (refine Kept.cut kf z0 x.1 ?_ (fun hx => ?_) <;> [subst x; clear_value x])
        | (refine Kept.cut kf z0 x.2 ?_ (fun hx => ?_) <;> [subst x; clear_value x])
        | (refine Kept.cut kf z0 x.2.2 ?_ (fun hx => ?_) <;> [subst x; clear_value x])
        | (refine Kept.cutP kf z0 x ?_ (fun hF => ?_) <;> [subst x; clear_value x])
        | clear_value x)
    | apply State.coreRead_kept
    | apply State.csVerdict_kept
    | apply State.putCore_kept
    | apply State.readEscs_kept
    | apply State.wn_kept
    | apply hF
    | apply Kept.ite
    | apply Kept.foldl
    | apply Kept.foldl₁
    | apply Kept.foldl₂
    | apply Kept.foldl₂₂
    | intro _
    | dsimp only
    | fail_if_no_progress (refine Kept.upd ?_)
    | split

theorem State.csDiag_kept {st : State} {fn s : Nat} (h_st : Kept kf z0 st) (hregs : ¬kf.regs) (hcores : ¬kf.cores) :
    Kept kf z0 (State.csDiag st fn s) := by
  unfold State.csDiag
  with_reducible repeat' first
    | assumption
    | (extract_lets +onlyGivenNames x; clear_value x)
    | apply State.csVerdict_kept
    | apply State.diagnose_kept
    | apply Kept.ite
    | split

theorem execCsDiag_kept {who : Who} {fn s : Nat} {st : State} (h_st : Kept kf z0 st) (hregs : ¬kf.regs)
    (hcores : ¬kf.cores) :
    KeptOut kf z0 (execCsDiag who fn s st) := by
  unfold execCsDiag
  with_reducible repeat' first
    | assumption
    | refine fun _ (_ : Kept _ _ _) => ?_
    | apply State.csDiag_kept
    | apply State.slotWrite_kept
    | apply KeptOut.next

theorem State.csClear_kept {st : State} {fn s : Nat} (h_st : Kept kf z0 st) (hregs : ¬kf.regs) (hcores : ¬kf.cores) :
    Kept kf z0 (State.csClear st fn s) := by
  unfold State.csClear
  with_reducible repeat' first
    | assumption
    | refine fun _ _ (_ : Kept _ _ _) => ?_
    | (extract_lets +onlyGivenNames x; first
        | (refine Kept.cut kf z0 x ?_ (fun hx => ?_) <;> [subst x; clear_value x])
        | clear_value x)
    | apply State.clrb_kept
    | apply State.setCore_kept
    | apply State.wf_kept
    | apply State.wn_kept
    | apply Kept.foldl

theorem execCsClear_kept {who : Who} {fn s : Nat} {st : State} (h_st : Kept kf z0 st) (hregs : ¬kf.regs)
    (hcores : ¬kf.cores) :
    KeptOut kf z0 (execCsClear who fn s st) := by
  unfold execCsClear
  with_reducible repeat' first
    | assumption
    | refine fun _ (_ : Kept _ _ _) => ?_
    | apply State.csClear_kept
    | apply State.slotWrite_kept
    | apply KeptOut.next

theorem State.cacheEmpty_kept {st : State} {fn s : Nat} (h_st : Kept kf z0 st) (hregs : ¬kf.regs)
    (hcores : ¬kf.cores) :
    Kept kf z0 (State.cacheEmpty st fn s) := by
  unfold State.cacheEmpty
  with_reducible repeat' first
    | assumption
    | (extract_lets +onlyGivenNames x; first
        | (refine Kept.cut kf z0 x ?_ (fun hx => ?_) <;> [subst x; clear_value x])
        | clear_value x)
    | apply State.add_kept
    | apply State.setCore_kept
    | apply State.wf_kept

theorem State.cacheClean_kept {st : State} {fn s : Nat} (h_st : Kept kf z0 st) (hregs : ¬kf.regs)
    (hcores : ¬kf.cores) :
    Kept kf z0 (State.cacheClean st fn s) := by
  unfold State.cacheClean
  with_reducible repeat' first
    | assumption
    | (extract_lets +onlyGivenNames x; first
        | (refine Kept.cut kf z0 x ?_ (fun hx => ?_) <;> [subst x; clear_value x])
        | clear_value x)
    | apply State.add_kept
    | apply State.setCore_kept
    | apply State.wf_kept

theorem State.cacheDropGranule_kept {st : State} {fn s g : Nat} (h_st : Kept kf z0 st) (hregs : ¬kf.regs)
    (hcores : ¬kf.cores) :
    Kept kf z0 (State.cacheDropGranule st fn s g) := by
  unfold State.cacheDropGranule
  with_reducible repeat' first
    | assumption
    | (extract_lets +onlyGivenNames x; first
        | (refine Kept.cut kf z0 x ?_ (fun hx => ?_) <;> [subst x; clear_value x])
        | clear_value x)
    | apply State.add_kept
    | apply State.setCore_kept
    | apply State.wf_kept

theorem State.setObj_kept {st : State} {p i : Nat} {o : Obj} (h_st : Kept kf z0 st) (hregs : ¬kf.regs) :
    Kept kf z0 (State.setObj st p i o) := by
  unfold State.setObj
  with_reducible repeat' first
    | assumption
    | apply State.wn_kept

theorem State.staleObjs_kept {st : State} {p fn s a n : Nat} (h_st : Kept kf z0 st) (hregs : ¬kf.regs) :
    Kept kf z0 (State.staleObjs st p fn s a n) := by
  unfold State.staleObjs
  with_reducible repeat' first
    | assumption
    | refine fun _ _ (_ : Kept _ _ _) => ?_
    | (extract_lets +onlyGivenNames x; clear_value x)
    | apply State.setObj_kept
    | apply Kept.ite
    | apply Kept.foldl

theorem State.shareChange_kept {st : State} {fn s value : Nat} (h_st : Kept kf z0 st) (hregs : ¬kf.regs)
    (hcores : ¬kf.cores) (hmem : ¬kf.mem) :
    Kept kf z0 (State.shareChange st fn s value) := by
  unfold State.shareChange
  with_reducible repeat' first
    | assumption
    | refine fun _ (_ : Kept _ _ _) => ?_
    | refine fun _ _ (_ : Kept _ _ _) => ?_
    | refine fun _ _ _ (_ : Kept _ _ _) => ?_
    | (extract_lets +onlyGivenNames x; first
        | (refine Kept.cut kf z0 x ?_ (fun hx => ?_) <;> [subst x; clear_value x])
        | (refine Kept.cut kf z0 x.1 ?_ (fun hx => ?_) <;> [subst x; clear_value x])
        | (refine Kept.cut kf z0 x.2 ?_ (fun hx => ?_) <;> [subst x; clear_value x])
        | (refine Kept.cut kf z0 x.2.2 ?_ (fun hx => ?_) <;> [subst x; clear_value x])
        | (refine Kept.cutF kf z0 x ?_ (fun hF => ?_) <;> [subst x; clear_value x])
        | (refine Kept.cutF₁ kf z0 x ?_ (fun hF => ?_) <;> [subst x; clear_value x])
        | (refine Kept.cutF₂ kf z0 x ?_ (fun hF => ?_) <;> [subst x; clear_value x])
        | (refine Kept.cutP kf z0 x ?_ (fun hF => ?_) <;> [subst x; clear_value x])
        | (refine Kept.cutA kf z0 x ?_ (fun hF => ?_) <;> [subst x; clear_value x])
        | (have : x.fuses = x.fuses := (by rfl); clear this; subst x)
        | clear_value x)
    | apply State.cacheEmpty_kept
    | apply State.clrb_kept
    | apply State.setCore_kept
    | apply State.setb_kept
    | apply State.staleObjs_kept
    | apply State.zeroRange_kept
    | apply hF
    | apply Kept.ite
    | intro _
    | dsimp only
    | fail_if_no_progress (refine Kept.upd ?_)
    | split

theorem execCacheShareChange_kept {who : Who} {fn s value : Nat} {st : State} (h_st : Kept kf z0 st)
    (hregs : ¬kf.regs) (hcores : ¬kf.cores) (hmem : ¬kf.mem) :
    KeptOut kf z0 (execCacheShareChange who fn s value st) := by
  unfold execCacheShareChange
  with_reducible repeat' first
    | assumption
    | refine fun _ (_ : Kept _ _ _) => ?_
    | apply State.shareChange_kept
    | apply State.slotWrite_kept
    | apply KeptOut.next

theorem State.clearConf_kept {st : State} {fn s : Nat} (h_st : Kept kf z0 st) (hregs : ¬kf.regs) :
    Kept kf z0 (State.clearConf st fn s) := by
  unfold State.clearConf
  with_reducible repeat' first
    | assumption
    | refine fun _ _ (_ : Kept _ _ _) => ?_
    | (extract_lets +onlyGivenNames x; refine Kept.cut kf z0 x ?_ (fun hx => ?_) <;> [subst x; clear_value x])
    | apply State.wn_kept
    | apply Kept.foldl

theorem execClearConflicts_kept {who : Who} {fn s : Nat} {st : State} (h_st : Kept kf z0 st) (hregs : ¬kf.regs) :
    KeptOut kf z0 (execClearConflicts who fn s st) := by
  unfold execClearConflicts
  with_reducible repeat' first
    | assumption
    | refine fun _ (_ : Kept _ _ _) => ?_
    | apply State.clearConf_kept
    | apply State.slotWrite_kept
    | apply KeptOut.next

theorem State.patrolWords_kept {st : State} {fn a y0 : Nat} (h_st : Kept kf z0 st) (hregs : ¬kf.regs)
    (hcar : ¬kf.car) :
    Kept kf z0 (State.patrolWords st fn a y0) := by
  induction y0 generalizing st fn a <;> unfold State.patrolWords
  on_goal 2 => rename_i ih
  all_goals with_reducible repeat' first
    | assumption
    | (extract_lets +onlyGivenNames x; first
        | (refine Kept.cut kf z0 x ?_ (fun hx => ?_) <;> [subst x; clear_value x])
        | (refine Kept.cut kf z0 x.1 ?_ (fun hx => ?_) <;> [subst x; clear_value x]))
    | apply State.checkWords_kept
    | apply State.fault_kept
    | apply ih
    | dsimp only
    | split

end Sys2Proof.Machine
end

