-- ==== Sys2Proof/Laws/KeptMesh.lean ====
section
/-! SUPPORT. What messages, routes and the life of fields and partitions keep (see Kept.lean). -/

namespace Sys2Proof.Machine

set_option Elab.async false

set_option linter.unusedVariables false

variable {kf : Facets} {z0 : State}

theorem State.dropMsg_kept {st : State} {fn : Nat} {m : Msg} (h_st : Kept kf z0 st) (hregs : ¬kf.regs) :
    Kept kf z0 (State.dropMsg st fn m) := by
  unfold State.dropMsg
  with_reducible repeat' first
    | assumption
    | apply State.add_kept

theorem State.drainCounts_kept {st : State} (h_st : Kept kf z0 st) (hregs : ¬kf.regs) :
    Kept kf z0 (State.drainCounts st) := by
  unfold State.drainCounts
  with_reducible repeat' first
    | assumption
    | refine fun _ (_ : Kept _ _ _) => ?_
    | refine fun _ _ (_ : Kept _ _ _) => ?_
    | refine fun _ _ _ (_ : Kept _ _ _) => ?_
    | (extract_lets +onlyGivenNames x; clear_value x)
    | apply State.wf_kept
    | apply hF
    | apply Kept.ite
    | apply Kept.foldl
    | apply Kept.foldl₁
    | apply Kept.foldl₂
    | apply Kept.foldl₂₂
    | intro _
    | dsimp only
    | fail_if_no_progress (refine Kept.upd ?_)
    | split

theorem State.countFlits_kept {st : State} {fn p n : Nat} (h_st : Kept kf z0 st) (hregs : ¬kf.regs) :
    Kept kf z0 (State.countFlits st fn p n) := by
  unfold State.countFlits
  with_reducible repeat' first
    | assumption
    | apply State.add_kept
    | apply Kept.ite

theorem State.drawIn_kept {st : State} {y0 : List Span} (h_st : Kept kf z0 st) (hregs : ¬kf.regs) :
    Kept kf z0 (State.drawIn st y0) := by
  fun_induction State.drawIn st y0 with
  | case1 st a b t ih => exact ih (State.countFlits_kept h_st hregs)
  | case2 => exact h_st

theorem State.leaveMesh_kept {st : State} {i : Nat} (h_st : Kept kf z0 st) (hmesh : ¬kf.mesh) :
    Kept kf z0 (State.leaveMesh st i) := by
  unfold State.leaveMesh
  with_reducible repeat' first
    | assumption
    | apply Kept.ite
    | dsimp only
    | fail_if_no_progress (refine Kept.upd ?_)

theorem State.discard_kept {st : State} {i : Nat} {f : Flight} (h_st : Kept kf z0 st) (hregs : ¬kf.regs)
    (hmesh : ¬kf.mesh) :
    Kept kf z0 (State.discard st i f) := by
  unfold State.discard
  with_reducible repeat' first
    | assumption
    | apply State.drawIn_kept
    | apply State.dropMsg_kept
    | apply State.leaveMesh_kept

theorem State.dropFlits_kept {st : State} {f : Flight} {off : Nat} (h_st : Kept kf z0 st) (hregs : ¬kf.regs) :
    Kept kf z0 (State.dropFlits st f off) := by
  unfold State.dropFlits
  with_reducible repeat' first
    | assumption
    | refine fun _ (_ : Kept _ _ _) => ?_
    | refine fun _ _ (_ : Kept _ _ _) => ?_
    | refine fun _ _ _ (_ : Kept _ _ _) => ?_
    | apply State.add_kept
    | apply Kept.ite
    | apply Kept.foldl

theorem State.pull_kept {st : State} {m : Msg} {y0 : Nat} {y1 : Span} {y2 : List Span} (h_st : Kept kf z0 st)
    (hregs : ¬kf.regs) :
    Kept kf z0 (State.pull st m y0 y1 y2).1 := by
  induction y2 generalizing st y0 y1 with
  | nil => simpa only [State.pull] using h_st
  | cons b t ih =>
    simp only [State.pull]
    exact ih (State.countFlits_kept h_st hregs)

theorem State.closeUp_kept {st : State} {i : Nat} {f : Flight} (h_st : Kept kf z0 st) (hregs : ¬kf.regs)
    (hmesh : ¬kf.mesh) :
    Kept kf z0 (State.closeUp st i f) := by
  unfold State.closeUp
  with_reducible repeat' first
    | assumption
    | (extract_lets +onlyGivenNames x; first
        | (refine Kept.cut kf z0 x ?_ (fun hx => ?_) <;> [subst x; clear_value x])
        | (refine Kept.cut kf z0 x.1 ?_ (fun hx => ?_) <;> [subst x; clear_value x])
        | clear_value x)
    | apply State.pull_kept
    | apply hF
    | apply Kept.ite
    | intro _
    | dsimp only
    | fail_if_no_progress (refine Kept.upd ?_)

theorem State.eject_kept {st : State} {i : Nat} {f : Flight} (h_st : Kept kf z0 st) (hregs : ¬kf.regs)
    (hmesh : ¬kf.mesh) :
    Kept kf z0 (State.eject st i f) := by
  unfold State.eject
  with_reducible repeat' first
    | assumption
    | (extract_lets +onlyGivenNames x; first
        | (refine Kept.cut kf z0 x ?_ (fun hx => ?_) <;> [subst x; clear_value x])
        | clear_value x)
    | apply State.add_kept
    | apply State.closeUp_kept
    | apply State.drawIn_kept
    | apply State.leaveMesh_kept
    | apply hF
    | apply Kept.ite
    | intro _
    | dsimp only
    | fail_if_no_progress (refine Kept.upd ?_)

theorem State.cross_kept {st : State} {i : Nat} {f : Flight} {b : Span} (h_st : Kept kf z0 st)
    (hregs : ¬kf.regs) (hmesh : ¬kf.mesh) :
    Kept kf z0 (State.cross st i f b) := by
  unfold State.cross
  with_reducible repeat' first
    | assumption
    | (extract_lets +onlyGivenNames x; first
        | (refine Kept.cut kf z0 x ?_ (fun hx => ?_) <;> [subst x; clear_value x])
        | (refine Kept.cut kf z0 x.1 ?_ (fun hx => ?_) <;> [subst x; clear_value x])
        | clear_value x)
    | apply State.countFlits_kept
    | apply State.leaveMesh_kept
    | apply State.pull_kept
    | apply hF
    | apply Kept.ite
    | intro _
    | dsimp only
    | fail_if_no_progress (refine Kept.upd ?_)

theorem State.forwardHead_kept {st : State} {i : Nat} {f : Flight} {p : Nat} (h_st : Kept kf z0 st)
    (hregs : ¬kf.regs) (hmesh : ¬kf.mesh) :
    Kept kf z0 (State.forwardHead st i f p) := by
  unfold State.forwardHead
  with_reducible repeat' first
    | assumption
    | (extract_lets +onlyGivenNames x; clear_value x)
    | apply State.closeUp_kept
    | apply State.countFlits_kept
    | apply State.cross_kept
    | apply State.discard_kept
    | apply State.drawIn_kept
    | apply State.dropMsg_kept
    | apply State.leaveMesh_kept
    | apply hF
    | apply Kept.ite
    | intro _
    | dsimp only
    | fail_if_no_progress (refine Kept.upd ?_)
    | split

theorem execMessageRoute_kept {i : Nat} {st : State} (h_st : Kept kf z0 st) (hregs : ¬kf.regs)
    (hmesh : ¬kf.mesh) :
    KeptOut kf z0 (execMessageRoute i st) := by
  unfold execMessageRoute
  with_reducible repeat' first
    | assumption
    | (extract_lets +onlyGivenNames x; clear_value x)
    | apply State.discard_kept
    | apply State.drainCounts_kept
    | apply State.dropFlits_kept
    | apply State.eject_kept
    | apply State.forwardHead_kept
    | apply State.leaveMesh_kept
    | apply hF
    | apply Kept.ite
    | apply KeptOut.next
    | apply KeptOut.ite
    | intro _
    | dsimp only
    | fail_if_no_progress (refine Kept.upd ?_)
    | split

theorem execLinkReplay_kept {fn port : Nat} {st : State} (h_st : Kept kf z0 st) (hregs : ¬kf.regs) :
    KeptOut kf z0 (execLinkReplay fn port st) := by
  unfold execLinkReplay
  with_reducible repeat' first
    | assumption
    | refine fun _ (_ : Kept _ _ _) => ?_
    | apply State.add_kept
    | apply State.when_kept
    | apply KeptOut.next

theorem State.pushSettle_kept {st : State} {fn s num : Nat} (h_st : Kept kf z0 st) (hregs : ¬kf.regs)
    (hcores : ¬kf.cores) :
    Kept kf z0 (State.pushSettle st fn s num) := by
  unfold State.pushSettle
  with_reducible repeat' first
    | assumption
    | refine fun _ (_ : Kept _ _ _) => ?_
    | refine fun _ _ (_ : Kept _ _ _) => ?_
    | refine fun _ _ _ (_ : Kept _ _ _) => ?_
    | (extract_lets +onlyGivenNames x; clear_value x)
    | apply State.putCore_kept

theorem State.pushRefuse_kept {st : State} {fn s num status detail : Nat} (h_st : Kept kf z0 st)
    (hregs : ¬kf.regs) (hcores : ¬kf.cores) :
    Kept kf z0 (State.pushRefuse st fn s num status detail) := by
  unfold State.pushRefuse
  with_reducible repeat' first
    | assumption
    | refine fun _ (_ : Kept _ _ _) => ?_
    | refine fun _ _ (_ : Kept _ _ _) => ?_
    | refine fun _ _ _ (_ : Kept _ _ _) => ?_
    | (extract_lets +onlyGivenNames x; clear_value x)
    | apply State.pushSettle_kept
    | apply State.setCore_kept

theorem State.snpSignal_kept {st : State} {port r k : Nat} (h_st : Kept kf z0 st) (hmesh : ¬kf.mesh) :
    Kept kf z0 (State.snpSignal st port r k) := by
  unfold State.snpSignal
  with_reducible repeat' first
    | assumption
    | (extract_lets +onlyGivenNames x; first
        | (refine Kept.cut kf z0 x ?_ (fun hx => ?_) <;> [subst x; clear_value x])
        | clear_value x)
    | apply State.send_kept
    | apply State.track_kept
    | apply Kept.ite

theorem State.snpSettle_kept {st : State} {port r : Nat} (h_st : Kept kf z0 st) (hmesh : ¬kf.mesh)
    (hsnp : ¬kf.snp) :
    Kept kf z0 (State.snpSettle st port r) := by
  unfold State.snpSettle
  with_reducible repeat' first
    | assumption
    | refine fun _ (_ : Kept _ _ _) => ?_
    | refine fun _ _ (_ : Kept _ _ _) => ?_
    | refine fun _ _ _ (_ : Kept _ _ _) => ?_
    | (extract_lets +onlyGivenNames x; first
        | (refine Kept.cut kf z0 x ?_ (fun hx => ?_) <;> [subst x; clear_value x])
        | (refine Kept.cut kf z0 x.1 ?_ (fun hx => ?_) <;> [subst x; clear_value x])
        | (refine Kept.cut kf z0 x.2 ?_ (fun hx => ?_) <;> [subst x; clear_value x])
        | (refine Kept.cut kf z0 x.2.2 ?_ (fun hx => ?_) <;> [subst x; clear_value x])
        | (refine Kept.cutF kf z0 x ?_ (fun hF => ?_) <;> [subst x; clear_value x])
        | (refine Kept.cutF₁ kf z0 x ?_ (fun hF => ?_) <;> [subst x; clear_value x])
        | (refine Kept.cutF₂ kf z0 x ?_ (fun hF => ?_) <;> [subst x; clear_value x])
        | (refine Kept.cutP kf z0 x ?_ (fun hF => ?_) <;> [subst x; clear_value x])
        | (refine Kept.cutA kf z0 x ?_ (fun hF => ?_) <;> [subst x; clear_value x])
        | (have : x.fuses = x.fuses := (by rfl); clear this; subst x)
        | clear_value x)
    | apply State.setSnp_kept
    | apply State.snpSignal_kept
    | apply hF
    | apply Kept.ite
    | apply Kept.foldl
    | apply Kept.foldl₁
    | apply Kept.foldl₂
    | apply Kept.foldl₂₂
    | intro _
    | dsimp only
    | fail_if_no_progress (refine Kept.upd ?_)
    | split

theorem State.snpAnswer_kept {st : State} {port r k : Nat} {bad : Bool} (h_st : Kept kf z0 st) (hmesh : ¬kf.mesh)
    (hsnp : ¬kf.snp) :
    Kept kf z0 (State.snpAnswer st port r k bad) := by
  unfold State.snpAnswer
  with_reducible repeat' first
    | assumption
    | (extract_lets +onlyGivenNames x; clear_value x)
    | apply State.setSnp_kept
    | apply State.snpSettle_kept

theorem State.copyRefused_kept {st : State} {fn s num reason : Nat} (h_st : Kept kf z0 st) :
    Kept kf z0 (State.copyRefused st fn s num reason) := by
  unfold State.copyRefused
  with_reducible repeat' first
    | assumption
    | apply State.modItem_kept
    | split

theorem State.bar2Refused_kept {st : State} {n dst status : Nat} (h_st : Kept kf z0 st) (hregs : ¬kf.regs) :
    Kept kf z0 (State.bar2Refused st n dst status) := by
  unfold State.bar2Refused
  with_reducible repeat' first
    | assumption
    | (extract_lets +onlyGivenNames x; clear_value x)
    | apply State.accErrAt_kept
    | apply State.addSat_kept
    | apply Kept.ite

theorem State.jobDone_kept {st : State} {x : Sent} {res : Option Nat} {units : Nat} (h_st : Kept kf z0 st)
    (hregs : ¬kf.regs) (hmesh : ¬kf.mesh) (hcores : ¬kf.cores) (hkvl : ¬kf.kvl) (hleases : ¬kf.leases)
    (hsnp : ¬kf.snp) :
    Kept kf z0 (State.jobDone st x res units) := by
  unfold State.jobDone
  with_reducible repeat' first
    | assumption
    | refine fun _ (_ : Kept _ _ _) => ?_
    | refine fun _ _ (_ : Kept _ _ _) => ?_
    | refine fun _ _ _ (_ : Kept _ _ _) => ?_
    | (extract_lets +onlyGivenNames x; clear_value x)
    | apply State.bar2Refused_kept
    | apply State.copyRefused_kept
    | apply State.endItem_kept
    | apply State.fetchAnswer_kept
    | apply State.kvlQueue_kept
    | apply State.kvlUnhold_kept
    | apply State.pushRefuse_kept
    | apply State.pushSettle_kept
    | apply State.setCore_kept
    | apply State.setWindow_kept
    | apply State.settleWindow_kept
    | apply State.snpAnswer_kept
    | apply hF
    | apply Kept.ite
    | intro _
    | dsimp only
    | fail_if_no_progress (refine Kept.upd ?_)
    | split

theorem State.dropSent_kept {st : State} {tag : Nat} (h_st : Kept kf z0 st) (hmesh : ¬kf.mesh) :
    Kept kf z0 (State.dropSent st tag) := by
  unfold State.dropSent
  with_reducible repeat' first
    | assumption
    | (extract_lets +onlyGivenNames x; clear_value x)
    | fail_if_no_progress (refine Kept.upd ?_)

theorem State.returnUnits_kept {st : State} {x : Sent} {units : Nat} (h_st : Kept kf z0 st) (hregs : ¬kf.regs)
    (hmesh : ¬kf.mesh) :
    Kept kf z0 (State.returnUnits st x units) := by
  unfold State.returnUnits
  with_reducible repeat' first
    | assumption
    | (extract_lets +onlyGivenNames x; first
        | (refine Kept.cut kf z0 x ?_ (fun hx => ?_) <;> [subst x; clear_value x])
        | (refine Kept.cut kf z0 x.1 ?_ (fun hx => ?_) <;> [subst x; clear_value x])
        | (refine Kept.cut kf z0 x.2 ?_ (fun hx => ?_) <;> [subst x; clear_value x])
        | (refine Kept.cut kf z0 x.2.2 ?_ (fun hx => ?_) <;> [subst x; clear_value x])
        | (refine Kept.cutF kf z0 x ?_ (fun hF => ?_) <;> [subst x; clear_value x])
        | (refine Kept.cutF₁ kf z0 x ?_ (fun hF => ?_) <;> [subst x; clear_value x])
        | (refine Kept.cutF₂ kf z0 x ?_ (fun hF => ?_) <;> [subst x; clear_value x])
        | (refine Kept.cutP kf z0 x ?_ (fun hF => ?_) <;> [subst x; clear_value x])
        | (refine Kept.cutA kf z0 x ?_ (fun hF => ?_) <;> [subst x; clear_value x])
        | (have : x.fuses = x.fuses := (by rfl); clear this; subst x)
        | clear_value x)
    | apply State.setGrant_kept
    | apply hF
    | apply Kept.ite
    | intro _
    | dsimp only
    | fail_if_no_progress (refine Kept.upd ?_)
    | split

theorem State.kvlAnswer_kept {st : State} {p : Nat} {m : Msg} (h_st : Kept kf z0 st) (hmesh : ¬kf.mesh)
    (hkvl : ¬kf.kvl) :
    Kept kf z0 (State.kvlAnswer st p m) := by
  unfold State.kvlAnswer
  with_reducible repeat' first
    | assumption
    | (extract_lets +onlyGivenNames x; first
        | (refine Kept.cut kf z0 x ?_ (fun hx => ?_) <;> [subst x; clear_value x])
        | (refine Kept.cut kf z0 x.1 ?_ (fun hx => ?_) <;> [subst x; clear_value x])
        | (refine Kept.cut kf z0 x.2 ?_ (fun hx => ?_) <;> [subst x; clear_value x])
        | (refine Kept.cut kf z0 x.2.2 ?_ (fun hx => ?_) <;> [subst x; clear_value x])
        | (refine Kept.cutF kf z0 x ?_ (fun hF => ?_) <;> [subst x; clear_value x])
        | (refine Kept.cutF₁ kf z0 x ?_ (fun hF => ?_) <;> [subst x; clear_value x])
        | (refine Kept.cutF₂ kf z0 x ?_ (fun hF => ?_) <;> [subst x; clear_value x])
        | (refine Kept.cutP kf z0 x ?_ (fun hF => ?_) <;> [subst x; clear_value x])
        | (refine Kept.cutA kf z0 x ?_ (fun hF => ?_) <;> [subst x; clear_value x])
        | (have : x.fuses = x.fuses := (by rfl); clear this; subst x)
        | clear_value x)
    | apply State.rgrantSettle_kept
    | apply State.send_kept
    | apply State.setKvl_kept
    | apply State.setRgrant_kept
    | apply hF
    | apply Kept.ite
    | intro _
    | dsimp only
    | fail_if_no_progress (refine Kept.upd ?_)
    | split

theorem State.answered_kept {st : State} {m : Msg} {bad : Bool} (h_st : Kept kf z0 st) (hregs : ¬kf.regs)
    (hmesh : ¬kf.mesh) (hcores : ¬kf.cores) (hkvl : ¬kf.kvl) (hleases : ¬kf.leases) (hsnp : ¬kf.snp) :
    Kept kf z0 (State.answered st m bad) := by
  unfold State.answered
  with_reducible repeat' first
    | assumption
    | (extract_lets +onlyGivenNames x; first
        | (refine Kept.cut kf z0 x ?_ (fun hx => ?_) <;> [subst x; clear_value x])
        | (refine Kept.cut kf z0 x.1 ?_ (fun hx => ?_) <;> [subst x; clear_value x])
        | (refine Kept.cut kf z0 x.2 ?_ (fun hx => ?_) <;> [subst x; clear_value x])
        | (refine Kept.cut kf z0 x.2.2 ?_ (fun hx => ?_) <;> [subst x; clear_value x])
        | (refine Kept.cutF kf z0 x ?_ (fun hF => ?_) <;> [subst x; clear_value x])
        | (refine Kept.cutF₁ kf z0 x ?_ (fun hF => ?_) <;> [subst x; clear_value x])
        | (refine Kept.cutF₂ kf z0 x ?_ (fun hF => ?_) <;> [subst x; clear_value x])
        | (refine Kept.cutP kf z0 x ?_ (fun hF => ?_) <;> [subst x; clear_value x])
        | (refine Kept.cutA kf z0 x ?_ (fun hF => ?_) <;> [subst x; clear_value x])
        | (have : x.fuses = x.fuses := (by rfl); clear this; subst x)
        | clear_value x)
    | apply State.dropSent_kept
    | apply State.endUse_kept
    | apply State.jobDone_kept
    | apply State.returnUnits_kept
    | apply State.setGrant_kept
    | apply State.setRgrant_kept
    | apply hF
    | apply Kept.ite
    | intro _
    | dsimp only
    | fail_if_no_progress (refine Kept.upd ?_)
    | split

theorem State.onArrived_kept {st : State} {m : Msg} {f : State → State} (h_st : Kept kf z0 st)
    (h_f : ∀ v0, Kept kf z0 v0 → Kept kf z0 (f v0)) (hmesh : ¬kf.mesh) :
    KeptOut kf z0 (State.onArrived st m f) := by
  unfold State.onArrived
  with_reducible repeat' first
    | assumption
    | refine fun _ (_ : Kept _ _ _) => ?_
    | refine fun _ _ (_ : Kept _ _ _) => ?_
    | refine fun _ _ _ (_ : Kept _ _ _) => ?_
    | apply State.takeArrived_kept
    | apply State.when_kept
    | apply h_f
    | apply Kept.ite
    | apply KeptOut.next

theorem execAck_kept {m : Msg} {st : State} (h_st : Kept kf z0 st) (hregs : ¬kf.regs) (hmesh : ¬kf.mesh)
    (hcores : ¬kf.cores) (hkvl : ¬kf.kvl) (hleases : ¬kf.leases) (hsnp : ¬kf.snp) :
    KeptOut kf z0 (execAck m st) := by
  unfold execAck
  with_reducible repeat' first
    | assumption
    | refine fun _ (_ : Kept _ _ _) => ?_
    | apply State.answered_kept
    | apply State.onArrived_kept
    | apply State.snpPumpAll_kept
    | apply KeptOut.next
    | apply KeptOut.ite

theorem State.depositReply_kept {st : State} {fn unit : Nat} {m : Msg} {kind status units : Nat}
    (h_st : Kept kf z0 st) (hmesh : ¬kf.mesh) :
    Kept kf z0 (State.depositReply st fn unit m kind status units) := by
  unfold State.depositReply
  with_reducible repeat' first
    | assumption
    | apply State.send_kept

theorem State.depositAt_kept {st : State} {fn slot : Nat} {m : Msg} (h_st : Kept kf z0 st) (hregs : ¬kf.regs)
    (hmesh : ¬kf.mesh) (hcores : ¬kf.cores) (hmem : ¬kf.mem) (hsnp : ¬kf.snp) :
    Kept kf z0 (State.depositAt st fn slot m) := by
  unfold State.depositAt
  with_reducible repeat' first
    | assumption
    | refine fun _ (_ : Kept _ _ _) => ?_
    | refine fun _ _ (_ : Kept _ _ _) => ?_
    | refine fun _ _ _ (_ : Kept _ _ _) => ?_
    | (extract_lets +onlyGivenNames x; first
        | (refine Kept.cut kf z0 x ?_ (fun hx => ?_) <;> [subst x; clear_value x])
        | (refine Kept.cut kf z0 x.1 ?_ (fun hx => ?_) <;> [subst x; clear_value x])
        | (refine Kept.cut kf z0 x.2 ?_ (fun hx => ?_) <;> [subst x; clear_value x])
        | (refine Kept.cut kf z0 x.2.2 ?_ (fun hx => ?_) <;> [subst x; clear_value x])
        | (refine Kept.cutF kf z0 x ?_ (fun hF => ?_) <;> [subst x; clear_value x])
        | (refine Kept.cutF₁ kf z0 x ?_ (fun hF => ?_) <;> [subst x; clear_value x])
        | (refine Kept.cutF₂ kf z0 x ?_ (fun hF => ?_) <;> [subst x; clear_value x])
        | (refine Kept.cutP kf z0 x ?_ (fun hF => ?_) <;> [subst x; clear_value x])
        | (refine Kept.cutA kf z0 x ?_ (fun hF => ?_) <;> [subst x; clear_value x])
        | (have : x.fuses = x.fuses := (by rfl); clear this; subst x)
        | clear_value x)
    | apply State.add_kept
    | apply State.addSat_kept
    | apply State.cacheTouch_kept
    | apply State.depositReply_kept
    | apply State.setWindow_kept
    | apply State.snpArrive_kept
    | apply State.store_kept
    | apply hF
    | apply Kept.ite
    | apply Kept.foldl
    | apply Kept.foldl₁
    | apply Kept.foldl₂
    | apply Kept.foldl₂₂
    | intro _
    | dsimp only
    | fail_if_no_progress (refine Kept.upd ?_)
    | split

theorem State.depositCopy_kept {st : State} {m : Msg} (h_st : Kept kf z0 st) (hregs : ¬kf.regs)
    (hmesh : ¬kf.mesh) :
    Kept kf z0 (State.depositCopy st m) := by
  unfold State.depositCopy
  with_reducible repeat' first
    | assumption
    | (extract_lets +onlyGivenNames x; clear_value x)
    | apply State.depositReply_kept
    | apply State.dmaWrite_kept
    | apply hF
    | apply Kept.ite
    | intro _
    | dsimp only
    | fail_if_no_progress (refine Kept.upd ?_)
    | split

theorem State.depositRemote_kept {st : State} {p : Nat} {m : Msg} (h_st : Kept kf z0 st) (hregs : ¬kf.regs)
    (hmesh : ¬kf.mesh) (hkvl : ¬kf.kvl) :
    Kept kf z0 (State.depositRemote st p m) := by
  unfold State.depositRemote
  with_reducible repeat' first
    | assumption
    | (extract_lets +onlyGivenNames x; clear_value x)
    | apply State.depositReply_kept
    | apply State.kvlAddTag_kept
    | apply State.kvlQueue_kept
    | apply State.setRgrant_kept
    | dsimp only
    | split

theorem execDeposit_kept {m : Msg} {st : State} (h_st : Kept kf z0 st) (hregs : ¬kf.regs) (hmesh : ¬kf.mesh)
    (hcores : ¬kf.cores) (hkvl : ¬kf.kvl) (hmem : ¬kf.mem) (hsnp : ¬kf.snp) :
    KeptOut kf z0 (execDeposit m st) := by
  unfold execDeposit
  with_reducible repeat' first
    | assumption
    | refine fun _ (_ : Kept _ _ _) => ?_
    | (extract_lets +onlyGivenNames x; clear_value x)
    | apply State.depositAt_kept
    | apply State.depositCopy_kept
    | apply State.depositRemote_kept
    | apply State.depositReply_kept
    | apply State.onArrived_kept
    | apply Kept.ite
    | apply KeptOut.next
    | apply KeptOut.ite

theorem State.grantToPeer_kept {st : State} {p : Nat} {m : Msg} (h_st : Kept kf z0 st) (hregs : ¬kf.regs)
    (hmesh : ¬kf.mesh) (hcores : ¬kf.cores) (hkvl : ¬kf.kvl) (hleases : ¬kf.leases) (hsnp : ¬kf.snp) :
    Kept kf z0 (State.grantToPeer st p m) := by
  unfold State.grantToPeer
  with_reducible repeat' first
    | assumption
    | refine fun _ (_ : Kept _ _ _) => ?_
    | refine fun _ _ (_ : Kept _ _ _) => ?_
    | refine fun _ _ _ (_ : Kept _ _ _) => ?_
    | (extract_lets +onlyGivenNames x; first
        | (refine Kept.cut kf z0 x ?_ (fun hx => ?_) <;> [subst x; clear_value x])
        | (refine Kept.cut kf z0 x.1 ?_ (fun hx => ?_) <;> [subst x; clear_value x])
        | (refine Kept.cut kf z0 x.2 ?_ (fun hx => ?_) <;> [subst x; clear_value x])
        | (refine Kept.cut kf z0 x.2.2 ?_ (fun hx => ?_) <;> [subst x; clear_value x])
        | (refine Kept.cutF kf z0 x ?_ (fun hF => ?_) <;> [subst x; clear_value x])
        | (refine Kept.cutF₁ kf z0 x ?_ (fun hF => ?_) <;> [subst x; clear_value x])
        | (refine Kept.cutF₂ kf z0 x ?_ (fun hF => ?_) <;> [subst x; clear_value x])
        | (refine Kept.cutP kf z0 x ?_ (fun hF => ?_) <;> [subst x; clear_value x])
        | (refine Kept.cutA kf z0 x ?_ (fun hF => ?_) <;> [subst x; clear_value x])
        | (have : x.fuses = x.fuses := (by rfl); clear this; subst x)
        | clear_value x)
    | apply State.jobDone_kept
    | apply State.kvlQueue_kept
    | apply State.setKvl_kept
    | apply hF
    | apply Kept.ite
    | intro _
    | dsimp only
    | fail_if_no_progress (refine Kept.upd ?_)
    | split

theorem execGrant_kept {m : Msg} {st : State} (h_st : Kept kf z0 st) (hregs : ¬kf.regs) (hmesh : ¬kf.mesh)
    (hcores : ¬kf.cores) (hkvl : ¬kf.kvl) (hleases : ¬kf.leases) (hsnp : ¬kf.snp) :
    KeptOut kf z0 (execGrant m st) := by
  unfold execGrant
  with_reducible repeat' first
    | assumption
    | refine fun _ (_ : Kept _ _ _) => ?_
    | refine fun _ _ (_ : Kept _ _ _) => ?_
    | refine fun _ _ _ (_ : Kept _ _ _) => ?_
    | (extract_lets +onlyGivenNames x; first
        | (refine Kept.cut kf z0 x ?_ (fun hx => ?_) <;> [subst x; clear_value x])
        | (refine Kept.cut kf z0 x.1 ?_ (fun hx => ?_) <;> [subst x; clear_value x])
        | (refine Kept.cut kf z0 x.2 ?_ (fun hx => ?_) <;> [subst x; clear_value x])
        | (refine Kept.cut kf z0 x.2.2 ?_ (fun hx => ?_) <;> [subst x; clear_value x])
        | (refine Kept.cutF kf z0 x ?_ (fun hF => ?_) <;> [subst x; clear_value x])
        | (refine Kept.cutF₁ kf z0 x ?_ (fun hF => ?_) <;> [subst x; clear_value x])
        | (refine Kept.cutF₂ kf z0 x ?_ (fun hF => ?_) <;> [subst x; clear_value x])
        | (refine Kept.cutP kf z0 x ?_ (fun hF => ?_) <;> [subst x; clear_value x])
        | (refine Kept.cutA kf z0 x ?_ (fun hF => ?_) <;> [subst x; clear_value x])
        | (have : x.fuses = x.fuses := (by rfl); clear this; subst x)
        | clear_value x)
    | apply State.dropSent_kept
    | apply State.grantToPeer_kept
    | apply State.jobDone_kept
    | apply State.nakTo_kept
    | apply State.onArrived_kept
    | apply State.setGrant_kept
    | apply State.setb_kept
    | apply hF
    | apply Kept.ite
    | apply KeptOut.next
    | apply KeptOut.ite
    | intro _
    | dsimp only
    | fail_if_no_progress (refine Kept.upd ?_)
    | split

theorem State.closeToPeer_kept {st : State} {p : Nat} {m : Msg} (h_st : Kept kf z0 st) (hregs : ¬kf.regs)
    (hmesh : ¬kf.mesh) (hkvl : ¬kf.kvl) :
    Kept kf z0 (State.closeToPeer st p m) := by
  unfold State.closeToPeer
  with_reducible repeat' first
    | assumption
    | refine fun _ (_ : Kept _ _ _) => ?_
    | refine fun _ _ (_ : Kept _ _ _) => ?_
    | refine fun _ _ _ (_ : Kept _ _ _) => ?_
    | (extract_lets +onlyGivenNames x; first
        | (refine Kept.cut kf z0 x ?_ (fun hx => ?_) <;> [subst x; clear_value x])
        | (refine Kept.cut kf z0 x.1 ?_ (fun hx => ?_) <;> [subst x; clear_value x])
        | (refine Kept.cut kf z0 x.2 ?_ (fun hx => ?_) <;> [subst x; clear_value x])
        | (refine Kept.cut kf z0 x.2.2 ?_ (fun hx => ?_) <;> [subst x; clear_value x])
        | (refine Kept.cutF kf z0 x ?_ (fun hF => ?_) <;> [subst x; clear_value x])
        | (refine Kept.cutF₁ kf z0 x ?_ (fun hF => ?_) <;> [subst x; clear_value x])
        | (refine Kept.cutF₂ kf z0 x ?_ (fun hF => ?_) <;> [subst x; clear_value x])
        | (refine Kept.cutP kf z0 x ?_ (fun hF => ?_) <;> [subst x; clear_value x])
        | (refine Kept.cutA kf z0 x ?_ (fun hF => ?_) <;> [subst x; clear_value x])
        | (have : x.fuses = x.fuses := (by rfl); clear this; subst x)
        | clear_value x)
    | apply State.dropSent_kept
    | apply State.kvlQueue_kept
    | apply State.setKvl_kept
    | apply hF
    | apply Kept.ite
    | apply Kept.foldl
    | apply Kept.foldl₁
    | apply Kept.foldl₂
    | apply Kept.foldl₂₂
    | intro _
    | dsimp only
    | fail_if_no_progress (refine Kept.upd ?_)
    | split

theorem execClose_kept {m : Msg} {st : State} (h_st : Kept kf z0 st) (hregs : ¬kf.regs) (hmesh : ¬kf.mesh)
    (hkvl : ¬kf.kvl) (hleases : ¬kf.leases) :
    KeptOut kf z0 (execClose m st) := by
  unfold execClose
  with_reducible repeat' first
    | assumption
    | refine fun _ (_ : Kept _ _ _) => ?_
    | refine fun _ _ (_ : Kept _ _ _) => ?_
    | refine fun _ _ _ (_ : Kept _ _ _) => ?_
    | apply State.closeToPeer_kept
    | apply State.dmaPump_kept
    | apply State.onArrived_kept
    | apply State.setGrant_kept
    | apply Kept.ite
    | apply KeptOut.next
    | apply KeptOut.ite
    | apply Kept.foldl
    | apply Kept.foldl₁
    | apply Kept.foldl₂
    | apply Kept.foldl₂₂
    | dsimp only
    | fail_if_no_progress (refine Kept.upd ?_)
    | split

theorem execScrip_kept {m : Msg} {st : State} (h_st : Kept kf z0 st) (hregs : ¬kf.regs) (hmesh : ¬kf.mesh)
    (hkvl : ¬kf.kvl) (hleases : ¬kf.leases) (hsnp : ¬kf.snp) :
    KeptOut kf z0 (execScrip m st) := by
  unfold execScrip
  with_reducible repeat' first
    | assumption
    | refine fun _ (_ : Kept _ _ _) => ?_
    | refine fun _ _ (_ : Kept _ _ _) => ?_
    | apply State.dmaPump_kept
    | apply State.kvlQueue_kept
    | apply State.onArrived_kept
    | apply State.setGrant_kept
    | apply State.snpPumpAll_kept
    | apply Kept.ite
    | apply KeptOut.next
    | apply KeptOut.ite
    | apply Kept.foldl
    | dsimp only
    | split

theorem execPushMessage_kept {fn s : Nat} {st : State} (h_st : Kept kf z0 st) (hregs : ¬kf.regs)
    (hmesh : ¬kf.mesh) (hcores : ¬kf.cores) (hleases : ¬kf.leases) :
    KeptOut kf z0 (execPushMessage fn s st) := by
  unfold execPushMessage
  with_reducible repeat' first
    | assumption
    | refine fun _ (_ : Kept _ _ _) => ?_
    | refine fun _ _ (_ : Kept _ _ _) => ?_
    | refine fun _ _ _ (_ : Kept _ _ _) => ?_
    | (extract_lets +onlyGivenNames x; first
        | (refine Kept.cut kf z0 x ?_ (fun hx => ?_) <;> [subst x; clear_value x])
        | (refine Kept.cut kf z0 x.1 ?_ (fun hx => ?_) <;> [subst x; clear_value x])
        | (refine Kept.cut kf z0 x.2 ?_ (fun hx => ?_) <;> [subst x; clear_value x])
        | (refine Kept.cut kf z0 x.2.2 ?_ (fun hx => ?_) <;> [subst x; clear_value x])
        | (refine Kept.cutF kf z0 x ?_ (fun hF => ?_) <;> [subst x; clear_value x])
        | (refine Kept.cutF₁ kf z0 x ?_ (fun hF => ?_) <;> [subst x; clear_value x])
        | (refine Kept.cutF₂ kf z0 x ?_ (fun hF => ?_) <;> [subst x; clear_value x])
        | (refine Kept.cutP kf z0 x ?_ (fun hF => ?_) <;> [subst x; clear_value x])
        | (refine Kept.cutA kf z0 x ?_ (fun hF => ?_) <;> [subst x; clear_value x])
        | (have : x.fuses = x.fuses := (by rfl); clear this; subst x)
        | clear_value x)
    | apply State.coreRead_kept
    | apply State.pushRefuse_kept
    | apply State.pushSettle_kept
    | apply State.putCore_kept
    | apply State.sendDeposit_kept
    | apply hF
    | apply Kept.ite
    | apply KeptOut.next
    | apply KeptOut.ite
    | intro _
    | dsimp only
    | fail_if_no_progress (refine Kept.upd ?_)
    | split

theorem State.setBank_kept {st : State} {bank : Nat} {r : RouteSet} (h_st : Kept kf z0 st) (hmesh : ¬kf.mesh) :
    Kept kf z0 (State.setBank st bank r) := by
  unfold State.setBank
  with_reducible repeat' first
    | assumption
    | (extract_lets +onlyGivenNames x; clear_value x)
    | fail_if_no_progress (refine Kept.upd ?_)

theorem State.loadRoutes_kept {st : State} {fn : Nat} (h_st : Kept kf z0 st) (hregs : ¬kf.regs)
    (hfields : ¬kf.fields) :
    Kept kf z0 (State.loadRoutes st fn) := by
  unfold State.loadRoutes
  with_reducible repeat' first
    | assumption
    | (extract_lets +onlyGivenNames x; first
        | (refine Kept.cut kf z0 x ?_ (fun hx => ?_) <;> [subst x; clear_value x])
        | clear_value x)
    | apply State.setField_kept
    | apply State.setb_kept
    | apply State.wf_kept
    | apply Kept.ite

theorem State.grantTransit_kept {st : State} {bank p : Nat} (h_st : Kept kf z0 st) (hregs : ¬kf.regs)
    (hleases : ¬kf.leases) :
    Kept kf z0 (State.grantTransit st bank p) := by
  unfold State.grantTransit
  with_reducible repeat' first
    | assumption
    | refine fun _ _ (_ : Kept _ _ _) => ?_
    | (extract_lets +onlyGivenNames x; clear_value x)
    | apply State.grantLease_kept
    | apply Kept.ite
    | apply Kept.foldl

theorem State.portMode_kept {st : State} {fn p : Nat} (h_st : Kept kf z0 st) (hregs : ¬kf.regs) :
    Kept kf z0 (State.portMode st fn p) := by
  unfold State.portMode
  with_reducible repeat' first
    | assumption
    | (extract_lets +onlyGivenNames x; clear_value x)
    | apply State.wf_kept

theorem State.tbsUpdate_kept {st : State} (h_st : Kept kf z0 st) (hregs : ¬kf.regs) :
    Kept kf z0 (State.tbsUpdate st) := by
  unfold State.tbsUpdate
  with_reducible repeat' first
    | assumption
    | refine fun _ _ (_ : Kept _ _ _) => ?_
    | (extract_lets +onlyGivenNames x; first
        | (refine Kept.cut kf z0 x ?_ (fun hx => ?_) <;> [subst x; clear_value x])
        | clear_value x)
    | apply State.portMode_kept
    | apply State.wf_kept
    | apply Kept.foldl

theorem State.setRail_kept {st : State} {fn code : Nat} (h_st : Kept kf z0 st) (hregs : ¬kf.regs)
    (hfields : ¬kf.fields) :
    Kept kf z0 (State.setRail st fn code) := by
  unfold State.setRail
  with_reducible repeat' first
    | assumption
    | (extract_lets +onlyGivenNames x; first
        | (refine Kept.cut kf z0 x ?_ (fun hx => ?_) <;> [subst x; clear_value x])
        | clear_value x)
    | apply State.setField_kept
    | apply State.wf_kept
    | apply Kept.ite

theorem State.dropCores_kept {kf : Facets} {z0 st : State} {fn : Nat} (h : Kept kf z0 st) (hcores : ¬kf.cores) (hisl : ¬kf.isl) :
    Kept kf z0 (State.dropCores st fn) :=
  { h with
    canonical := fun w => { h.canonical w with
      cores := tableWf_tclear (h.canonical w).cores, isl := tableWf_tclear (h.canonical w).isl }
    cores := fun a => absurd a hcores
    isl := fun a => absurd a hisl }

theorem State.dropKvl_kept {kf : Facets} {z0 st : State} {p : Nat} (h : Kept kf z0 st) (hkvl : ¬kf.kvl) :
    Kept kf z0 (State.dropKvl st p) :=
  { h with
    canonical := fun w => { h.canonical w with kvl := tableWf_tclear (h.canonical w).kvl }
    kvl := fun a => absurd a hkvl }

theorem State.dropSnp_kept {kf : Facets} {z0 st : State} {fn : Nat} (h : Kept kf z0 st) (hsnp : ¬kf.snp) :
    Kept kf z0 (State.dropSnp st fn) :=
  { h with
    canonical := fun w => { h.canonical w with snp := tableWf_filter _ (h.canonical w).snp }
    snp := fun a => absurd a hsnp }

theorem State.computeReset_kept {st : State} {fn : Nat} (h_st : Kept kf z0 st) (hregs : ¬kf.regs)
    (hcores : ¬kf.cores) (hfields : ¬kf.fields) (hisl : ¬kf.isl) (hkvl : ¬kf.kvl) (hsnp : ¬kf.snp) :
    Kept kf z0 (State.computeReset st fn) := by
  unfold State.computeReset
  with_reducible repeat' first
    | assumption
    | (extract_lets +onlyGivenNames x; first
        | (refine Kept.cut kf z0 x ?_ (fun hx => ?_) <;> [subst x; clear_value x])
        | clear_value x)
    | apply State.clrb_kept
    | apply State.dropCores_kept
    | apply State.dropKvl_kept
    | apply State.dropSnp_kept
    | apply State.resetRegs_kept
    | apply State.setField_kept
    | apply hF
    | apply Kept.ite

theorem State.clearStores_kept {st : State} {fn : Nat} (h_st : Kept kf z0 st) (hmem : ¬kf.mem) :
    Kept kf z0 (State.clearStores st fn) := by
  unfold State.clearStores
  with_reducible repeat' first
    | assumption
    | apply State.zeroRange_kept

theorem State.buildPower_kept {st : State} {fn : Nat} (h_st : Kept kf z0 st) (hregs : ¬kf.regs) :
    Kept kf z0 (State.buildPower st fn) := by
  unfold State.buildPower
  with_reducible repeat' first
    | assumption
    | (extract_lets +onlyGivenNames x; clear_value x)
    | apply State.wf_kept

theorem State.nodeEnter_kept {st : State} {fn s : Nat} (h_st : Kept kf z0 st) (hregs : ¬kf.regs) :
    Kept kf z0 (State.nodeEnter st fn s) := by
  unfold State.nodeEnter
  with_reducible repeat' first
    | assumption
    | (extract_lets +onlyGivenNames x; first
        | (refine Kept.cut kf z0 x ?_ (fun hx => ?_) <;> [subst x; clear_value x])
        | (refine Kept.cut kf z0 x.2 ?_ (fun hx => ?_) <;> [subst x; clear_value x])
        | clear_value x)
    | apply State.draw_kept
    | apply State.wf_kept
    | apply State.wn_kept
    | apply hF
    | apply Kept.ite

theorem State.baseOn_kept {st : State} {fn : Nat} {full : Bool} (h_st : Kept kf z0 st) (hregs : ¬kf.regs)
    (hcar : ¬kf.car) (hmesh : ¬kf.mesh) (hfields : ¬kf.fields) :
    Kept kf z0 (State.baseOn st fn full) := by
  unfold State.baseOn
  with_reducible repeat' first
    | assumption
    | (extract_lets +onlyGivenNames x; first
        | (refine Kept.cut kf z0 x ?_ (fun hx => ?_) <;> [subst x; clear_value x])
        | (have : x.fuses = x.fuses := (by rfl); clear this; subst x)
        | clear_value x)
    | apply State.buildPower_kept
    | apply State.nodeEnter_kept
    | apply State.resetRegs_kept
    | apply State.setField_kept
    | apply State.setPower_kept
    | apply State.tbsUpdate_kept
    | apply hF
    | apply Kept.ite
    | intro _
    | dsimp only
    | fail_if_no_progress (refine Kept.upd ?_)

theorem State.partCount_kept {st : State} {p : Nat} (h_st : Kept kf z0 st) (hregs : ¬kf.regs) :
    Kept kf z0 (State.partCount st p) := by
  unfold State.partCount
  with_reducible repeat' first
    | assumption
    | apply State.wf_kept
    | apply Kept.ite

theorem State.holdCores_kept {st : State} {fn : Nat} {on : Bool} (h_st : Kept kf z0 st) (hregs : ¬kf.regs)
    (hcar : ¬kf.car) (hmesh : ¬kf.mesh) (hcores : ¬kf.cores) (hisl : ¬kf.isl) (hmem : ¬kf.mem) :
    Kept kf z0 (State.holdCores st fn on) := by
  unfold State.holdCores
  with_reducible repeat' first
    | assumption
    | refine fun _ _ (_ : Kept _ _ _) => ?_
    | (extract_lets +onlyGivenNames x; first
        | (refine Kept.cut kf z0 x ?_ (fun hx => ?_) <;> [subst x; clear_value x])
        | clear_value x)
    | apply State.setCore_kept
    | apply State.ssGoOn_kept
    | apply Kept.ite
    | apply Kept.foldl

theorem State.tellersUp_kept {st : State} {fn : Nat} (h_st : Kept kf z0 st) (hregs : ¬kf.regs) (hfields : ¬kf.fields) :
    Kept kf z0 (State.tellersUp st fn) := by
  unfold State.tellersUp
  with_reducible repeat' first
    | assumption
    | refine fun _ _ (_ : Kept _ _ _) => ?_
    | (extract_lets +onlyGivenNames x; first
        | (refine Kept.cut kf z0 x ?_ (fun hx => ?_) <;> [subst x; clear_value x])
        | clear_value x)
    | apply State.setField_kept
    | apply State.wf_kept
    | apply Kept.foldl

theorem State.wokenCore_kept {st : State} {fn s : Nat} (h_st : Kept kf z0 st) (hregs : ¬kf.regs) (hcores : ¬kf.cores) :
    Kept kf z0 (State.wokenCore st fn s) := by
  unfold State.wokenCore
  with_reducible repeat' first
    | assumption
    | (extract_lets +onlyGivenNames x; refine Kept.cut kf z0 x ?_ (fun hx => ?_) <;> [subst x; clear_value x])
    | apply State.refresh_kept
    | apply State.setCore_kept
    | apply State.wn_kept
    | apply Kept.ite

theorem State.retainField_kept {st : State} {fn : Nat} (h_st : Kept kf z0 st) (hregs : ¬kf.regs)
    (hcores : ¬kf.cores) (hfields : ¬kf.fields) (hisl : ¬kf.isl) :
    Kept kf z0 (State.retainField st fn) := by
  unfold State.retainField
  with_reducible repeat' first
    | assumption
    | refine fun _ _ (_ : Kept _ _ _) => ?_
    | (extract_lets +onlyGivenNames x; refine Kept.cut kf z0 x ?_ (fun hx => ?_) <;> [subst x; clear_value x])
    | apply State.islDown_kept
    | apply State.partCount_kept
    | apply State.setPower_kept
    | apply State.setRail_kept
    | apply State.wf_kept
    | apply Kept.ite
    | apply Kept.foldl

theorem State.toBase_kept {st : State} {fn : Nat} (h_st : Kept kf z0 st) (hregs : ¬kf.regs) (hbrs : ¬kf.brs)
    (hcores : ¬kf.cores) (hfields : ¬kf.fields) (hisl : ¬kf.isl) (hkvl : ¬kf.kvl) (hmem : ¬kf.mem) (hsnp : ¬kf.snp) :
    Kept kf z0 (State.toBase st fn) := by
  unfold State.toBase
  with_reducible repeat' first
    | assumption
    | refine fun _ _ (_ : Kept _ _ _) => ?_
    | (extract_lets +onlyGivenNames x; first
        | (refine Kept.cut kf z0 x ?_ (fun hx => ?_) <;> [subst x; clear_value x])
        | clear_value x)
    | apply State.clearStores_kept
    | apply State.computeReset_kept
    | apply State.partCount_kept
    | apply State.setPower_kept
    | apply State.setRail_kept
    | apply State.wf_kept
    | apply Kept.foldl
    | fail_if_no_progress (refine Kept.upd ?_)

theorem State.dropAt_kept {st : State} {fn : Nat} (h_st : Kept kf z0 st) (hregs : ¬kf.regs) (hmesh : ¬kf.mesh) :
    Kept kf z0 (State.dropAt st fn) := by
  unfold State.dropAt
  with_reducible repeat' first
    | assumption
    | refine fun _ (_ : Kept _ _ _) => ?_
    | refine fun _ _ (_ : Kept _ _ _) => ?_
    | refine fun _ _ _ (_ : Kept _ _ _) => ?_
    | (extract_lets +onlyGivenNames x; first
        | (refine Kept.cut kf z0 x ?_ (fun hx => ?_) <;> [subst x; clear_value x])
        | clear_value x)
    | apply State.dropFlits_kept
    | apply hF
    | apply Kept.ite
    | apply Kept.foldl
    | apply Kept.foldl₁
    | apply Kept.foldl₂
    | apply Kept.foldl₂₂
    | intro _
    | dsimp only
    | fail_if_no_progress (refine Kept.upd ?_)

theorem State.partEnter_kept {st : State} {p s cause : Nat} (h_st : Kept kf z0 st) (hregs : ¬kf.regs) :
    Kept kf z0 (State.partEnter st p s cause) := by
  unfold State.partEnter
  with_reducible repeat' first
    | assumption
    | (extract_lets +onlyGivenNames x; refine Kept.cut kf z0 x ?_ (fun hx => ?_) <;> [subst x; clear_value x])
    | apply State.notice_kept
    | apply State.wf_kept

theorem State.endCmd_kept {st : State} {num mgmt work detail : Nat} (h_st : Kept kf z0 st) :
    Kept kf z0 (State.endCmd st num mgmt work detail) := by
  unfold State.endCmd
  with_reducible repeat' first
    | assumption
    | apply State.endItem_kept
    | split

theorem State.endPart_kept {st : State} {p mgmt work detail : Nat} (h_st : Kept kf z0 st) (hbrs : ¬kf.brs) :
    Kept kf z0 (State.endPart st p mgmt work detail) := by
  unfold State.endPart
  with_reducible repeat' first
    | assumption
    | (extract_lets +onlyGivenNames x; clear_value x)
    | apply State.endCmd_kept
    | apply State.setPart_kept
    | split

theorem State.ledgerEvent_kept {st : State} (h_st : Kept kf z0 st) (hbrs : ¬kf.brs) :
    Kept kf z0 (State.ledgerEvent st) := by
  unfold State.ledgerEvent
  with_reducible repeat' first
    | assumption
    | (extract_lets +onlyGivenNames x; clear_value x)
    | fail_if_no_progress (refine Kept.upd ?_)

theorem State.setLed_kept {st : State} {fn : Nat} {x : LedField} (h_st : Kept kf z0 st) (hbrs : ¬kf.brs) :
    Kept kf z0 (State.setLed st fn x) := by
  unfold State.setLed
  with_reducible repeat' first
    | assumption
    | (extract_lets +onlyGivenNames x; clear_value x)
    | fail_if_no_progress (refine Kept.upd ?_)

theorem State.loadNotice_kept {st : State} {build : Nat} (h_st : Kept kf z0 st) (hregs : ¬kf.regs) :
    Kept kf z0 (State.loadNotice st build) := by
  unfold State.loadNotice
  with_reducible repeat' first
    | assumption
    | apply State.notice_kept

theorem State.endLoadOf_kept {st : State} {p status : Nat} (h_st : Kept kf z0 st) (hregs : ¬kf.regs)
    (hbrs : ¬kf.brs) :
    Kept kf z0 (State.endLoadOf st p status) := by
  unfold State.endLoadOf
  with_reducible repeat' first
    | assumption
    | (extract_lets +onlyGivenNames x; first
        | (refine Kept.cut kf z0 x ?_ (fun hx => ?_) <;> [subst x; clear_value x])
        | clear_value x)
    | apply State.clrb_kept
    | apply State.endCmd_kept
    | apply State.loadNotice_kept
    | apply hF
    | apply Kept.ite
    | intro _
    | dsimp only
    | fail_if_no_progress (refine Kept.upd ?_)
    | split

theorem State.loadEnd_kept {st : State} {err build : Nat} (h_st : Kept kf z0 st) (hregs : ¬kf.regs) (hbrs : ¬kf.brs) :
    Kept kf z0 (State.loadEnd st err build) := by
  unfold State.loadEnd
  with_reducible repeat' first
    | assumption
    | (extract_lets +onlyGivenNames x; first
        | (refine Kept.cut kf z0 x ?_ (fun hx => ?_) <;> [subst x; clear_value x])
        | clear_value x)
    | apply State.endCmd_kept
    | apply State.loadNotice_kept
    | fail_if_no_progress (refine Kept.upd ?_)
    | split

theorem State.offUnless_kept {st : State} {keep : Nat → Bool} (h_st : Kept kf z0 st) (hbrs : ¬kf.brs) :
    Kept kf z0 (State.offUnless st keep) := by
  unfold State.offUnless
  with_reducible repeat' first
    | assumption
    | (extract_lets +onlyGivenNames x; clear_value x)
    | fail_if_no_progress (refine Kept.upd ?_)

theorem State.unconfigure_kept {st : State} (h_st : Kept kf z0 st) (hregs : ¬kf.regs) (hbrs : ¬kf.brs)
    (hfields : ¬kf.fields) :
    Kept kf z0 (State.unconfigure st) := by
  unfold State.unconfigure
  with_reducible repeat' first
    | assumption
    | refine fun _ _ (_ : Kept _ _ _) => ?_
    | (extract_lets +onlyGivenNames x; first
        | (refine Kept.cut kf z0 x ?_ (fun hx => ?_) <;> [subst x; clear_value x])
        | clear_value x)
    | apply State.clrb_kept
    | apply State.ledgerEvent_kept
    | apply State.offUnless_kept
    | apply State.setField_kept
    | apply State.wf_kept
    | apply State.wn_kept
    | apply Kept.foldl
    | fail_if_no_progress (refine Kept.upd ?_)

theorem State.settlePart_kept {st : State} {p : Nat} (h_st : Kept kf z0 st) (hregs : ¬kf.regs) (hbrs : ¬kf.brs)
    (hfields : ¬kf.fields) :
    Kept kf z0 (State.settlePart st p) := by
  unfold State.settlePart
  with_reducible repeat' first
    | assumption
    | (extract_lets +onlyGivenNames x; first
        | (refine Kept.cut kf z0 x ?_ (fun hx => ?_) <;> [subst x; clear_value x])
        | clear_value x)
    | apply State.loadEnd_kept
    | apply State.unconfigure_kept
    | apply State.wf_kept
    | apply hF
    | apply Kept.ite
    | intro _
    | dsimp only
    | fail_if_no_progress (refine Kept.upd ?_)

theorem State.partOff_kept {st : State} {p : Nat} (h_st : Kept kf z0 st) (hregs : ¬kf.regs) (hbrs : ¬kf.brs)
    (hfields : ¬kf.fields) :
    Kept kf z0 (State.partOff st p) := by
  unfold State.partOff
  with_reducible repeat' first
    | assumption
    | (extract_lets +onlyGivenNames x; first
        | (refine Kept.cut kf z0 x ?_ (fun hx => ?_) <;> [subst x; clear_value x])
        | clear_value x)
    | apply State.endPart_kept
    | apply State.partCount_kept
    | apply State.partEnter_kept
    | apply State.settlePart_kept

theorem State.fallOn_kept {st : State} {p : Nat} (h_st : Kept kf z0 st) (hregs : ¬kf.regs) (hbrs : ¬kf.brs)
    (hmesh : ¬kf.mesh) (hfields : ¬kf.fields) :
    Kept kf z0 (State.fallOn st p) := by
  unfold State.fallOn
  with_reducible repeat' first
    | assumption
    | (extract_lets +onlyGivenNames x; first
        | (refine Kept.cut kf z0 x ?_ (fun hx => ?_) <;> [subst x; clear_value x])
        | clear_value x)
    | apply State.clearTallies_kept
    | apply State.partOff_kept
    | apply Kept.ite
    | fail_if_no_progress (refine Kept.upd ?_)

theorem State.paceStart_kept {st : State} {fn : Nat} (h_st : Kept kf z0 st) (hfields : ¬kf.fields) :
    Kept kf z0 (State.paceStart st fn) := by
  unfold State.paceStart
  with_reducible repeat' first
    | assumption
    | apply State.setField_kept

theorem State.riseOn_kept {st : State} {p : Nat} (h_st : Kept kf z0 st) (hregs : ¬kf.regs) (hbrs : ¬kf.brs)
    (hfields : ¬kf.fields) (hkvl : ¬kf.kvl) :
    Kept kf z0 (State.riseOn st p) := by
  unfold State.riseOn
  with_reducible repeat' first
    | assumption
    | refine fun _ (_ : Kept _ _ _) => ?_
    | refine fun _ _ (_ : Kept _ _ _) => ?_
    | refine fun _ _ _ (_ : Kept _ _ _) => ?_
    | (extract_lets +onlyGivenNames x; first
        | (refine Kept.cut kf z0 x ?_ (fun hx => ?_) <;> [subst x; clear_value x])
        | clear_value x)
    | apply State.clrb_kept
    | apply State.endPart_kept
    | apply State.kvlEnter_kept
    | apply State.loadEnd_kept
    | apply State.paceStart_kept
    | apply State.partCount_kept
    | apply State.partEnter_kept
    | apply State.pump_kept
    | apply State.setPart_kept
    | apply State.setb_kept
    | apply State.settlePart_kept
    | apply State.wf_kept
    | apply hF
    | apply Kept.ite
    | apply Kept.foldl
    | apply Kept.foldl₁
    | apply Kept.foldl₂
    | apply Kept.foldl₂₂
    | intro _
    | dsimp only
    | fail_if_no_progress (refine Kept.upd ?_)
    | split

theorem State.grantOwn_kept {st : State} {p : Nat} (h_st : Kept kf z0 st) (hregs : ¬kf.regs) (hleases : ¬kf.leases) :
    Kept kf z0 (State.grantOwn st p) := by
  unfold State.grantOwn
  with_reducible repeat' first
    | assumption
    | refine fun _ _ (_ : Kept _ _ _) => ?_
    | refine fun _ _ _ _ _ (_ : Kept _ _ _) => ?_
    | (extract_lets +onlyGivenNames x; first
        | (refine Kept.cut kf z0 x ?_ (fun hx => ?_) <;> [subst x; clear_value x])
        | (refine Kept.cutF₄ kf z0 x ?_ (fun hF => ?_) <;> [subst x; clear_value x])
        | clear_value x)
    | apply State.grantLease_kept
    | apply State.grantTransit_kept
    | apply hF
    | apply Kept.ite
    | apply Kept.foldl

theorem State.granuleRegs_kept {st : State} {fn : Nat} (h_st : Kept kf z0 st) (hregs : ¬kf.regs) :
    Kept kf z0 (State.granuleRegs st fn) := by
  unfold State.granuleRegs
  with_reducible repeat' first
    | assumption
    | refine fun _ _ (_ : Kept _ _ _) => ?_
    | (extract_lets +onlyGivenNames x; clear_value x)
    | apply State.wf_kept
    | apply Kept.foldl
    | split

theorem State.queueOns_kept {st : State} {p : Nat} (h_st : Kept kf z0 st) (hbrs : ¬kf.brs) :
    Kept kf z0 (State.queueOns st p) := by
  unfold State.queueOns
  with_reducible repeat' first
    | assumption
    | (extract_lets +onlyGivenNames x; clear_value x)
    | apply hF
    | apply Kept.ite
    | intro _
    | dsimp only
    | fail_if_no_progress (refine Kept.upd ?_)

theorem State.zeroCounters_kept {st : State} {p : Nat} (h_st : Kept kf z0 st) (hregs : ¬kf.regs) :
    Kept kf z0 (State.zeroCounters st p) := by
  unfold State.zeroCounters
  with_reducible repeat' first
    | assumption
    | refine fun _ (_ : Kept _ _ _) => ?_
    | refine fun _ _ (_ : Kept _ _ _) => ?_
    | refine fun _ _ _ (_ : Kept _ _ _) => ?_
    | (extract_lets +onlyGivenNames x; first
        | (refine Kept.cut kf z0 x ?_ (fun hx => ?_) <;> [subst x; clear_value x])
        | clear_value x)
    | apply State.clearRegs_kept
    | apply State.wf_kept
    | apply State.wn_kept
    | apply hF
    | apply Kept.ite
    | apply Kept.foldl

theorem State.beginRise_kept {st : State} {p : Nat} {loading : Bool} (h_st : Kept kf z0 st) (hregs : ¬kf.regs)
    (hbrs : ¬kf.brs) (hleases : ¬kf.leases) :
    Kept kf z0 (State.beginRise st p loading) := by
  unfold State.beginRise
  with_reducible repeat' first
    | assumption
    | (extract_lets +onlyGivenNames x; first
        | (refine Kept.cut kf z0 x ?_ (fun hx => ?_) <;> [subst x; clear_value x])
        | clear_value x)
    | apply State.grantOwn_kept
    | apply State.partEnter_kept
    | apply State.setPart_kept
    | apply State.wf_kept
    | apply State.zeroCounters_kept
    | apply Kept.ite

theorem State.retainDone_kept {st : State} {p : Nat} (h_st : Kept kf z0 st) (hregs : ¬kf.regs) (hcar : ¬kf.car)
    (hbrs : ¬kf.brs) (hmesh : ¬kf.mesh) (hcores : ¬kf.cores) (hfields : ¬kf.fields) (hisl : ¬kf.isl)
    (hkvl : ¬kf.kvl) (hleases : ¬kf.leases) (hsnp : ¬kf.snp) :
    Kept kf z0 (State.retainDone st p) := by
  unfold State.retainDone
  with_reducible repeat' first
    | assumption
    | refine fun _ _ (_ : Kept _ _ _) => ?_
    | (extract_lets +onlyGivenNames x; first
        | (refine Kept.cut kf z0 x ?_ (fun hx => ?_) <;> [subst x; clear_value x])
        | clear_value x)
    | apply State.clrb_kept
    | apply State.endPart_kept
    | apply State.kvlLeave_kept
    | apply State.partEnter_kept
    | apply State.retainField_kept
    | apply State.setPart_kept
    | apply State.snpDownPort_kept
    | apply Kept.ite
    | apply Kept.foldl

theorem State.retainOn_kept {st : State} {p : Nat} (h_st : Kept kf z0 st) (hregs : ¬kf.regs) (hcar : ¬kf.car)
    (hbrs : ¬kf.brs) (hmesh : ¬kf.mesh) (hcores : ¬kf.cores) (hfields : ¬kf.fields) (hisl : ¬kf.isl)
    (hkvl : ¬kf.kvl) (hleases : ¬kf.leases) (hsnp : ¬kf.snp) :
    Kept kf z0 (State.retainOn st p) := by
  unfold State.retainOn
  with_reducible repeat' first
    | assumption
    | apply State.retainDone_kept
    | apply Kept.ite

theorem State.linksResume_kept {st : State} (h_st : Kept kf z0 st) (hregs : ¬kf.regs) (hfields : ¬kf.fields) :
    Kept kf z0 (State.linksResume st) := by
  unfold State.linksResume
  with_reducible repeat' first
    | assumption
    | refine fun _ (_ : Kept _ _ _) => ?_
    | refine fun _ _ (_ : Kept _ _ _) => ?_
    | refine fun _ _ _ (_ : Kept _ _ _) => ?_
    | (extract_lets +onlyGivenNames x; clear_value x)
    | apply State.setField_kept
    | apply State.tbsUpdate_kept
    | apply hF
    | apply Kept.ite
    | apply Kept.foldl

theorem State.treeRebuilt_kept {st : State} (h_st : Kept kf z0 st) (hregs : ¬kf.regs) (hmesh : ¬kf.mesh) :
    Kept kf z0 (State.treeRebuilt st) := by
  unfold State.treeRebuilt
  with_reducible repeat' first
    | assumption
    | refine fun _ (_ : Kept _ _ _) => ?_
    | refine fun _ _ (_ : Kept _ _ _) => ?_
    | refine fun _ _ _ (_ : Kept _ _ _) => ?_
    | (extract_lets +onlyGivenNames x; first
        | (refine Kept.cut kf z0 x ?_ (fun hx => ?_) <;> [subst x; clear_value x])
        | clear_value x)
    | apply State.nodeEnter_kept
    | apply State.tbsUpdate_kept
    | apply hF
    | apply Kept.ite
    | apply Kept.foldl
    | apply Kept.foldl₁
    | apply Kept.foldl₂
    | apply Kept.foldl₂₂
    | intro _
    | dsimp only
    | fail_if_no_progress (refine Kept.upd ?_)
    | split

end Sys2Proof.Machine
end

