-- ==== Sys2Proof/Laws/KeptPower.lean ====
section
/-! SUPPORT. What loads, power, partitions, the timebase and pace keep (see Kept.lean). -/

namespace Sys2Proof.Machine

set_option Elab.async false

set_option linter.unusedVariables false

variable {kf : Facets} {z0 : State}

theorem State.latchPolicy_kept {st : State} {fn t : Nat} (h_st : Kept kf z0 st) (hregs : ¬kf.regs)
    (hfields : ¬kf.fields) :
    Kept kf z0 (State.latchPolicy st fn t) := by
  unfold State.latchPolicy
  with_reducible repeat' first
    | assumption
    | refine fun _ (_ : Kept _ _ _) => ?_
    | refine fun _ _ (_ : Kept _ _ _) => ?_
    | refine fun _ _ _ (_ : Kept _ _ _) => ?_
    | (extract_lets +onlyGivenNames x; first
        | (refine Kept.cut kf z0 x ?_ (fun hx => ?_) <;> [subst x; clear_value x])
        | clear_value x)
    | apply State.setField_kept
    | apply State.wr_kept
    | apply hF
    | apply Kept.ite
    | intro _
    | dsimp only
    | fail_if_no_progress (refine Kept.upd ?_)
    | split

theorem State.latchIdle_kept {st : State} (h_st : Kept kf z0 st) (hregs : ¬kf.regs) (hfields : ¬kf.fields) :
    Kept kf z0 (State.latchIdle st) := by
  unfold State.latchIdle
  with_reducible repeat' first
    | assumption
    | refine fun _ (_ : Kept _ _ _) => ?_
    | refine fun _ _ (_ : Kept _ _ _) => ?_
    | refine fun _ _ _ (_ : Kept _ _ _) => ?_
    | (extract_lets +onlyGivenNames x; clear_value x)
    | apply State.latchPolicy_kept
    | apply hF
    | apply Kept.ite
    | apply Kept.foldl

theorem State.mature_kept {st : State} (h_st : Kept kf z0 st) (hregs : ¬kf.regs) (hcar : ¬kf.car)
    (hmesh : ¬kf.mesh) (hcores : ¬kf.cores) (hfields : ¬kf.fields) (hisl : ¬kf.isl) (hmem : ¬kf.mem) :
    Kept kf z0 (State.mature st) := by
  unfold State.mature
  with_reducible repeat' first
    | assumption
    | refine fun _ (_ : Kept _ _ _) => ?_
    | refine fun _ _ (_ : Kept _ _ _) => ?_
    | refine fun _ _ _ (_ : Kept _ _ _) => ?_
    | (extract_lets +onlyGivenNames x; first
        | (refine Kept.cut kf z0 x ?_ (fun hx => ?_) <;> [subst x; clear_value x])
        | clear_value x)
    | apply State.attnNotice_kept
    | apply State.coreFlushEnd_kept
    | apply State.flushQueueEnd_kept
    | apply State.latchIdle_kept
    | apply State.linksResume_kept
    | apply State.shareEnd_kept
    | apply State.treeRebuilt_kept
    | apply State.wakeGroups_kept
    | apply hF
    | apply Kept.ite
    | apply Kept.foldl

theorem State.leg_kept {st : State} {t : Nat} (h_st : Kept kf z0 st) (hregs : ¬kf.regs) (hcar : ¬kf.car)
    (hmesh : ¬kf.mesh) (hcores : ¬kf.cores) (hfields : ¬kf.fields) (hisl : ¬kf.isl) (hmem : ¬kf.mem)
    (hnow : ¬kf.now) :
    Kept kf z0 (State.leg st t) := by
  unfold State.leg
  with_reducible repeat' first
    | assumption
    | refine fun _ (_ : Kept _ _ _) => ?_
    | refine fun _ _ (_ : Kept _ _ _) => ?_
    | refine fun _ _ _ (_ : Kept _ _ _) => ?_
    | (extract_lets +onlyGivenNames x; first
        | (refine Kept.cut kf z0 x ?_ (fun hx => ?_) <;> [subst x; clear_value x])
        | clear_value x)
    | apply State.add_kept
    | apply State.mature_kept
    | apply hF
    | apply Kept.ite
    | apply Kept.foldl
    | apply Kept.foldl₁
    | apply Kept.foldl₂
    | apply Kept.foldl₂₂
    | intro _
    | dsimp only
    | fail_if_no_progress (refine Kept.upd ?_)
    | split

theorem State.legs_kept {t : Nat} {y0 : Nat} {y1 : State} (h_y1 : Kept kf z0 y1) (hregs : ¬kf.regs)
    (hcar : ¬kf.car) (hmesh : ¬kf.mesh) (hcores : ¬kf.cores) (hfields : ¬kf.fields) (hisl : ¬kf.isl)
    (hmem : ¬kf.mem) (hnow : ¬kf.now) :
    Kept kf z0 (State.legs t y0 y1) := by
  induction y0 generalizing t y1 <;> unfold State.legs
  on_goal 2 => rename_i ih
  all_goals with_reducible repeat' first
    | assumption
    | apply State.leg_kept
    | apply ih
    | apply Kept.ite
    | dsimp only
    | fail_if_no_progress (refine Kept.upd ?_)
    | split

theorem State.advance_kept {st : State} {t : Nat} (h_st : Kept kf z0 st) (hregs : ¬kf.regs) (hcar : ¬kf.car)
    (hmesh : ¬kf.mesh) (hcores : ¬kf.cores) (hfields : ¬kf.fields) (hisl : ¬kf.isl) (hmem : ¬kf.mem)
    (hnow : ¬kf.now) :
    Kept kf z0 (State.advance st t) := by
  unfold State.advance
  with_reducible repeat' first
    | assumption
    | apply State.legs_kept

theorem State.until_kept {st : State} {due : Nat} (h_st : Kept kf z0 st) (hregs : ¬kf.regs) (hcar : ¬kf.car)
    (hmesh : ¬kf.mesh) (hcores : ¬kf.cores) (hfields : ¬kf.fields) (hisl : ¬kf.isl) (hmem : ¬kf.mem)
    (hnow : ¬kf.now) :
    Kept kf z0 (State.until st due) := by
  unfold State.until
  with_reducible repeat' first
    | assumption
    | apply State.advance_kept

theorem State.idleTick_kept {st : State} (h_st : Kept kf z0 st) (hregs : ¬kf.regs) (hcar : ¬kf.car)
    (hmesh : ¬kf.mesh) (hcores : ¬kf.cores) (hfields : ¬kf.fields) (hisl : ¬kf.isl) (hmem : ¬kf.mem)
    (hnow : ¬kf.now) :
    Kept kf z0 (State.idleTick st) := by
  unfold State.idleTick
  with_reducible repeat' first
    | assumption
    | apply State.advance_kept
    | apply Kept.ite

theorem execRampDownStart_kept {fn s feeder : Nat} {st : State} (h_st : Kept kf z0 st) (hregs : ¬kf.regs)
    (hcar : ¬kf.car) (hmesh : ¬kf.mesh) (hcores : ¬kf.cores) (hfields : ¬kf.fields) (hisl : ¬kf.isl)
    (hmem : ¬kf.mem) (hnow : ¬kf.now) :
    KeptOut kf z0 (execRampDownStart fn s feeder st) := by
  unfold execRampDownStart
  with_reducible repeat' first
    | assumption
    | refine fun _ (_ : Kept _ _ _) => ?_
    | refine fun _ _ (_ : Kept _ _ _) => ?_
    | refine fun _ _ _ (_ : Kept _ _ _) => ?_
    | (extract_lets +onlyGivenNames x; first
        | (refine Kept.cut kf z0 x ?_ (fun hx => ?_) <;> [subst x; clear_value x])
        | clear_value x)
    | apply State.setCore_kept
    | apply State.until_kept
    | apply State.when_kept
    | apply hF
    | apply Kept.ite
    | apply KeptOut.next

theorem execRampEntryAdvance_kept {fn s feeder : Nat} {st : State} (h_st : Kept kf z0 st) (hregs : ¬kf.regs)
    (hcar : ¬kf.car) (hmesh : ¬kf.mesh) (hcores : ¬kf.cores) (hfields : ¬kf.fields) (hisl : ¬kf.isl)
    (hmem : ¬kf.mem) (hnow : ¬kf.now) :
    KeptOut kf z0 (execRampEntryAdvance fn s feeder st) := by
  unfold execRampEntryAdvance
  with_reducible repeat' first
    | assumption
    | refine fun _ (_ : Kept _ _ _) => ?_
    | refine fun _ _ (_ : Kept _ _ _) => ?_
    | refine fun _ _ _ (_ : Kept _ _ _) => ?_
    | (extract_lets +onlyGivenNames x; clear_value x)
    | apply State.setCore_kept
    | apply State.until_kept
    | apply State.when_kept
    | apply hF
    | apply Kept.ite
    | apply KeptOut.next

theorem execWaitTimeout_kept {fn s : Nat} {st : State} (h_st : Kept kf z0 st) (hregs : ¬kf.regs)
    (hcar : ¬kf.car) (hmesh : ¬kf.mesh) (hcores : ¬kf.cores) (hfields : ¬kf.fields) (hisl : ¬kf.isl)
    (hmem : ¬kf.mem) (hnow : ¬kf.now) :
    KeptOut kf z0 (execWaitTimeout fn s st) := by
  unfold execWaitTimeout
  with_reducible repeat' first
    | assumption
    | (extract_lets +onlyGivenNames x; clear_value x)
    | apply State.cancelWait_kept
    | apply State.setCore_kept
    | apply State.until_kept
    | apply hF
    | apply Kept.ite
    | apply KeptOut.next
    | apply KeptOut.ite
    | intro _
    | dsimp only
    | fail_if_no_progress (refine Kept.upd ?_)
    | split

theorem execGroupGate_kept {fn s group : Nat} {st : State} (h_st : Kept kf z0 st) (hregs : ¬kf.regs)
    (hcar : ¬kf.car) (hmesh : ¬kf.mesh) (hcores : ¬kf.cores) (hfields : ¬kf.fields) (hisl : ¬kf.isl)
    (hmem : ¬kf.mem) (hnow : ¬kf.now) :
    KeptOut kf z0 (execGroupGate fn s group st) := by
  unfold execGroupGate
  with_reducible repeat' first
    | assumption
    | refine fun _ (_ : Kept _ _ _) => ?_
    | refine fun _ _ (_ : Kept _ _ _) => ?_
    | refine fun _ _ _ (_ : Kept _ _ _) => ?_
    | (extract_lets +onlyGivenNames x; clear_value x)
    | apply State.putCore_kept
    | apply State.until_kept
    | apply State.when_kept
    | apply hF
    | apply Kept.ite
    | apply KeptOut.next
    | apply KeptOut.ite
    | intro _
    | dsimp only
    | fail_if_no_progress (refine Kept.upd ?_)
    | split

theorem execPatrolRead_kept {fn : Nat} {st : State} (h_st : Kept kf z0 st) (hregs : ¬kf.regs) (hcar : ¬kf.car)
    (hmesh : ¬kf.mesh) (hcores : ¬kf.cores) (hfields : ¬kf.fields) (hisl : ¬kf.isl) (hmem : ¬kf.mem)
    (hnow : ¬kf.now) :
    KeptOut kf z0 (execPatrolRead fn st) := by
  unfold execPatrolRead
  with_reducible repeat' first
    | assumption
    | refine fun _ (_ : Kept _ _ _) => ?_
    | refine fun _ _ (_ : Kept _ _ _) => ?_
    | refine fun _ _ _ (_ : Kept _ _ _) => ?_
    | (extract_lets +onlyGivenNames x; first
        | (refine Kept.cut kf z0 x ?_ (fun hx => ?_) <;> [subst x; clear_value x])
        | clear_value x)
    | apply State.add_kept
    | apply State.patrolWords_kept
    | apply State.setField_kept
    | apply State.until_kept
    | apply State.wf_kept
    | apply State.when_kept
    | apply hF
    | apply Kept.ite
    | apply KeptOut.next
    | apply KeptOut.ite
    | intro _
    | dsimp only
    | fail_if_no_progress (refine Kept.upd ?_)
    | split

theorem execAckTimeout_kept {tag : Nat} {st : State} (h_st : Kept kf z0 st) (hregs : ¬kf.regs) (hcar : ¬kf.car)
    (hmesh : ¬kf.mesh) (hcores : ¬kf.cores) (hfields : ¬kf.fields) (hisl : ¬kf.isl) (hkvl : ¬kf.kvl)
    (hleases : ¬kf.leases) (hmem : ¬kf.mem) (hnow : ¬kf.now) (hsnp : ¬kf.snp) :
    KeptOut kf z0 (execAckTimeout tag st) := by
  unfold execAckTimeout
  with_reducible repeat' first
    | assumption
    | (extract_lets +onlyGivenNames x; clear_value x)
    | apply State.addSat_kept
    | apply State.dropSent_kept
    | apply State.endUse_kept
    | apply State.jobDone_kept
    | apply State.setGrant_kept
    | apply State.until_kept
    | apply hF
    | apply Kept.ite
    | apply KeptOut.next
    | apply KeptOut.ite
    | intro _
    | dsimp only
    | fail_if_no_progress (refine Kept.upd ?_)
    | split

theorem execWindowLeaseRelease_kept {ownerKey w : Nat} {st : State} (h_st : Kept kf z0 st) (hregs : ¬kf.regs)
    (hcar : ¬kf.car) (hmesh : ¬kf.mesh) (hcores : ¬kf.cores) (hfields : ¬kf.fields) (hisl : ¬kf.isl)
    (hleases : ¬kf.leases) (hmem : ¬kf.mem) (hnow : ¬kf.now) :
    KeptOut kf z0 (execWindowLeaseRelease ownerKey w st) := by
  unfold execWindowLeaseRelease
  with_reducible repeat' first
    | assumption
    | refine fun _ (_ : Kept _ _ _) => ?_
    | refine fun _ _ (_ : Kept _ _ _) => ?_
    | refine fun _ _ _ (_ : Kept _ _ _) => ?_
    | apply State.releaseWindow_kept
    | apply State.until_kept
    | apply State.when_kept
    | apply Kept.ite
    | apply KeptOut.next

theorem State.moduleCapBit_kept {st : State} (h_st : Kept kf z0 st) (hregs : ¬kf.regs) :
    Kept kf z0 (State.moduleCapBit st) := by
  unfold State.moduleCapBit
  with_reducible repeat' first
    | assumption
    | apply State.wf_kept

theorem State.enterFull_kept {st : State} {fn : Nat} (h_st : Kept kf z0 st) (hregs : ¬kf.regs)
    (hfields : ¬kf.fields) :
    Kept kf z0 (State.enterFull st fn) := by
  unfold State.enterFull
  with_reducible repeat' first
    | assumption
    | (extract_lets +onlyGivenNames x; first
        | (refine Kept.cut kf z0 x ?_ (fun hx => ?_) <;> [subst x; clear_value x])
        | clear_value x)
    | apply State.moduleCapBit_kept
    | apply State.partCount_kept
    | apply State.setField_kept
    | apply State.setPower_kept
    | apply State.setRail_kept
    | apply State.wf_kept

theorem State.computeOn_kept {st : State} {fn : Nat} (h_st : Kept kf z0 st) (hregs : ¬kf.regs) (hcar : ¬kf.car)
    (hbrs : ¬kf.brs) (hmesh : ¬kf.mesh) (hcores : ¬kf.cores) (hfields : ¬kf.fields) (hisl : ¬kf.isl)
    (hkvl : ¬kf.kvl) (hmem : ¬kf.mem) (hsnp : ¬kf.snp) :
    Kept kf z0 (State.computeOn st fn) := by
  unfold State.computeOn
  with_reducible repeat' first
    | assumption
    | (extract_lets +onlyGivenNames x; first
        | (refine Kept.cut kf z0 x ?_ (fun hx => ?_) <;> [subst x; clear_value x])
        | clear_value x)
    | apply State.clearStores_kept
    | apply State.computeReset_kept
    | apply State.enterFull_kept
    | apply State.holdCores_kept
    | fail_if_no_progress (refine Kept.upd ?_)

theorem State.wakeField_kept {st : State} {fn : Nat} (h_st : Kept kf z0 st) (hregs : ¬kf.regs) (hcar : ¬kf.car)
    (hbrs : ¬kf.brs) (hmesh : ¬kf.mesh) (hcores : ¬kf.cores) (hfields : ¬kf.fields) (hisl : ¬kf.isl)
    (hkvl : ¬kf.kvl) (hmem : ¬kf.mem) (hsnp : ¬kf.snp) :
    Kept kf z0 (State.wakeField st fn) := by
  unfold State.wakeField
  with_reducible repeat' first
    | assumption
    | refine fun _ _ (_ : Kept _ _ _) => ?_
    | (extract_lets +onlyGivenNames x; first
        | (refine Kept.cut kf z0 x ?_ (fun hx => ?_) <;> [subst x; clear_value x])
        | clear_value x)
    | apply State.cacheClean_kept
    | apply State.computeReset_kept
    | apply State.enterFull_kept
    | apply State.holdCores_kept
    | apply State.islUp_kept
    | apply State.tellersUp_kept
    | apply State.wokenCore_kept
    | apply State.wr_kept
    | apply State.zeroRange_kept
    | apply Kept.ite
    | apply Kept.foldl
    | fail_if_no_progress (refine Kept.upd ?_)

theorem State.toOff_kept {st : State} {fn : Nat} (h_st : Kept kf z0 st) (hregs : ¬kf.regs) (hcar : ¬kf.car)
    (hbrs : ¬kf.brs) (hmesh : ¬kf.mesh) (hcores : ¬kf.cores) (hfields : ¬kf.fields) (hisl : ¬kf.isl)
    (hkvl : ¬kf.kvl) (hmem : ¬kf.mem) (hsnp : ¬kf.snp) :
    Kept kf z0 (State.toOff st fn) := by
  unfold State.toOff
  with_reducible repeat' first
    | assumption
    | (extract_lets +onlyGivenNames x; first
        | (refine Kept.cut kf z0 x ?_ (fun hx => ?_) <;> [subst x; clear_value x])
        | (have : x.fuses = x.fuses := (by rfl); clear this; subst x)
        | clear_value x)
    | apply State.clrb_kept
    | apply State.dropAt_kept
    | apply State.moduleCapBit_kept
    | apply State.nodeEnter_kept
    | apply State.setField_kept
    | apply State.setPower_kept
    | apply State.tbsUpdate_kept
    | apply State.toBase_kept
    | apply hF
    | apply Kept.ite
    | intro _
    | dsimp only
    | fail_if_no_progress (refine Kept.upd ?_)

theorem State.recordErr_kept {st : State} {e : LoadErr} (h_st : Kept kf z0 st) (hregs : ¬kf.regs) :
    Kept kf z0 (State.recordErr st e) := by
  unfold State.recordErr
  with_reducible repeat' first
    | assumption
    | refine fun _ _ (_ : Kept _ _ _) => ?_
    | (extract_lets +onlyGivenNames x; refine Kept.cut kf z0 x ?_ (fun hx => ?_) <;> [subst x; clear_value x])
    | apply State.wf_kept
    | apply State.wn_kept
    | apply Kept.foldl
    | split

theorem State.refuseLoad_kept {st : State} {num : Option Nat} {e : LoadErr} (h_st : Kept kf z0 st) (hregs : ¬kf.regs) :
    Kept kf z0 (State.refuseLoad st num e) := by
  unfold State.refuseLoad
  with_reducible repeat' first
    | assumption
    | (extract_lets +onlyGivenNames x; refine Kept.cut kf z0 x ?_ (fun hx => ?_) <;> [subst x; clear_value x])
    | apply State.endCmd_kept
    | apply State.recordErr_kept
    | split

theorem State.failLoad_kept {st : State} {num : Option Nat} {e : LoadErr} {build : Nat} (h_st : Kept kf z0 st)
    (hregs : ¬kf.regs) :
    Kept kf z0 (State.failLoad st num e build) := by
  unfold State.failLoad
  with_reducible repeat' first
    | assumption
    | apply State.loadNotice_kept
    | apply State.refuseLoad_kept

theorem State.takeBuild_kept {st : State} {i : Image} (h_st : Kept kf z0 st) (hregs : ¬kf.regs) (hbrs : ¬kf.brs)
    (hfields : ¬kf.fields) :
    Kept kf z0 (State.takeBuild st i) := by
  unfold State.takeBuild
  with_reducible repeat' first
    | assumption
    | refine fun _ (_ : Kept _ _ _) => ?_
    | refine fun _ _ (_ : Kept _ _ _) => ?_
    | refine fun _ _ _ (_ : Kept _ _ _) => ?_
    | (extract_lets +onlyGivenNames x; first
        | (refine Kept.cut kf z0 x ?_ (fun hx => ?_) <;> [subst x; clear_value x])
        | clear_value x)
    | apply State.setField_kept
    | apply State.wf_kept
    | apply State.wn_kept
    | apply hF
    | apply Kept.ite
    | apply Kept.foldl
    | apply Kept.foldl₁
    | apply Kept.foldl₂
    | apply Kept.foldl₂₂
    | intro _
    | dsimp only
    | fail_if_no_progress (refine Kept.upd ?_)

theorem State.partRegs_kept {st : State} {i : Image} (h_st : Kept kf z0 st) (hregs : ¬kf.regs) :
    Kept kf z0 (State.partRegs st i) := by
  unfold State.partRegs
  with_reducible repeat' first
    | assumption
    | refine fun _ (_ : Kept _ _ _) => ?_
    | refine fun _ _ (_ : Kept _ _ _) => ?_
    | refine fun _ _ _ (_ : Kept _ _ _) => ?_
    | (extract_lets +onlyGivenNames x; first
        | (refine Kept.cut kf z0 x ?_ (fun hx => ?_) <;> [subst x; clear_value x])
        | clear_value x)
    | apply State.wf_kept
    | apply State.wn_kept
    | apply hF
    | apply Kept.ite
    | apply Kept.foldl

theorem State.firstRoutes_kept {st : State} {i : Image} (h_st : Kept kf z0 st) (hregs : ¬kf.regs)
    (hmesh : ¬kf.mesh) (hfields : ¬kf.fields) :
    Kept kf z0 (State.firstRoutes st i) := by
  unfold State.firstRoutes
  with_reducible repeat' first
    | assumption
    | refine fun _ (_ : Kept _ _ _) => ?_
    | refine fun _ _ (_ : Kept _ _ _) => ?_
    | refine fun _ _ _ (_ : Kept _ _ _) => ?_
    | (extract_lets +onlyGivenNames x; first
        | (refine Kept.cut kf z0 x ?_ (fun hx => ?_) <;> [subst x; clear_value x])
        | clear_value x)
    | apply State.loadRoutes_kept
    | apply State.setBank_kept
    | apply hF
    | apply Kept.ite
    | apply Kept.foldl
    | apply Kept.foldl₁
    | apply Kept.foldl₂
    | apply Kept.foldl₂₂
    | intro _
    | dsimp only
    | fail_if_no_progress (refine Kept.upd ?_)

theorem State.commitFull_kept {st : State} {i : Image} {source : Nat} {num : Option Nat} (h_st : Kept kf z0 st)
    (hregs : ¬kf.regs) (hcar : ¬kf.car) (hbrs : ¬kf.brs) (hmesh : ¬kf.mesh) (hfields : ¬kf.fields)
    (hflash : ¬kf.flash) (hleases : ¬kf.leases) :
    Kept kf z0 (State.commitFull st i source num) := by
  unfold State.commitFull
  with_reducible repeat' first
    | assumption
    | refine fun _ (_ : Kept _ _ _) => ?_
    | refine fun _ _ (_ : Kept _ _ _) => ?_
    | refine fun _ _ _ (_ : Kept _ _ _) => ?_
    | (extract_lets +onlyGivenNames x; first
        | (refine Kept.cut kf z0 x ?_ (fun hx => ?_) <;> [subst x; clear_value x])
        | (have : x.fuses = x.fuses := (by rfl); clear this; subst x)
        | clear_value x)
    | apply State.beginRise_kept
    | apply State.buildPower_kept
    | apply State.clearTallies_kept
    | apply State.clrb_kept
    | apply State.firstRoutes_kept
    | apply State.ledgerEvent_kept
    | apply State.loadEnd_kept
    | apply State.nodeEnter_kept
    | apply State.offUnless_kept
    | apply State.partRegs_kept
    | apply State.setPart_kept
    | apply State.setb_kept
    | apply State.takeBuild_kept
    | apply State.tbsUpdate_kept
    | apply State.unconfigure_kept
    | apply State.wf_kept
    | apply State.wn_kept
    | apply hF
    | apply Kept.ite
    | apply Kept.foldl
    | apply Kept.foldl₁
    | apply Kept.foldl₂
    | apply Kept.foldl₂₂
    | intro _
    | dsimp only
    | fail_if_no_progress (refine Kept.upd ?_)

theorem State.loadFull_kept {st : State} {i : Image} {source : Nat} {num : Option Nat} (h_st : Kept kf z0 st)
    (hregs : ¬kf.regs) (hcar : ¬kf.car) (hbrs : ¬kf.brs) (hmesh : ¬kf.mesh) (hfields : ¬kf.fields)
    (hflash : ¬kf.flash) (hleases : ¬kf.leases) :
    Kept kf z0 (State.loadFull st i source num) := by
  unfold State.loadFull
  with_reducible repeat' first
    | assumption
    | apply State.commitFull_kept
    | apply State.failLoad_kept
    | apply State.refuseLoad_kept
    | apply Kept.ite
    | split

theorem State.bootNote_kept {st : State} {s : Nat} (h_st : Kept kf z0 st) (hregs : ¬kf.regs) :
    Kept kf z0 (State.bootNote st s) := by
  unfold State.bootNote
  with_reducible repeat' first
    | assumption
    | apply State.failLoad_kept
    | apply State.recordErr_kept
    | split

theorem State.bootLoad_kept {st : State} (h_st : Kept kf z0 st) (hregs : ¬kf.regs) (hcar : ¬kf.car) (hbrs : ¬kf.brs)
    (hmesh : ¬kf.mesh) (hfields : ¬kf.fields) (hflash : ¬kf.flash) (hleases : ¬kf.leases) :
    Kept kf z0 (State.bootLoad st) := by
  unfold State.bootLoad
  with_reducible repeat' first
    | assumption
    | (extract_lets +onlyGivenNames x; first
        | (refine Kept.cut kf z0 x ?_ (fun hx => ?_) <;> [subst x; clear_value x])
        | clear_value x)
    | apply State.bootNote_kept
    | apply State.commitFull_kept
    | apply Kept.ite
    | split

theorem State.takePace_kept {st : State} {b : List Byte} (h_st : Kept kf z0 st) (hbrs : ¬kf.brs) :
    Kept kf z0 (State.takePace st b) := by
  unfold State.takePace
  with_reducible repeat' first
    | assumption
    | (extract_lets +onlyGivenNames x; clear_value x)
    | fail_if_no_progress (refine Kept.upd ?_)

theorem State.commitPartial_kept {st : State} {i : Image} {p : Nat} {num : Option Nat} (h_st : Kept kf z0 st)
    (hregs : ¬kf.regs) (hbrs : ¬kf.brs) (hleases : ¬kf.leases) :
    Kept kf z0 (State.commitPartial st i p num) := by
  unfold State.commitPartial
  with_reducible repeat' first
    | assumption
    | (extract_lets +onlyGivenNames x; first
        | (refine Kept.cut kf z0 x ?_ (fun hx => ?_) <;> [subst x; clear_value x])
        | clear_value x)
    | apply State.addSat_kept
    | apply State.beginRise_kept
    | apply State.ledgerEvent_kept
    | apply State.queueOns_kept
    | apply State.setb_kept
    | apply State.takePace_kept
    | apply State.wf_kept
    | apply State.wn_kept
    | apply hF
    | apply Kept.ite
    | intro _
    | dsimp only
    | fail_if_no_progress (refine Kept.upd ?_)

theorem State.loadPart_kept {st : State} {i : Image} {p num : Option Nat} (h_st : Kept kf z0 st) (hregs : ¬kf.regs)
    (hbrs : ¬kf.brs) (hleases : ¬kf.leases) :
    Kept kf z0 (State.loadPart st i p num) := by
  unfold State.loadPart
  with_reducible repeat' first
    | assumption
    | (extract_lets +onlyGivenNames x; clear_value x)
    | apply State.commitPartial_kept
    | apply State.failLoad_kept
    | apply State.refuseLoad_kept
    | apply Kept.ite
    | split

theorem State.rebind_kept {st : State} {i : Image} {num : Nat} (h_st : Kept kf z0 st) (hregs : ¬kf.regs)
    (hbrs : ¬kf.brs) :
    Kept kf z0 (State.rebind st i num) := by
  unfold State.rebind
  with_reducible repeat' first
    | assumption
    | (extract_lets +onlyGivenNames x; clear_value x)
    | apply State.endCmd_kept
    | apply State.refuseLoad_kept
    | apply State.setb_kept
    | apply Kept.ite
    | fail_if_no_progress (refine Kept.upd ?_)
    | split

theorem State.shapeRegs_kept {st : State} {fn s : Nat} {x : Shape} {on : Bool} (h_st : Kept kf z0 st)
    (hregs : ¬kf.regs) :
    Kept kf z0 (State.shapeRegs st fn s x on) := by
  unfold State.shapeRegs
  with_reducible repeat' first
    | assumption
    | (extract_lets +onlyGivenNames x; first
        | (refine Kept.cut kf z0 x ?_ (fun hx => ?_) <;> [subst x; clear_value x])
        | clear_value x)
    | apply State.wf_kept
    | apply State.wn_kept
    | apply Kept.ite

theorem State.takeCore_kept {st : State} {fn : Nat} {b : List Byte} (h_st : Kept kf z0 st) (hregs : ¬kf.regs) :
    Kept kf z0 (State.takeCore st fn b) := by
  unfold State.takeCore
  with_reducible repeat' first
    | assumption
    | refine fun _ _ (_ : Kept _ _ _) => ?_
    | (extract_lets +onlyGivenNames x; first
        | (refine Kept.cut kf z0 x ?_ (fun hx => ?_) <;> [subst x; clear_value x])
        | clear_value x)
    | apply State.shapeRegs_kept
    | apply State.wn_kept
    | apply Kept.foldl

theorem State.takeRamp_kept {st : State} {fn : Nat} {b : List Byte} (h_st : Kept kf z0 st) (hregs : ¬kf.regs)
    (hfields : ¬kf.fields) :
    Kept kf z0 (State.takeRamp st fn b) := by
  unfold State.takeRamp
  with_reducible repeat' first
    | assumption
    | refine fun _ (_ : Kept _ _ _) => ?_
    | refine fun _ _ (_ : Kept _ _ _) => ?_
    | refine fun _ _ _ (_ : Kept _ _ _) => ?_
    | (extract_lets +onlyGivenNames x; first
        | (refine Kept.cut kf z0 x ?_ (fun hx => ?_) <;> [subst x; clear_value x])
        | clear_value x)
    | apply State.setField_kept
    | apply State.setb_kept
    | apply State.wf_kept
    | apply State.wn_kept
    | apply hF
    | apply Kept.ite
    | apply Kept.foldl

theorem State.freshIsl_kept {kf : Facets} {z0 st : State} {fn s : Nat} {p : Bool} (h : Kept kf z0 st) (hisl : ¬kf.isl) :
    Kept kf z0 (State.freshIsl st fn s p) :=
  { h with
    canonical := fun w => { h.canonical w with isl := tableWf_tput _ (h.canonical w).isl }
    isl := fun a => absurd a hisl }

theorem State.takeIsland_kept {st : State} {fn : Nat} {b : List Byte} (h_st : Kept kf z0 st) (hregs : ¬kf.regs)
    (hbrs : ¬kf.brs) (hisl : ¬kf.isl) :
    Kept kf z0 (State.takeIsland st fn b) := by
  unfold State.takeIsland
  with_reducible repeat' first
    | assumption
    | refine fun _ _ (_ : Kept _ _ _) => ?_
    | (extract_lets +onlyGivenNames x; first
        | (refine Kept.cut kf z0 x ?_ (fun hx => ?_) <;> [subst x; clear_value x])
        | clear_value x)
    | apply State.clrb_kept
    | apply State.freshIsl_kept
    | apply State.wn_kept
    | apply Kept.ite
    | apply Kept.foldl
    | fail_if_no_progress (refine Kept.upd ?_)

theorem State.takeFrames_kept {st : State} {fn : Nat} {b : List Byte} (h_st : Kept kf z0 st) (hfields : ¬kf.fields) :
    Kept kf z0 (State.takeFrames st fn b) := by
  unfold State.takeFrames
  with_reducible repeat' first
    | assumption
    | (extract_lets +onlyGivenNames x; clear_value x)
    | apply State.setField_kept

theorem State.bindQueues_kept {st : State} {p : Nat} (h_st : Kept kf z0 st) (hregs : ¬kf.regs) :
    Kept kf z0 (State.bindQueues st p) := by
  unfold State.bindQueues
  with_reducible repeat' first
    | assumption
    | refine fun _ _ (_ : Kept _ _ _) => ?_
    | (extract_lets +onlyGivenNames x; clear_value x)
    | apply State.wf_kept
    | apply Kept.foldl

theorem State.fieldCommitted_kept {st : State} {fn : Nat} (h_st : Kept kf z0 st) (hregs : ¬kf.regs) (hbrs : ¬kf.brs) :
    Kept kf z0 (State.fieldCommitted st fn) := by
  unfold State.fieldCommitted
  with_reducible repeat' first
    | assumption
    | (extract_lets +onlyGivenNames x; first
        | (refine Kept.cut kf z0 x ?_ (fun hx => ?_) <;> [subst x; clear_value x])
        | clear_value x)
    | apply State.bindQueues_kept
    | apply State.ledgerEvent_kept
    | apply State.setLed_kept
    | apply State.setb_kept
    | apply State.wf_kept
    | apply Kept.ite

theorem State.loadField_kept {st : State} {fn : Nat} (h_st : Kept kf z0 st) (hregs : ¬kf.regs) (hcar : ¬kf.car)
    (hbrs : ¬kf.brs) (hmesh : ¬kf.mesh) (hcores : ¬kf.cores) (hfields : ¬kf.fields) (hisl : ¬kf.isl)
    (hkvl : ¬kf.kvl) (hmem : ¬kf.mem) :
    Kept kf z0 (State.loadField st fn) := by
  unfold State.loadField
  with_reducible repeat' first
    | assumption
    | refine fun _ (_ : Kept _ _ _) => ?_
    | refine fun _ _ (_ : Kept _ _ _) => ?_
    | refine fun _ _ _ (_ : Kept _ _ _) => ?_
    | (extract_lets +onlyGivenNames x; first
        | (refine Kept.cut kf z0 x ?_ (fun hx => ?_) <;> [subst x; clear_value x])
        | clear_value x)
    | apply State.fieldCommitted_kept
    | apply State.granuleRegs_kept
    | apply State.holdCores_kept
    | apply State.loadRoutes_kept
    | apply State.nodeEnter_kept
    | apply State.refresh_kept
    | apply State.riseOn_kept
    | apply State.setField_kept
    | apply State.setb_kept
    | apply State.takeCore_kept
    | apply State.takeFrames_kept
    | apply State.takeIsland_kept
    | apply State.takeRamp_kept
    | apply State.tbsUpdate_kept
    | apply State.tellersUp_kept
    | apply State.wf_kept
    | apply State.wn_kept
    | apply hF
    | apply Kept.ite
    | apply Kept.foldl
    | apply Kept.foldl₁
    | apply Kept.foldl₂
    | apply Kept.foldl₂₂
    | intro _
    | dsimp only
    | fail_if_no_progress (refine Kept.upd ?_)

theorem execLoadSlot_kept {it : Item} {st : State} (h_st : Kept kf z0 st) (hregs : ¬kf.regs) (hcar : ¬kf.car)
    (hbrs : ¬kf.brs) (hmesh : ¬kf.mesh) (hfields : ¬kf.fields) (hflash : ¬kf.flash) (hleases : ¬kf.leases) :
    KeptOut kf z0 (execLoadSlot it st) := by
  unfold execLoadSlot
  with_reducible repeat' first
    | assumption
    | refine fun _ _ (_ : Kept _ _ _) => ?_
    | apply State.endItem_kept
    | apply State.failLoad_kept
    | apply State.loadFull_kept
    | apply State.onItem_kept
    | apply State.refuseLoad_kept
    | apply Kept.ite
    | split

theorem State.noSource_kept {st : State} {num : Nat} (h_st : Kept kf z0 st) (hregs : ¬kf.regs) :
    Kept kf z0 (State.noSource st num) := by
  unfold State.noSource
  with_reducible repeat' first
    | assumption
    | apply State.failLoad_kept
    | apply State.refuseLoad_kept
    | apply Kept.ite

theorem execLoadBitstream_kept {it : Item} {img : Image} {st : State} (h_st : Kept kf z0 st) (hregs : ¬kf.regs)
    (hcar : ¬kf.car) (hbrs : ¬kf.brs) (hmesh : ¬kf.mesh) (hfields : ¬kf.fields) (hflash : ¬kf.flash)
    (hleases : ¬kf.leases) :
    KeptOut kf z0 (execLoadBitstream it img st) := by
  unfold execLoadBitstream
  with_reducible repeat' first
    | assumption
    | refine fun _ _ (_ : Kept _ _ _) => ?_
    | apply State.endItem_kept
    | apply State.loadFull_kept
    | apply State.loadPart_kept
    | apply State.noSource_kept
    | apply State.onItem_kept
    | apply State.rebind_kept
    | apply Kept.ite

theorem execLoadPartial_kept {it : Item} {img : Image} {st : State} (h_st : Kept kf z0 st) (hregs : ¬kf.regs)
    (hbrs : ¬kf.brs) (hleases : ¬kf.leases) :
    KeptOut kf z0 (execLoadPartial it img st) := by
  unfold execLoadPartial
  with_reducible repeat' first
    | assumption
    | refine fun _ _ (_ : Kept _ _ _) => ?_
    | apply State.loadPart_kept
    | apply State.noSource_kept
    | apply State.onItem_kept
    | apply Kept.ite

theorem State.waferLost_kept {kf : Facets} {z0 st : State} (h : Kept kf z0 st) (hregs : ¬kf.regs) (hcar : ¬kf.car)
    (hbrs : ¬kf.brs) (hmesh : ¬kf.mesh) (hcores : ¬kf.cores) (hfields : ¬kf.fields)
    (hisl : ¬kf.isl) (hkvl : ¬kf.kvl) (hleases : ¬kf.leases) (hmem : ¬kf.mem) (hnow : ¬kf.now) (hsnp : ¬kf.snp) :
    Kept kf z0 (State.waferLost st) := by
  unfold State.waferLost
  refine State.wf_kept (State.wr_kept { h with
    canonical := fun _ => ⟨by rfl, by rfl, by rfl, by rfl, by rfl, by rfl, by rfl, by rfl, by rfl, by rfl⟩
    mem := fun a => absurd a hmem
    now := fun a => absurd a hnow
    fields := fun a => absurd a hfields
    cores := fun a => absurd a hcores
    kvl := fun a => absurd a hkvl
    snp := fun a => absurd a hsnp
    isl := fun a => absurd a hisl
    regs := fun a => absurd a hregs
    car := fun a => absurd a hcar
    brs := fun a => absurd a hbrs
    mesh := fun a => absurd a hmesh
    leases := fun a => absurd a hleases } hregs) hregs

theorem State.enterRecovery_kept {st : State} (h_st : Kept kf z0 st) (hregs : ¬kf.regs) (hcar : ¬kf.car)
    (hbrs : ¬kf.brs) :
    Kept kf z0 (State.enterRecovery st) := by
  unfold State.enterRecovery
  with_reducible repeat' first
    | assumption
    | (extract_lets +onlyGivenNames x; first
        | (refine Kept.cut kf z0 x ?_ (fun hx => ?_) <;> [subst x; clear_value x])
        | clear_value x)
    | apply State.latchFault_kept
    | apply State.setb_kept
    | fail_if_no_progress (refine Kept.upd ?_)

theorem State.testBoot_kept {st : State} (h_st : Kept kf z0 st) (hbrs : ¬kf.brs) :
    Kept kf z0 (State.testBoot st) := by
  unfold State.testBoot
  with_reducible repeat' first
    | assumption
    | (extract_lets +onlyGivenNames x; clear_value x)
    | apply Kept.ite
    | fail_if_no_progress (refine Kept.upd ?_)

theorem State.checkTable_kept {st : State} (h_st : Kept kf z0 st) (hregs : ¬kf.regs) :
    Kept kf z0 (State.checkTable st) := by
  unfold State.checkTable
  with_reducible repeat' first
    | assumption
    | (extract_lets +onlyGivenNames x; clear_value x)
    | apply State.wf_kept
    | apply Kept.ite
    | split

theorem State.bootFirmware_kept {st : State} {anchor standby : Nat} (h_st : Kept kf z0 st) (hregs : ¬kf.regs)
    (hcar : ¬kf.car) (hbrs : ¬kf.brs) (hmesh : ¬kf.mesh) (hfields : ¬kf.fields) (hflash : ¬kf.flash)
    (hleases : ¬kf.leases) :
    Kept kf z0 (State.bootFirmware st anchor standby) := by
  unfold State.bootFirmware
  with_reducible repeat' first
    | assumption
    | (extract_lets +onlyGivenNames x; first
        | (refine Kept.cut kf z0 x ?_ (fun hx => ?_) <;> [subst x; clear_value x])
        | clear_value x)
    | apply State.bootLoad_kept
    | apply State.checkTable_kept
    | apply State.enterRecovery_kept
    | apply State.ledgerEvent_kept
    | apply State.pins_kept
    | apply State.setField_kept
    | apply State.setb_kept
    | apply State.testBoot_kept
    | apply State.wf_kept
    | apply Kept.ite
    | dsimp only
    | fail_if_no_progress (refine Kept.upd ?_)

theorem State.bootWafer_kept {st : State} (h_st : Kept kf z0 st) (hregs : ¬kf.regs) (hcar : ¬kf.car)
    (hbrs : ¬kf.brs) (hmesh : ¬kf.mesh) (hfields : ¬kf.fields) (hflash : ¬kf.flash) (hleases : ¬kf.leases)
    (hnow : ¬kf.now) :
    Kept kf z0 (State.bootWafer st) := by
  unfold State.bootWafer
  with_reducible repeat' first
    | assumption
    | refine fun _ (_ : Kept _ _ _) => ?_
    | refine fun _ _ (_ : Kept _ _ _) => ?_
    | refine fun _ _ _ (_ : Kept _ _ _) => ?_
    | (extract_lets +onlyGivenNames x; first
        | (refine Kept.cut kf z0 x ?_ (fun hx => ?_) <;> [subst x; clear_value x])
        | (have : x.fuses = x.fuses := (by rfl); clear this; subst x)
        | clear_value x)
    | apply State.baseOn_kept
    | apply State.bootFirmware_kept
    | apply State.nodeEnter_kept
    | apply State.notice_kept
    | apply State.setField_kept
    | apply State.setb_kept
    | apply State.tbsUpdate_kept
    | apply State.wf_kept
    | apply State.wn_kept
    | apply hF
    | apply Kept.ite
    | apply Kept.foldl
    | apply Kept.foldl₁
    | apply Kept.foldl₂
    | apply Kept.foldl₂₂
    | intro _
    | dsimp only
    | fail_if_no_progress (refine Kept.upd ?_)

theorem State.finishReset_kept {st : State} (h_st : Kept kf z0 st) (hregs : ¬kf.regs) (hcar : ¬kf.car)
    (hbrs : ¬kf.brs) (hmesh : ¬kf.mesh) (hfields : ¬kf.fields) (hflash : ¬kf.flash) (hleases : ¬kf.leases)
    (hnow : ¬kf.now) :
    Kept kf z0 (State.finishReset st) := by
  unfold State.finishReset
  with_reducible repeat' first
    | assumption
    | (extract_lets +onlyGivenNames x; clear_value x)
    | apply State.bootWafer_kept
    | apply State.latchFault_kept
    | apply State.setb_kept
    | apply State.wf_kept
    | apply State.wn_kept
    | apply Kept.ite
    | dsimp only
    | fail_if_no_progress (refine Kept.upd ?_)
    | split

theorem State.moduleReset_kept {st : State} {cause : Nat} (h_st : Kept kf z0 st) (hregs : ¬kf.regs) (hcar : ¬kf.car)
    (hbrs : ¬kf.brs) (hmesh : ¬kf.mesh) (hcores : ¬kf.cores) (hfields : ¬kf.fields) (hflash : ¬kf.flash)
    (hisl : ¬kf.isl) (hkvl : ¬kf.kvl) (hleases : ¬kf.leases) (hmem : ¬kf.mem) (hnow : ¬kf.now) (hsnp : ¬kf.snp) :
    Kept kf z0 (State.moduleReset st cause) := by
  unfold State.moduleReset
  with_reducible repeat' first
    | assumption
    | (extract_lets +onlyGivenNames x; first
        | (refine Kept.cut kf z0 x ?_ (fun hx => ?_) <;> [subst x; clear_value x])
        | (have : x.fuses = x.fuses := (by rfl); clear this; subst x))
    | apply State.finishReset_kept
    | apply State.waferLost_kept
    | apply Kept.ite
    | fail_if_no_progress (refine Kept.upd ?_)

theorem execPowerUp_kept {straps : Nat} {refClock : Bool} {st : State} (h_st : Kept kf z0 st) (hregs : ¬kf.regs)
    (hcar : ¬kf.car) (hbrs : ¬kf.brs) (hmesh : ¬kf.mesh) (hcores : ¬kf.cores) (hfields : ¬kf.fields)
    (hflash : ¬kf.flash) (hisl : ¬kf.isl) (hkvl : ¬kf.kvl) (hleases : ¬kf.leases) (hmem : ¬kf.mem) (hnow : ¬kf.now)
    (hsnp : ¬kf.snp) :
    KeptOut kf z0 (execPowerUp straps refClock st) := by
  unfold execPowerUp
  with_reducible repeat' first
    | assumption
    | (extract_lets +onlyGivenNames x; first
        | (refine Kept.cut kf z0 x ?_ (fun hx => ?_) <;> [subst x; clear_value x])
        | (have : x.fuses = x.fuses := (by rfl); clear this; subst x))
    | apply State.finishReset_kept
    | apply State.waferLost_kept
    | apply KeptOut.next
    | apply KeptOut.ite
    | fail_if_no_progress (refine Kept.upd ?_)

theorem State.switchOn_kept {st : State} {s : Switch} (h_st : Kept kf z0 st) (hregs : ¬kf.regs) (hcar : ¬kf.car)
    (hbrs : ¬kf.brs) (hmesh : ¬kf.mesh) (hcores : ¬kf.cores) (hfields : ¬kf.fields) (hisl : ¬kf.isl)
    (hkvl : ¬kf.kvl) (hmem : ¬kf.mem) (hsnp : ¬kf.snp) :
    Kept kf z0 (State.switchOn st s) := by
  unfold State.switchOn
  with_reducible repeat' first
    | assumption
    | (extract_lets +onlyGivenNames x; clear_value x)
    | apply State.baseOn_kept
    | apply State.computeOn_kept
    | apply State.setPower_kept
    | apply State.tbsUpdate_kept
    | apply State.wakeField_kept
    | apply hF
    | apply Kept.ite
    | intro _
    | dsimp only
    | fail_if_no_progress (refine Kept.upd ?_)
    | split

theorem execSequencingStep_kept {st : State} (h_st : Kept kf z0 st) (hregs : ¬kf.regs) (hcar : ¬kf.car)
    (hbrs : ¬kf.brs) (hmesh : ¬kf.mesh) (hcores : ¬kf.cores) (hfields : ¬kf.fields) (hisl : ¬kf.isl)
    (hkvl : ¬kf.kvl) (hmem : ¬kf.mem) (hnow : ¬kf.now) (hsnp : ¬kf.snp) :
    KeptOut kf z0 (execSequencingStep st) := by
  unfold execSequencingStep
  with_reducible repeat' first
    | assumption
    | refine fun _ (_ : Kept _ _ _) => ?_
    | refine fun _ _ (_ : Kept _ _ _) => ?_
    | refine fun _ _ _ (_ : Kept _ _ _) => ?_
    | (extract_lets +onlyGivenNames x; first
        | (refine Kept.cut kf z0 x ?_ (fun hx => ?_) <;> [subst x; clear_value x])
        | clear_value x)
    | apply State.riseOn_kept
    | apply State.switchOn_kept
    | apply State.until_kept
    | apply State.wf_kept
    | apply hF
    | apply Kept.ite
    | apply KeptOut.next
    | apply KeptOut.ite
    | apply Kept.foldl
    | apply Kept.foldl₁
    | apply Kept.foldl₂
    | apply Kept.foldl₂₂
    | intro _
    | dsimp only
    | fail_if_no_progress (refine Kept.upd ?_)

theorem execTimebaseJoin_kept {fn : Nat} {st : State} (h_st : Kept kf z0 st) (hregs : ¬kf.regs) (hcar : ¬kf.car)
    (hbrs : ¬kf.brs) (hmesh : ¬kf.mesh) (hcores : ¬kf.cores) (hfields : ¬kf.fields) (hisl : ¬kf.isl)
    (hkvl : ¬kf.kvl) (hmem : ¬kf.mem) (hsnp : ¬kf.snp) :
    KeptOut kf z0 (execTimebaseJoin fn st) := by
  unfold execTimebaseJoin
  with_reducible repeat' first
    | assumption
    | (extract_lets +onlyGivenNames x; first
        | (refine Kept.cut kf z0 x ?_ (fun hx => ?_) <;> [subst x; clear_value x])
        | clear_value x)
    | apply State.computeOn_kept
    | apply State.nodeEnter_kept
    | apply State.setField_kept
    | apply State.tbsUpdate_kept
    | apply State.wf_kept
    | apply hF
    | apply Kept.ite
    | apply KeptOut.next
    | apply KeptOut.ite

theorem State.switchOff_kept {st : State} {s : Switch} (h_st : Kept kf z0 st) (hregs : ¬kf.regs) (hcar : ¬kf.car)
    (hbrs : ¬kf.brs) (hmesh : ¬kf.mesh) (hcores : ¬kf.cores) (hfields : ¬kf.fields) (hisl : ¬kf.isl)
    (hkvl : ¬kf.kvl) (hmem : ¬kf.mem) (hsnp : ¬kf.snp) :
    Kept kf z0 (State.switchOff st s) := by
  unfold State.switchOff
  with_reducible repeat' first
    | assumption
    | (extract_lets +onlyGivenNames x; clear_value x)
    | apply State.tbsUpdate_kept
    | apply State.toBase_kept
    | apply State.toOff_kept
    | apply Kept.ite
    | split

theorem State.darken_kept {st : State} (h_st : Kept kf z0 st) (hregs : ¬kf.regs) (hcar : ¬kf.car) (hbrs : ¬kf.brs)
    (hmesh : ¬kf.mesh) (hcores : ¬kf.cores) (hfields : ¬kf.fields) (hflash : ¬kf.flash) (hisl : ¬kf.isl)
    (hkvl : ¬kf.kvl) (hleases : ¬kf.leases) (hmem : ¬kf.mem) (hnow : ¬kf.now) (hsnp : ¬kf.snp) :
    Kept kf z0 (State.darken st) := by
  unfold State.darken
  with_reducible repeat' first
    | assumption
    | (extract_lets +onlyGivenNames x; first
        | (refine Kept.cut kf z0 x ?_ (fun hx => ?_) <;> [subst x; clear_value x])
        | (have : x.fuses = x.fuses := (by rfl); clear this; subst x))
    | apply State.finishReset_kept
    | apply State.waferLost_kept
    | fail_if_no_progress (refine Kept.upd ?_)

theorem execSwitchOffStep_kept {st : State} (h_st : Kept kf z0 st) (hregs : ¬kf.regs) (hcar : ¬kf.car)
    (hbrs : ¬kf.brs) (hmesh : ¬kf.mesh) (hcores : ¬kf.cores) (hfields : ¬kf.fields) (hflash : ¬kf.flash)
    (hisl : ¬kf.isl) (hkvl : ¬kf.kvl) (hleases : ¬kf.leases) (hmem : ¬kf.mem) (hnow : ¬kf.now) (hsnp : ¬kf.snp) :
    KeptOut kf z0 (execSwitchOffStep st) := by
  unfold execSwitchOffStep
  with_reducible repeat' first
    | assumption
    | refine fun _ (_ : Kept _ _ _) => ?_
    | refine fun _ _ (_ : Kept _ _ _) => ?_
    | refine fun _ _ _ (_ : Kept _ _ _) => ?_
    | (extract_lets +onlyGivenNames x; first
        | (refine Kept.cut kf z0 x ?_ (fun hx => ?_) <;> [subst x; clear_value x])
        | clear_value x)
    | apply State.darken_kept
    | apply State.fallOn_kept
    | apply State.switchOff_kept
    | apply State.until_kept
    | apply hF
    | apply Kept.ite
    | apply KeptOut.next
    | apply KeptOut.ite
    | apply Kept.foldl
    | apply Kept.foldl₁
    | apply Kept.foldl₂
    | apply Kept.foldl₂₂
    | intro _
    | dsimp only
    | fail_if_no_progress (refine Kept.upd ?_)

theorem execEntrySample_kept {vin iin : Nat} {st : State} (h_st : Kept kf z0 st) (hregs : ¬kf.regs)
    (hcar : ¬kf.car) (hbrs : ¬kf.brs) (hmesh : ¬kf.mesh) (hcores : ¬kf.cores) (hfields : ¬kf.fields)
    (hflash : ¬kf.flash) (hisl : ¬kf.isl) (hleases : ¬kf.leases) (hmem : ¬kf.mem) (hnow : ¬kf.now) :
    KeptOut kf z0 (execEntrySample vin iin st) := by
  unfold execEntrySample
  with_reducible repeat' first
    | assumption
    | refine fun _ (_ : Kept _ _ _) => ?_
    | refine fun _ _ (_ : Kept _ _ _) => ?_
    | refine fun _ _ _ (_ : Kept _ _ _) => ?_
    | (extract_lets +onlyGivenNames x; first
        | (refine Kept.cut kf z0 x ?_ (fun hx => ?_) <;> [subst x; clear_value x])
        | (refine Kept.cutF₁ kf z0 x ?_ (fun hF => ?_) <;> [subst x; clear_value x])
        | (have : x.fuses = x.fuses := (by rfl); clear this; subst x)
        | clear_value x)
    | apply State.finishReset_kept
    | apply State.notice_kept
    | apply State.setb_kept
    | apply State.until_kept
    | apply State.wf_kept
    | apply hF
    | apply Kept.ite
    | apply KeptOut.next
    | apply KeptOut.ite
    | intro _
    | dsimp only
    | fail_if_no_progress (refine Kept.upd ?_)

theorem execCarrierTrip_kept {st : State} (h_st : Kept kf z0 st) (hregs : ¬kf.regs) (hcar : ¬kf.car)
    (hbrs : ¬kf.brs) (hmesh : ¬kf.mesh) (hcores : ¬kf.cores) (hfields : ¬kf.fields) (hisl : ¬kf.isl)
    (hkvl : ¬kf.kvl) (hleases : ¬kf.leases) (hmem : ¬kf.mem) (hnow : ¬kf.now) (hsnp : ¬kf.snp) :
    KeptOut kf z0 (execCarrierTrip st) := by
  unfold execCarrierTrip
  with_reducible repeat' first
    | assumption
    | (extract_lets +onlyGivenNames x; first
        | (refine Kept.cut kf z0 x ?_ (fun hx => ?_) <;> [subst x; clear_value x])
        | (have : x.fuses = x.fuses := (by rfl); clear this; subst x))
    | apply State.waferLost_kept
    | apply KeptOut.next
    | apply KeptOut.ite
    | fail_if_no_progress (refine Kept.upd ?_)
    | split

theorem execTripRecovery_kept {st : State} (h_st : Kept kf z0 st) (hregs : ¬kf.regs) (hcar : ¬kf.car)
    (hbrs : ¬kf.brs) (hmesh : ¬kf.mesh) (hcores : ¬kf.cores) (hfields : ¬kf.fields) (hflash : ¬kf.flash)
    (hisl : ¬kf.isl) (hkvl : ¬kf.kvl) (hleases : ¬kf.leases) (hmem : ¬kf.mem) (hnow : ¬kf.now) (hsnp : ¬kf.snp) :
    KeptOut kf z0 (execTripRecovery st) := by
  unfold execTripRecovery
  with_reducible repeat' first
    | assumption
    | (extract_lets +onlyGivenNames x; first
        | (refine Kept.cut kf z0 x ?_ (fun hx => ?_) <;> [subst x; clear_value x])
        | (have : x.fuses = x.fuses := (by rfl); clear this; subst x))
    | apply State.moduleReset_kept
    | apply KeptOut.next
    | apply KeptOut.ite
    | fail_if_no_progress (refine Kept.upd ?_)
    | split

theorem State.onPart_kept {st : State} {it : Item} {cop mop : Nat} {f : Started → Nat → State → State}
    (h_st : Kept kf z0 st) (h_f : ∀ v0 v1 v2, Kept kf z0 v2 → Kept kf z0 (f v0 v1 v2)) :
    KeptOut kf z0 (State.onPart st it cop mop f) := by
  unfold State.onPart
  with_reducible repeat' first
    | assumption
    | refine fun _ _ (_ : Kept _ _ _) => ?_
    | (extract_lets +onlyGivenNames x; clear_value x)
    | apply State.endCmd_kept
    | apply State.endItem_kept
    | apply State.onItem_kept
    | apply h_f
    | apply Kept.ite

theorem State.partBusy_kept {st : State} {num p : Nat} (h_st : Kept kf z0 st) (hregs : ¬kf.regs) :
    Kept kf z0 (State.partBusy st num p) := by
  unfold State.partBusy
  with_reducible repeat' first
    | assumption
    | apply State.endCmd_kept
    | apply State.wf_kept

theorem State.partWrong_kept {st : State} {num p : Nat} (h_st : Kept kf z0 st) :
    Kept kf z0 (State.partWrong st num p) := by
  unfold State.partWrong
  with_reducible repeat' first
    | assumption
    | apply State.endCmd_kept

theorem execPartStart_kept {it : Item} {st : State} (h_st : Kept kf z0 st) (hregs : ¬kf.regs) (hbrs : ¬kf.brs)
    (hleases : ¬kf.leases) :
    KeptOut kf z0 (execPartStart it st) := by
  unfold execPartStart
  with_reducible repeat' first
    | assumption
    | refine fun _ _ _ (_ : Kept _ _ _) => ?_
    | (extract_lets +onlyGivenNames x; first
        | (refine Kept.cut kf z0 x ?_ (fun hx => ?_) <;> [subst x; clear_value x])
        | clear_value x)
    | apply State.beginRise_kept
    | apply State.endItem_kept
    | apply State.onPart_kept
    | apply State.partBusy_kept
    | apply State.partWrong_kept
    | apply State.queueOns_kept
    | apply State.recordErr_kept
    | apply State.setPart_kept
    | apply State.wf_kept
    | apply Kept.ite

theorem execPartRetain_kept {it : Item} {st : State} (h_st : Kept kf z0 st) (hregs : ¬kf.regs) (hcar : ¬kf.car)
    (hbrs : ¬kf.brs) (hmesh : ¬kf.mesh) (hcores : ¬kf.cores) (hfields : ¬kf.fields) (hisl : ¬kf.isl)
    (hkvl : ¬kf.kvl) (hleases : ¬kf.leases) (hsnp : ¬kf.snp) :
    KeptOut kf z0 (execPartRetain it st) := by
  unfold execPartRetain
  with_reducible repeat' first
    | assumption
    | refine fun _ _ _ (_ : Kept _ _ _) => ?_
    | (extract_lets +onlyGivenNames x; first
        | (refine Kept.cut kf z0 x ?_ (fun hx => ?_) <;> [subst x; clear_value x])
        | clear_value x)
    | apply State.onPart_kept
    | apply State.partBusy_kept
    | apply State.partWrong_kept
    | apply State.retainOn_kept
    | apply State.setPart_kept
    | apply State.wf_kept
    | apply Kept.ite

theorem execRetainDrainTimeout_kept {p : Nat} {st : State} (h_st : Kept kf z0 st) (hregs : ¬kf.regs)
    (hcar : ¬kf.car) (hbrs : ¬kf.brs) (hmesh : ¬kf.mesh) (hcores : ¬kf.cores) (hfields : ¬kf.fields)
    (hisl : ¬kf.isl) (hkvl : ¬kf.kvl) (hleases : ¬kf.leases) (hmem : ¬kf.mem) (hnow : ¬kf.now) (hsnp : ¬kf.snp) :
    KeptOut kf z0 (execRetainDrainTimeout p st) := by
  unfold execRetainDrainTimeout
  with_reducible repeat' first
    | assumption
    | refine fun _ (_ : Kept _ _ _) => ?_
    | refine fun _ _ (_ : Kept _ _ _) => ?_
    | refine fun _ _ _ (_ : Kept _ _ _) => ?_
    | (extract_lets +onlyGivenNames x; clear_value x)
    | apply State.abandonSlot_kept
    | apply State.flushCore_kept
    | apply State.retainDone_kept
    | apply State.until_kept
    | apply State.wf_kept
    | apply hF
    | apply Kept.ite
    | apply KeptOut.next
    | apply KeptOut.ite
    | apply Kept.foldl
    | apply Kept.foldl₁
    | apply Kept.foldl₂
    | apply Kept.foldl₂₂
    | intro _
    | dsimp only
    | fail_if_no_progress (refine Kept.upd ?_)
    | split

theorem execPartWake_kept {it : Item} {st : State} (h_st : Kept kf z0 st) (hregs : ¬kf.regs) (hbrs : ¬kf.brs)
    (hleases : ¬kf.leases) :
    KeptOut kf z0 (execPartWake it st) := by
  unfold execPartWake
  with_reducible repeat' first
    | assumption
    | refine fun _ _ _ (_ : Kept _ _ _) => ?_
    | (extract_lets +onlyGivenNames x; first
        | (refine Kept.cut kf z0 x ?_ (fun hx => ?_) <;> [subst x; clear_value x])
        | clear_value x)
    | apply State.beginRise_kept
    | apply State.onPart_kept
    | apply State.partBusy_kept
    | apply State.partWrong_kept
    | apply State.queueOns_kept
    | apply State.setPart_kept
    | apply Kept.ite

theorem execRefClockLost_kept {st : State} (h_st : Kept kf z0 st) (hregs : ¬kf.regs) (hcar : ¬kf.car) :
    KeptOut kf z0 (execRefClockLost st) := by
  unfold execRefClockLost
  with_reducible repeat' first
    | assumption
    | refine fun _ (_ : Kept _ _ _) => ?_
    | refine fun _ _ (_ : Kept _ _ _) => ?_
    | refine fun _ _ _ (_ : Kept _ _ _) => ?_
    | (extract_lets +onlyGivenNames x; first
        | (refine Kept.cut kf z0 x ?_ (fun hx => ?_) <;> [subst x; clear_value x])
        | (have : x.fuses = x.fuses := (by rfl); clear this; subst x)
        | clear_value x)
    | apply State.nodeEnter_kept
    | apply State.notice_kept
    | apply State.setb_kept
    | apply State.tbsUpdate_kept
    | apply State.when_kept
    | apply hF
    | apply Kept.ite
    | apply KeptOut.next
    | apply KeptOut.ite
    | intro _
    | dsimp only
    | fail_if_no_progress (refine Kept.upd ?_)

theorem execRefClockRestored_kept {st : State} (h_st : Kept kf z0 st) (hregs : ¬kf.regs) (hcar : ¬kf.car) :
    KeptOut kf z0 (execRefClockRestored st) := by
  unfold execRefClockRestored
  with_reducible repeat' first
    | assumption
    | refine fun _ (_ : Kept _ _ _) => ?_
    | refine fun _ _ (_ : Kept _ _ _) => ?_
    | refine fun _ _ _ (_ : Kept _ _ _) => ?_
    | (extract_lets +onlyGivenNames x; first
        | (refine Kept.cut kf z0 x ?_ (fun hx => ?_) <;> [subst x; clear_value x])
        | (have : x.fuses = x.fuses := (by rfl); clear this; subst x)
        | clear_value x)
    | apply State.nodeEnter_kept
    | apply State.tbsUpdate_kept
    | apply State.when_kept
    | apply hF
    | apply Kept.ite
    | apply KeptOut.next
    | apply KeptOut.ite
    | intro _
    | dsimp only
    | fail_if_no_progress (refine Kept.upd ?_)

theorem execLinkSyncExchange_kept {fn : Nat} {offset : Int} {st : State} (h_st : Kept kf z0 st)
    (hregs : ¬kf.regs) (hcar : ¬kf.car) (hmesh : ¬kf.mesh) (hcores : ¬kf.cores) (hfields : ¬kf.fields)
    (hisl : ¬kf.isl) (hmem : ¬kf.mem) (hnow : ¬kf.now) :
    KeptOut kf z0 (execLinkSyncExchange fn offset st) := by
  unfold execLinkSyncExchange
  with_reducible repeat' first
    | assumption
    | refine fun _ (_ : Kept _ _ _) => ?_
    | refine fun _ _ (_ : Kept _ _ _) => ?_
    | refine fun _ _ _ (_ : Kept _ _ _) => ?_
    | (extract_lets +onlyGivenNames x; first
        | (refine Kept.cut kf z0 x ?_ (fun hx => ?_) <;> [subst x; clear_value x])
        | clear_value x)
    | apply State.setField_kept
    | apply State.setb_kept
    | apply State.tbsUpdate_kept
    | apply State.until_kept
    | apply State.wf_kept
    | apply State.when_kept
    | apply hF
    | apply Kept.ite
    | apply KeptOut.next

theorem execLockLoss_kept {fn : Nat} {st : State} (h_st : Kept kf z0 st) (hregs : ¬kf.regs)
    (hfields : ¬kf.fields) :
    KeptOut kf z0 (execLockLoss fn st) := by
  unfold execLockLoss
  with_reducible repeat' first
    | assumption
    | refine fun _ (_ : Kept _ _ _) => ?_
    | refine fun _ _ (_ : Kept _ _ _) => ?_
    | refine fun _ _ _ (_ : Kept _ _ _) => ?_
    | (extract_lets +onlyGivenNames x; first
        | (refine Kept.cut kf z0 x ?_ (fun hx => ?_) <;> [subst x; clear_value x])
        | clear_value x)
    | apply State.nodeEnter_kept
    | apply State.offer_kept
    | apply State.setField_kept
    | apply State.setb_kept
    | apply State.tbsUpdate_kept
    | apply State.when_kept
    | apply State.wn_kept
    | apply hF
    | apply Kept.ite
    | apply KeptOut.next
    | apply KeptOut.ite
    | apply Kept.foldl

theorem execRecouple_kept {it : Item} {locked : Bool} {st : State} (h_st : Kept kf z0 st) (hregs : ¬kf.regs)
    (hfields : ¬kf.fields) :
    KeptOut kf z0 (execRecouple it locked st) := by
  unfold execRecouple
  with_reducible repeat' first
    | assumption
    | refine fun _ (_ : Kept _ _ _) => ?_
    | refine fun _ _ (_ : Kept _ _ _) => ?_
    | refine fun _ _ _ (_ : Kept _ _ _) => ?_
    | (extract_lets +onlyGivenNames x; first
        | (refine Kept.cut kf z0 x ?_ (fun hx => ?_) <;> [subst x; clear_value x])
        | clear_value x)
    | apply State.endItem_kept
    | apply State.nodeEnter_kept
    | apply State.onItem_kept
    | apply State.setField_kept
    | apply State.setb_kept
    | apply State.tbsUpdate_kept
    | apply hF
    | apply Kept.ite

theorem execCaptureEdge_kept {fn input : Nat} {falling : Bool} {st : State} (h_st : Kept kf z0 st)
    (hregs : ¬kf.regs) (hfields : ¬kf.fields) :
    KeptOut kf z0 (execCaptureEdge fn input falling st) := by
  unfold execCaptureEdge
  with_reducible repeat' first
    | assumption
    | refine fun _ (_ : Kept _ _ _) => ?_
    | refine fun _ _ (_ : Kept _ _ _) => ?_
    | refine fun _ _ _ (_ : Kept _ _ _) => ?_
    | (extract_lets +onlyGivenNames x; first
        | (refine Kept.cut kf z0 x ?_ (fun hx => ?_) <;> [subst x; clear_value x])
        | clear_value x)
    | apply State.setField_kept
    | apply State.setb_kept
    | apply State.when_kept
    | apply State.wn_kept
    | apply hF
    | apply Kept.ite
    | apply KeptOut.next

theorem State.captRead_kept {st : State} {who : Who} {fn input : Nat} (h_st : Kept kf z0 st) (hregs : ¬kf.regs)
    (hfields : ¬kf.fields) :
    Kept kf z0 (State.captRead st who fn input) := by
  unfold State.captRead
  with_reducible repeat' first
    | assumption
    | (extract_lets +onlyGivenNames x; clear_value x)
    | apply State.accErr_kept
    | apply State.answer_kept
    | apply State.setField_kept
    | split

theorem execCaptureRead_kept {who : Who} {fn input : Nat} {st : State} (h_st : Kept kf z0 st) (hregs : ¬kf.regs)
    (hfields : ¬kf.fields) :
    KeptOut kf z0 (execCaptureRead who fn input st) := by
  unfold execCaptureRead
  with_reducible repeat' first
    | assumption
    | apply State.captRead_kept
    | apply Kept.ite
    | apply KeptOut.next

theorem execBeatmonWindowEnd_kept {fn beats : Nat} {st : State} (h_st : Kept kf z0 st) (hregs : ¬kf.regs)
    (hcar : ¬kf.car) (hmesh : ¬kf.mesh) (hcores : ¬kf.cores) (hfields : ¬kf.fields) (hisl : ¬kf.isl)
    (hmem : ¬kf.mem) (hnow : ¬kf.now) :
    KeptOut kf z0 (execBeatmonWindowEnd fn beats st) := by
  unfold execBeatmonWindowEnd
  with_reducible repeat' first
    | assumption
    | refine fun _ (_ : Kept _ _ _) => ?_
    | refine fun _ _ (_ : Kept _ _ _) => ?_
    | refine fun _ _ _ (_ : Kept _ _ _) => ?_
    | (extract_lets +onlyGivenNames x; first
        | (refine Kept.cut kf z0 x ?_ (fun hx => ?_) <;> [subst x; clear_value x])
        | clear_value x)
    | apply State.add_kept
    | apply State.setField_kept
    | apply State.until_kept
    | apply State.when_kept
    | apply State.wn_kept
    | apply hF
    | apply Kept.ite
    | apply KeptOut.next

theorem State.countBeats_kept {st : State} {fn : Nat} (h_st : Kept kf z0 st) (hregs : ¬kf.regs) :
    Kept kf z0 (State.countBeats st fn) := by
  unfold State.countBeats
  with_reducible repeat' first
    | assumption
    | (extract_lets +onlyGivenNames x; first
        | (refine Kept.cut kf z0 x ?_ (fun hx => ?_) <;> [subst x; clear_value x])
        | (refine Kept.cut kf z0 x.1 ?_ (fun hx => ?_) <;> [subst x; clear_value x])
        | (refine Kept.cut kf z0 x.2 ?_ (fun hx => ?_) <;> [subst x; clear_value x])
        | (refine Kept.cut kf z0 x.2.2 ?_ (fun hx => ?_) <;> [subst x; clear_value x])
        | (refine Kept.cutF kf z0 x ?_ (fun hF => ?_) <;> [subst x; clear_value x])
        | (refine Kept.cutF₁ kf z0 x ?_ (fun hF => ?_) <;> [subst x; clear_value x])
        | (refine Kept.cutF₂ kf z0 x ?_ (fun hF => ?_) <;> [subst x; clear_value x])
        | (refine Kept.cutP kf z0 x ?_ (fun hF => ?_) <;> [subst x; clear_value x])
        | (refine Kept.cutA kf z0 x ?_ (fun hF => ?_) <;> [subst x; clear_value x])
        | (have : x.fuses = x.fuses := (by rfl); clear this; subst x)
        | clear_value x)
    | apply State.add_kept
    | apply State.draw_kept
    | apply hF
    | apply Kept.ite
    | intro _
    | dsimp only
    | fail_if_no_progress (refine Kept.upd ?_)
    | split

theorem State.beatmonWrite_kept {st : State} {who : Who} {fn value : Nat} (h_st : Kept kf z0 st)
    (hregs : ¬kf.regs) (hfields : ¬kf.fields) :
    Kept kf z0 (State.beatmonWrite st who fn value) := by
  unfold State.beatmonWrite
  with_reducible repeat' first
    | assumption
    | refine fun _ (_ : Kept _ _ _) => ?_
    | refine fun _ _ (_ : Kept _ _ _) => ?_
    | refine fun _ _ _ (_ : Kept _ _ _) => ?_
    | (extract_lets +onlyGivenNames x; first
        | (refine Kept.cut kf z0 x ?_ (fun hx => ?_) <;> [subst x; clear_value x])
        | (refine Kept.cut kf z0 x.1 ?_ (fun hx => ?_) <;> [subst x; clear_value x])
        | (refine Kept.cut kf z0 x.2 ?_ (fun hx => ?_) <;> [subst x; clear_value x])
        | (refine Kept.cut kf z0 x.2.2 ?_ (fun hx => ?_) <;> [subst x; clear_value x])
        | (refine Kept.cutF kf z0 x ?_ (fun hF => ?_) <;> [subst x; clear_value x])
        | (refine Kept.cutF₁ kf z0 x ?_ (fun hF => ?_) <;> [subst x; clear_value x])
        | (refine Kept.cutF₂ kf z0 x ?_ (fun hF => ?_) <;> [subst x; clear_value x])
        | (refine Kept.cutP kf z0 x ?_ (fun hF => ?_) <;> [subst x; clear_value x])
        | (refine Kept.cutA kf z0 x ?_ (fun hF => ?_) <;> [subst x; clear_value x])
        | (have : x.fuses = x.fuses := (by rfl); clear this; subst x)
        | clear_value x)
    | apply State.clrb_kept
    | apply State.countBeats_kept
    | apply State.fieldWrite_kept
    | apply State.setField_kept
    | apply State.wf_kept
    | apply hF
    | apply Kept.ite
    | intro _
    | dsimp only
    | fail_if_no_progress (refine Kept.upd ?_)
    | split

theorem execBeatmonCtlWrite_kept {who : Who} {fn value : Nat} {st : State} (h_st : Kept kf z0 st) (hregs : ¬kf.regs)
    (hfields : ¬kf.fields) :
    KeptOut kf z0 (execBeatmonCtlWrite who fn value st) := by
  unfold execBeatmonCtlWrite
  with_reducible repeat' first
    | assumption
    | apply State.beatmonWrite_kept
    | apply KeptOut.next

theorem execPaceMarkArrival_kept {fn : Nat} {m : Msg} {st : State} (h_st : Kept kf z0 st) (hregs : ¬kf.regs)
    (hmesh : ¬kf.mesh) (hfields : ¬kf.fields) :
    KeptOut kf z0 (execPaceMarkArrival fn m st) := by
  unfold execPaceMarkArrival
  with_reducible repeat' first
    | assumption
    | refine fun _ (_ : Kept _ _ _) => ?_
    | (extract_lets +onlyGivenNames x; clear_value x)
    | apply State.addSat_kept
    | apply State.onArrived_kept
    | apply State.setField_kept
    | apply Kept.ite
    | apply KeptOut.next
    | apply KeptOut.ite
    | dsimp only
    | split

theorem State.paceStep_kept {st : State} {fn t : Nat} {r : RailReading} (h_st : Kept kf z0 st) (hregs : ¬kf.regs)
    (hcar : ¬kf.car) (hfields : ¬kf.fields) :
    Kept kf z0 (State.paceStep st fn t r) := by
  unfold State.paceStep
  with_reducible repeat' first
    | assumption
    | (extract_lets +onlyGivenNames x; first
        | (refine Kept.cut kf z0 x ?_ (fun hx => ?_) <;> [subst x; clear_value x])
        | clear_value x)
    | apply State.addSat_kept
    | apply State.latchPolicy_kept
    | apply State.moduleCapBit_kept
    | apply State.notice_kept
    | apply State.pins_kept
    | apply State.setField_kept
    | apply State.setRail_kept
    | apply State.setb_kept
    | apply State.wf_kept
    | apply State.wn_kept
    | apply Kept.ite

theorem execPaceStep_kept {fn : Nat} {r : RailReading} {st : State} (h_st : Kept kf z0 st) (hregs : ¬kf.regs)
    (hcar : ¬kf.car) (hmesh : ¬kf.mesh) (hcores : ¬kf.cores) (hfields : ¬kf.fields) (hisl : ¬kf.isl)
    (hmem : ¬kf.mem) (hnow : ¬kf.now) :
    KeptOut kf z0 (execPaceStep fn r st) := by
  unfold execPaceStep
  with_reducible repeat' first
    | assumption
    | refine fun _ (_ : Kept _ _ _) => ?_
    | refine fun _ _ (_ : Kept _ _ _) => ?_
    | refine fun _ _ _ (_ : Kept _ _ _) => ?_
    | (extract_lets +onlyGivenNames x; first
        | (refine Kept.cut kf z0 x ?_ (fun hx => ?_) <;> [subst x; clear_value x])
        | clear_value x)
    | apply State.paceStep_kept
    | apply State.until_kept
    | apply State.when_kept
    | apply hF
    | apply Kept.ite
    | apply KeptOut.next

theorem execPaceFault_kept {fn : Nat} {st : State} (h_st : Kept kf z0 st) (hregs : ¬kf.regs) (hcar : ¬kf.car)
    (hmesh : ¬kf.mesh) (hcores : ¬kf.cores) (hfields : ¬kf.fields) (hisl : ¬kf.isl) (hmem : ¬kf.mem)
    (hnow : ¬kf.now) :
    KeptOut kf z0 (execPaceFault fn st) := by
  unfold execPaceFault
  with_reducible repeat' first
    | assumption
    | refine fun _ (_ : Kept _ _ _) => ?_
    | refine fun _ _ (_ : Kept _ _ _) => ?_
    | refine fun _ _ _ (_ : Kept _ _ _) => ?_
    | (extract_lets +onlyGivenNames x; first
        | (refine Kept.cut kf z0 x ?_ (fun hx => ?_) <;> [subst x; clear_value x])
        | clear_value x)
    | apply State.fault_kept
    | apply State.setField_kept
    | apply State.setRail_kept
    | apply State.setb_kept
    | apply State.until_kept
    | apply State.when_kept
    | apply hF
    | apply Kept.ite
    | apply KeptOut.next

theorem State.policyErr_kept {st : State} {fn : Nat} (h_st : Kept kf z0 st) (hregs : ¬kf.regs) :
    Kept kf z0 (State.policyErr st fn) := by
  unfold State.policyErr
  with_reducible repeat' first
    | assumption
    | apply State.setb_kept

theorem State.stagePolicy_kept {st : State} {fn : Nat} {slack : Bool} {value : Nat} (h_st : Kept kf z0 st)
    (hregs : ¬kf.regs) (hfields : ¬kf.fields) :
    Kept kf z0 (State.stagePolicy st fn slack value) := by
  unfold State.stagePolicy
  with_reducible repeat' first
    | assumption
    | (extract_lets +onlyGivenNames x; clear_value x)
    | apply State.policyErr_kept
    | apply State.setField_kept
    | apply hF
    | apply Kept.ite

theorem State.policyWrite_kept {st : State} {who : Who} {fn : Nat} {slack : Bool} {value : Nat}
    (h_st : Kept kf z0 st) (hregs : ¬kf.regs) (hfields : ¬kf.fields) :
    Kept kf z0 (State.policyWrite st who fn slack value) := by
  unfold State.policyWrite
  with_reducible repeat' first
    | assumption
    | refine fun _ (_ : Kept _ _ _) => ?_
    | apply State.fieldWrite_kept
    | apply State.stagePolicy_kept

theorem execPacePolicyWrite_kept {who : Who} {fn : Nat} {slack : Bool} {value : Nat} {st : State}
    (h_st : Kept kf z0 st) (hregs : ¬kf.regs) (hfields : ¬kf.fields) :
    KeptOut kf z0 (execPacePolicyWrite who fn slack value st) := by
  unfold execPacePolicyWrite
  with_reducible repeat' first
    | assumption
    | apply State.policyWrite_kept
    | apply KeptOut.next

theorem State.commonPolicy_kept {st : State} {fn due : Nat} {pol slack : Word} (h_st : Kept kf z0 st)
    (hregs : ¬kf.regs) (hfields : ¬kf.fields) :
    Kept kf z0 (State.commonPolicy st fn due pol slack) := by
  unfold State.commonPolicy
  with_reducible repeat' first
    | assumption
    | (extract_lets +onlyGivenNames x; first
        | (refine Kept.cut kf z0 x ?_ (fun hx => ?_) <;> [subst x; clear_value x])
        | clear_value x)
    | apply State.policyErr_kept
    | apply State.setField_kept
    | apply hF
    | apply Kept.ite

theorem State.partPolicyWrite_kept {st : State} {who : Who} {p value : Nat} (h_st : Kept kf z0 st)
    (hregs : ¬kf.regs) (hfields : ¬kf.fields) :
    Kept kf z0 (State.partPolicyWrite st who p value) := by
  unfold State.partPolicyWrite
  with_reducible repeat' first
    | assumption
    | refine fun _ _ (_ : Kept _ _ _) => ?_
    | (extract_lets +onlyGivenNames x; first
        | (refine Kept.cut kf z0 x ?_ (fun hx => ?_) <;> [subst x; clear_value x])
        | clear_value x)
    | apply State.accErr_kept
    | apply State.commonPolicy_kept
    | apply State.policyErr_kept
    | apply State.wr_kept
    | apply Kept.ite
    | apply Kept.foldl

theorem execPartPolicyWrite_kept {who : Who} {p value : Nat} {st : State} (h_st : Kept kf z0 st) (hregs : ¬kf.regs)
    (hfields : ¬kf.fields) :
    KeptOut kf z0 (execPartPolicyWrite who p value st) := by
  unfold execPartPolicyWrite
  with_reducible repeat' first
    | assumption
    | apply State.partPolicyWrite_kept
    | apply Kept.ite
    | apply KeptOut.next

theorem State.plimitWrite_kept {st : State} {who : Who} {fn value : Nat} (h_st : Kept kf z0 st) (hregs : ¬kf.regs) :
    Kept kf z0 (State.plimitWrite st who fn value) := by
  unfold State.plimitWrite
  with_reducible repeat' first
    | assumption
    | refine fun _ (_ : Kept _ _ _) => ?_
    | (extract_lets +onlyGivenNames x; clear_value x)
    | apply State.fieldWrite_kept
    | apply State.policyErr_kept
    | apply State.wf_kept
    | apply Kept.ite

theorem execPlimitWrite_kept {who : Who} {fn value : Nat} {st : State} (h_st : Kept kf z0 st) (hregs : ¬kf.regs) :
    KeptOut kf z0 (execPlimitWrite who fn value st) := by
  unfold execPlimitWrite
  with_reducible repeat' first
    | assumption
    | apply State.plimitWrite_kept
    | apply KeptOut.next

theorem State.chaffWrite_kept {st : State} {who : Who} {fn n value : Nat} (h_st : Kept kf z0 st) (hregs : ¬kf.regs) :
    Kept kf z0 (State.chaffWrite st who fn n value) := by
  unfold State.chaffWrite
  with_reducible repeat' first
    | assumption
    | refine fun _ (_ : Kept _ _ _) => ?_
    | (extract_lets +onlyGivenNames x; clear_value x)
    | apply State.fieldWrite_kept
    | apply State.policyErr_kept
    | apply State.wf_kept
    | apply Kept.ite

theorem execChaffCtlWrite_kept {who : Who} {fn n value : Nat} {st : State} (h_st : Kept kf z0 st) (hregs : ¬kf.regs) :
    KeptOut kf z0 (execChaffCtlWrite who fn n value st) := by
  unfold execChaffCtlWrite
  with_reducible repeat' first
    | assumption
    | apply State.chaffWrite_kept
    | apply Kept.ite
    | apply KeptOut.next

theorem State.retireOff_kept {st : State} {fn : Nat} (h_st : Kept kf z0 st) (hregs : ¬kf.regs) (hcar : ¬kf.car)
    (hbrs : ¬kf.brs) (hmesh : ¬kf.mesh) (hcores : ¬kf.cores) (hfields : ¬kf.fields) (hflash : ¬kf.flash)
    (hisl : ¬kf.isl) (hkvl : ¬kf.kvl) (hmem : ¬kf.mem) (hsnp : ¬kf.snp) :
    Kept kf z0 (State.retireOff st fn) := by
  unfold State.retireOff
  with_reducible repeat' first
    | assumption
    | (extract_lets +onlyGivenNames x; first
        | (refine Kept.cut kf z0 x ?_ (fun hx => ?_) <;> [subst x; clear_value x])
        | (have : x.fuses = x.fuses := (by rfl); clear this; subst x)
        | clear_value x)
    | apply State.fallOn_kept
    | apply State.ledgerEvent_kept
    | apply State.markRetired_kept
    | apply State.partCount_kept
    | apply State.setField_kept
    | apply State.setLed_kept
    | apply State.tbsUpdate_kept
    | apply State.toOff_kept
    | apply hF
    | apply Kept.ite
    | intro _
    | dsimp only
    | fail_if_no_progress (refine Kept.upd ?_)

theorem State.lateFail_kept {st : State} {code fn : Nat} (h_st : Kept kf z0 st) (hregs : ¬kf.regs)
    (hbrs : ¬kf.brs) :
    Kept kf z0 (State.lateFail st code fn) := by
  unfold State.lateFail
  with_reducible repeat' first
    | assumption
    | (extract_lets +onlyGivenNames x; first
        | (refine Kept.cut kf z0 x ?_ (fun hx => ?_) <;> [subst x; clear_value x])
        | clear_value x)
    | apply State.recordErr_kept
    | apply hF
    | apply Kept.ite
    | intro _
    | dsimp only
    | fail_if_no_progress (refine Kept.upd ?_)

theorem State.narrowWait_kept {st : State} {fn s a : Nat} (h_st : Kept kf z0 st) (hregs : ¬kf.regs)
    (hcar : ¬kf.car) (hmesh : ¬kf.mesh) (hcores : ¬kf.cores) (hfields : ¬kf.fields) (hisl : ¬kf.isl)
    (hmem : ¬kf.mem) (hnow : ¬kf.now) :
    Kept kf z0 (State.narrowWait st fn s a) := by
  unfold State.narrowWait
  with_reducible repeat' first
    | assumption
    | apply State.until_kept
    | apply Kept.ite
    | dsimp only
    | fail_if_no_progress (refine Kept.upd ?_)
    | split

theorem State.narrowStore_kept {st : State} {fn t a value : Nat} (h_st : Kept kf z0 st) (hregs : ¬kf.regs)
    (hcar : ¬kf.car) (hmesh : ¬kf.mesh) (hcores : ¬kf.cores) (hfields : ¬kf.fields) (hisl : ¬kf.isl)
    (hmem : ¬kf.mem) (hnow : ¬kf.now) :
    Kept kf z0 (State.narrowStore st fn t a value) := by
  unfold State.narrowStore
  with_reducible repeat' first
    | assumption
    | apply State.coreWrite_kept
    | apply State.narrowWait_kept
    | apply Kept.ite
    | dsimp only
    | fail_if_no_progress (refine Kept.upd ?_)
    | split

theorem State.narrowLoad_kept {st : State} {fn t a : Nat} (h_st : Kept kf z0 st) (hregs : ¬kf.regs)
    (hcar : ¬kf.car) (hmesh : ¬kf.mesh) (hcores : ¬kf.cores) (hfields : ¬kf.fields) (hisl : ¬kf.isl)
    (hmem : ¬kf.mem) (hnow : ¬kf.now) :
    Kept kf z0 (State.narrowLoad st fn t a) := by
  unfold State.narrowLoad
  with_reducible repeat' first
    | assumption
    | (extract_lets +onlyGivenNames x; clear_value x)
    | apply State.endItem_kept
    | apply State.fault_kept
    | apply State.narrowRead_kept
    | apply State.narrowWait_kept
    | apply hF
    | apply Kept.ite
    | intro _
    | dsimp only
    | fail_if_no_progress (refine Kept.upd ?_)
    | split

theorem State.captCtlWrite_kept {st : State} {fn : Nat} {v : Word} (h_st : Kept kf z0 st) (hregs : ¬kf.regs)
    (hfields : ¬kf.fields) :
    Kept kf z0 (State.captCtlWrite st fn v) := by
  unfold State.captCtlWrite
  with_reducible repeat' first
    | assumption
    | (extract_lets +onlyGivenNames x; first
        | (refine Kept.cut kf z0 x ?_ (fun hx => ?_) <;> [subst x; clear_value x])
        | clear_value x)
    | apply State.setField_kept
    | apply State.wn_kept

end Sys2Proof.Machine
end

