-- ==== Sys2Proof/Laws/KeptService.lean ====
section
/-! SUPPORT. What recovery, watchdogs, the host, Kevenlink and failover keep (see Kept.lean). -/

namespace Sys2Proof.Machine

set_option Elab.async false

set_option linter.unusedVariables false

variable {kf : Facets} {z0 : State}

theorem State.copyClose_kept {st : State} {x : Started} (h_st : Kept kf z0 st) (hregs : ¬kf.regs) (hbrs : ¬kf.brs)
    (hmesh : ¬kf.mesh) :
    Kept kf z0 (State.copyClose st x) := by
  unfold State.copyClose
  with_reducible repeat' first
    | assumption
    | refine fun _ _ (_ : Kept _ _ _) => ?_
    | (extract_lets +onlyGivenNames x; clear_value x)
    | apply State.setGrant_kept
    | apply State.setPart_kept
    | apply Kept.foldl
    | dsimp only
    | split

theorem State.postItems_kept {st : State} {p : Nat} {y0 : Nat} (h_st : Kept kf z0 st) (hregs : ¬kf.regs)
    (hbrs : ¬kf.brs) (hmesh : ¬kf.mesh) :
    Kept kf z0 (State.postItems st p y0) := by
  induction y0 generalizing st p <;> unfold State.postItems
  on_goal 2 => rename_i ih
  all_goals with_reducible repeat' first
    | assumption
    | apply State.completeItem_kept
    | apply State.copyClose_kept
    | apply ih
    | apply Kept.ite
    | dsimp only
    | fail_if_no_progress (refine Kept.upd ?_)
    | split

theorem State.takeDown_kept {st : State} {p cause status : Nat} {cmd : Option Nat} (h_st : Kept kf z0 st)
    (hregs : ¬kf.regs) (hcar : ¬kf.car) (hbrs : ¬kf.brs) (hmesh : ¬kf.mesh) (hcores : ¬kf.cores)
    (hfields : ¬kf.fields) (hisl : ¬kf.isl) (hkvl : ¬kf.kvl) (hleases : ¬kf.leases) (hsnp : ¬kf.snp) :
    Kept kf z0 (State.takeDown st p cause status cmd) := by
  unfold State.takeDown
  with_reducible repeat' first
    | assumption
    | refine fun _ (_ : Kept _ _ _) => ?_
    | refine fun _ _ (_ : Kept _ _ _) => ?_
    | refine fun _ _ _ (_ : Kept _ _ _) => ?_
    | (extract_lets +onlyGivenNames x; first
        | (refine Kept.cut kf z0 x ?_ (fun hx => ?_) <;> [subst x; clear_value x])
        | (refine Kept.cut kf z0 x.1 ?_ (fun hx => ?_) <;> [subst x; clear_value x])
        | (refine Kept.cut kf z0 x.2 ?_ (fun hx => ?_) <;> [subst x; clear_value x])
        | (refine Kept.cut kf z0 x.2.2 ?_ (fun hx => ?_) <;> [subst x; clear_value x])
        | (refine Kept.cutF kf z0 x ?_ (fun hF => ?_) <;> [subst x; clear_value x])
        | (refine Kept.cutF₁ kf z0 x ?_ (fun hF => ?_) <;> [subst x; clear_value x])
        | (refine Kept.cutF₂ kf z0 x ?_ (fun hF => ?_) <;> [subst x; clear_value x])
        | (refine Kept.cutP kf z0 x ?_ (fun hF => ?_) <;> [subst x; clear_value x])
        | (refine Kept.cutA kf z0 x ?_ (fun hF => ?_) <;> [subst x; clear_value x])
        | (have : x.fuses = x.fuses := (by rfl); clear this; subst x)
        | clear_value x)
    | apply State.abandonSlot_kept
    | apply State.addSat_kept
    | apply State.clrb_kept
    | apply State.endLoadOf_kept
    | apply State.endPart_kept
    | apply State.fallOn_kept
    | apply State.flushCore_kept
    | apply State.flushQueue_kept
    | apply State.kvlLeave_kept
    | apply State.partEnter_kept
    | apply State.postItems_kept
    | apply State.quarantineAll_kept
    | apply State.setPart_kept
    | apply State.snpDownPort_kept
    | apply State.wf_kept
    | apply State.wn_kept
    | apply hF
    | apply Kept.ite
    | apply Kept.foldl
    | apply Kept.foldl₁
    | apply Kept.foldl₂
    | apply Kept.foldl₂₂
    | intro _
    | dsimp only
    | fail_if_no_progress (refine Kept.upd ?_)
    | split

theorem State.bursarDown_kept {st : State} {p cause status cls fn d0 d1 : Nat} (h_st : Kept kf z0 st)
    (hregs : ¬kf.regs) (hcar : ¬kf.car) (hbrs : ¬kf.brs) (hmesh : ¬kf.mesh) (hcores : ¬kf.cores)
    (hfields : ¬kf.fields) (hisl : ¬kf.isl) (hkvl : ¬kf.kvl) (hleases : ¬kf.leases) (hsnp : ¬kf.snp) :
    Kept kf z0 (State.bursarDown st p cause status cls fn d0 d1) := by
  unfold State.bursarDown
  with_reducible repeat' first
    | assumption
    | apply State.fault_kept
    | apply State.takeDown_kept
    | apply Kept.ite

theorem State.retireOne_kept {st : State} {fn cause down status : Nat} (h_st : Kept kf z0 st) (hregs : ¬kf.regs)
    (hcar : ¬kf.car) (hbrs : ¬kf.brs) (hmesh : ¬kf.mesh) (hcores : ¬kf.cores) (hfields : ¬kf.fields)
    (hflash : ¬kf.flash) (hisl : ¬kf.isl) (hkvl : ¬kf.kvl) (hleases : ¬kf.leases) (hmem : ¬kf.mem)
    (hsnp : ¬kf.snp) :
    Kept kf z0 (State.retireOne st fn cause down status) := by
  unfold State.retireOne
  with_reducible repeat' first
    | assumption
    | refine fun _ (_ : Kept _ _ _) => ?_
    | refine fun _ _ (_ : Kept _ _ _) => ?_
    | refine fun _ _ _ (_ : Kept _ _ _) => ?_
    | (extract_lets +onlyGivenNames x; first
        | (refine Kept.cut kf z0 x ?_ (fun hx => ?_) <;> [subst x; clear_value x])
        | clear_value x)
    | apply State.abandonSlot_kept
    | apply State.fault_kept
    | apply State.quarantineAll_kept
    | apply State.retireOff_kept
    | apply State.setField_kept
    | apply State.takeDown_kept
    | apply hF
    | apply Kept.ite
    | apply Kept.foldl
    | apply Kept.foldl₁
    | apply Kept.foldl₂
    | apply Kept.foldl₂₂
    | intro _
    | dsimp only
    | fail_if_no_progress (refine Kept.upd ?_)

theorem State.retireField_kept {st : State} {fn cause down status : Nat} (h_st : Kept kf z0 st)
    (hregs : ¬kf.regs) (hcar : ¬kf.car) (hbrs : ¬kf.brs) (hmesh : ¬kf.mesh) (hcores : ¬kf.cores)
    (hfields : ¬kf.fields) (hflash : ¬kf.flash) (hisl : ¬kf.isl) (hkvl : ¬kf.kvl) (hleases : ¬kf.leases)
    (hmem : ¬kf.mem) (hsnp : ¬kf.snp) :
    Kept kf z0 (State.retireField st fn cause down status) := by
  unfold State.retireField
  with_reducible repeat' first
    | assumption
    | refine fun _ (_ : Kept _ _ _) => ?_
    | refine fun _ _ (_ : Kept _ _ _) => ?_
    | refine fun _ _ _ (_ : Kept _ _ _) => ?_
    | (extract_lets +onlyGivenNames x; first
        | (refine Kept.cut kf z0 x ?_ (fun hx => ?_) <;> [subst x; clear_value x])
        | clear_value x)
    | apply State.retireOne_kept
    | apply hF
    | apply Kept.ite
    | apply Kept.foldl

theorem State.upFailure_kept {st : State} {fn cause : Nat} (h_st : Kept kf z0 st) (hregs : ¬kf.regs)
    (hcar : ¬kf.car) (hbrs : ¬kf.brs) (hmesh : ¬kf.mesh) (hcores : ¬kf.cores) (hfields : ¬kf.fields)
    (hflash : ¬kf.flash) (hisl : ¬kf.isl) (hkvl : ¬kf.kvl) (hleases : ¬kf.leases) (hmem : ¬kf.mem) (hsnp : ¬kf.snp) :
    Kept kf z0 (State.upFailure st fn cause) := by
  unfold State.upFailure
  with_reducible repeat' first
    | assumption
    | (extract_lets +onlyGivenNames x; refine Kept.cut kf z0 x ?_ (fun hx => ?_) <;> [subst x; clear_value x])
    | apply State.retireField_kept
    | apply State.wf_kept

theorem execFieldFramesWrite_kept {fn failure : Nat} {st : State} (h_st : Kept kf z0 st) (hregs : ¬kf.regs)
    (hcar : ¬kf.car) (hbrs : ¬kf.brs) (hmesh : ¬kf.mesh) (hcores : ¬kf.cores) (hfields : ¬kf.fields)
    (hisl : ¬kf.isl) (hkvl : ¬kf.kvl) (hleases : ¬kf.leases) (hmem : ¬kf.mem) (hsnp : ¬kf.snp) :
    KeptOut kf z0 (execFieldFramesWrite fn failure st) := by
  unfold execFieldFramesWrite
  with_reducible repeat' first
    | assumption
    | (extract_lets +onlyGivenNames x; first
        | (refine Kept.cut kf z0 x ?_ (fun hx => ?_) <;> [subst x; clear_value x])
        | clear_value x)
    | apply State.bursarDown_kept
    | apply State.lateFail_kept
    | apply State.loadField_kept
    | apply hF
    | apply Kept.ite
    | apply KeptOut.next
    | apply KeptOut.ite

theorem execTransitFieldWrite_kept {fn failure : Nat} {st : State} (h_st : Kept kf z0 st) (hregs : ¬kf.regs)
    (hcar : ¬kf.car) (hbrs : ¬kf.brs) (hmesh : ¬kf.mesh) (hcores : ¬kf.cores) (hfields : ¬kf.fields)
    (hflash : ¬kf.flash) (hisl : ¬kf.isl) (hkvl : ¬kf.kvl) (hleases : ¬kf.leases) (hmem : ¬kf.mem)
    (hsnp : ¬kf.snp) :
    KeptOut kf z0 (execTransitFieldWrite fn failure st) := by
  unfold execTransitFieldWrite
  with_reducible repeat' first
    | assumption
    | refine fun _ (_ : Kept _ _ _) => ?_
    | refine fun _ _ (_ : Kept _ _ _) => ?_
    | refine fun _ _ _ (_ : Kept _ _ _) => ?_
    | (extract_lets +onlyGivenNames x; first
        | (refine Kept.cut kf z0 x ?_ (fun hx => ?_) <;> [subst x; clear_value x])
        | clear_value x)
    | apply State.bursarDown_kept
    | apply State.fieldCommitted_kept
    | apply State.lateFail_kept
    | apply State.loadRoutes_kept
    | apply State.retireField_kept
    | apply State.riseOn_kept
    | apply State.takeFrames_kept
    | apply hF
    | apply Kept.ite
    | apply KeptOut.next
    | apply KeptOut.ite
    | apply Kept.foldl

theorem execTimebaseJoinFailure_kept {fn : Nat} {st : State} (h_st : Kept kf z0 st) (hregs : ¬kf.regs)
    (hcar : ¬kf.car) (hbrs : ¬kf.brs) (hmesh : ¬kf.mesh) (hcores : ¬kf.cores) (hfields : ¬kf.fields)
    (hflash : ¬kf.flash) (hisl : ¬kf.isl) (hkvl : ¬kf.kvl) (hleases : ¬kf.leases) (hmem : ¬kf.mem)
    (hnow : ¬kf.now) (hsnp : ¬kf.snp) :
    KeptOut kf z0 (execTimebaseJoinFailure fn st) := by
  unfold execTimebaseJoinFailure
  with_reducible repeat' first
    | assumption
    | apply State.until_kept
    | apply State.upFailure_kept
    | apply Kept.ite
    | apply KeptOut.next
    | apply KeptOut.ite

theorem execEmergencyPowerDown_kept {st : State} (h_st : Kept kf z0 st) (hregs : ¬kf.regs) (hcar : ¬kf.car)
    (hbrs : ¬kf.brs) (hmesh : ¬kf.mesh) (hcores : ¬kf.cores) (hfields : ¬kf.fields) (hisl : ¬kf.isl)
    (hkvl : ¬kf.kvl) (hleases : ¬kf.leases) (hsnp : ¬kf.snp) :
    KeptOut kf z0 (execEmergencyPowerDown st) := by
  unfold execEmergencyPowerDown
  with_reducible repeat' first
    | assumption
    | refine fun _ _ (_ : Kept _ _ _) => ?_
    | (extract_lets +onlyGivenNames x; first
        | (refine Kept.cut kf z0 x ?_ (fun hx => ?_) <;> [subst x; clear_value x])
        | (have : x.fuses = x.fuses := (by rfl); clear this; subst x)
        | clear_value x)
    | apply State.latchFault_kept
    | apply State.notice_kept
    | apply State.setb_kept
    | apply State.takeDown_kept
    | apply State.wf_kept
    | apply KeptOut.next
    | apply KeptOut.ite
    | apply Kept.foldl
    | fail_if_no_progress (refine Kept.upd ?_)

theorem State.stopPart_kept {st : State} {x : Started} {p cause : Nat} (h_st : Kept kf z0 st) (hregs : ¬kf.regs)
    (hcar : ¬kf.car) (hbrs : ¬kf.brs) (hmesh : ¬kf.mesh) (hcores : ¬kf.cores) (hfields : ¬kf.fields)
    (hisl : ¬kf.isl) (hkvl : ¬kf.kvl) (hleases : ¬kf.leases) (hsnp : ¬kf.snp) :
    Kept kf z0 (State.stopPart st x p cause) := by
  unfold State.stopPart
  with_reducible repeat' first
    | assumption
    | apply State.endCmd_kept
    | apply State.partWrong_kept
    | apply State.takeDown_kept
    | apply Kept.ite

theorem execPartStop_kept {it : Item} {st : State} (h_st : Kept kf z0 st) (hregs : ¬kf.regs) (hcar : ¬kf.car)
    (hbrs : ¬kf.brs) (hmesh : ¬kf.mesh) (hcores : ¬kf.cores) (hfields : ¬kf.fields) (hisl : ¬kf.isl)
    (hkvl : ¬kf.kvl) (hleases : ¬kf.leases) (hsnp : ¬kf.snp) :
    KeptOut kf z0 (execPartStop it st) := by
  unfold execPartStop
  with_reducible repeat' first
    | assumption
    | refine fun _ _ _ (_ : Kept _ _ _) => ?_
    | apply State.onPart_kept
    | apply State.stopPart_kept

theorem execPartReset_kept {it : Item} {st : State} (h_st : Kept kf z0 st) (hregs : ¬kf.regs) (hcar : ¬kf.car)
    (hbrs : ¬kf.brs) (hmesh : ¬kf.mesh) (hcores : ¬kf.cores) (hfields : ¬kf.fields) (hisl : ¬kf.isl)
    (hkvl : ¬kf.kvl) (hleases : ¬kf.leases) (hsnp : ¬kf.snp) :
    KeptOut kf z0 (execPartReset it st) := by
  unfold execPartReset
  with_reducible repeat' first
    | assumption
    | refine fun _ _ _ (_ : Kept _ _ _) => ?_
    | apply State.onPart_kept
    | apply State.stopPart_kept

theorem State.trip_kept {st : State} {fn : Nat} {tj : Int} (h_st : Kept kf z0 st) (hregs : ¬kf.regs)
    (hcar : ¬kf.car) (hbrs : ¬kf.brs) (hmesh : ¬kf.mesh) (hcores : ¬kf.cores) (hfields : ¬kf.fields)
    (hflash : ¬kf.flash) (hisl : ¬kf.isl) (hkvl : ¬kf.kvl) (hleases : ¬kf.leases) (hmem : ¬kf.mem) (hsnp : ¬kf.snp) :
    Kept kf z0 (State.trip st fn tj) := by
  unfold State.trip
  with_reducible repeat' first
    | assumption
    | refine fun _ _ (_ : Kept _ _ _) => ?_
    | (extract_lets +onlyGivenNames x; first
        | (refine Kept.cut kf z0 x ?_ (fun hx => ?_) <;> [subst x; clear_value x])
        | clear_value x)
    | apply State.abandonSlot_kept
    | apply State.bursarDown_kept
    | apply State.fault_kept
    | apply State.pins_kept
    | apply State.quarantineAll_kept
    | apply State.retireField_kept
    | apply State.setField_kept
    | apply State.setb_kept
    | apply State.toBase_kept
    | apply Kept.ite
    | apply Kept.foldl

theorem execThermalTrip_kept {fn : Nat} {tj : Int} {st : State} (h_st : Kept kf z0 st) (hregs : ¬kf.regs)
    (hcar : ¬kf.car) (hbrs : ¬kf.brs) (hmesh : ¬kf.mesh) (hcores : ¬kf.cores) (hfields : ¬kf.fields)
    (hflash : ¬kf.flash) (hisl : ¬kf.isl) (hkvl : ¬kf.kvl) (hleases : ¬kf.leases) (hmem : ¬kf.mem) (hsnp : ¬kf.snp) :
    KeptOut kf z0 (execThermalTrip fn tj st) := by
  unfold execThermalTrip
  with_reducible repeat' first
    | assumption
    | (extract_lets +onlyGivenNames x; clear_value x)
    | apply State.setField_kept
    | apply State.trip_kept
    | apply Kept.ite
    | apply KeptOut.next
    | apply KeptOut.ite

theorem State.holdSlot_kept {st : State} {fn s : Nat} (h_st : Kept kf z0 st) (hregs : ¬kf.regs) (hmesh : ¬kf.mesh)
    (hcores : ¬kf.cores) (hisl : ¬kf.isl) :
    Kept kf z0 (State.holdSlot st fn s) := by
  unfold State.holdSlot
  with_reducible repeat' first
    | assumption
    | (extract_lets +onlyGivenNames x; first
        | (refine Kept.cut kf z0 x ?_ (fun hx => ?_) <;> [subst x; clear_value x])
        | clear_value x)
    | apply State.abandonSlot_kept
    | apply State.flushCore_kept
    | apply State.setCore_kept
    | apply Kept.ite

theorem State.stopOwner_kept {st : State} {fn a : Nat} (h_st : Kept kf z0 st) (hregs : ¬kf.regs)
    (hmesh : ¬kf.mesh) (hcores : ¬kf.cores) (hisl : ¬kf.isl) :
    Kept kf z0 (State.stopOwner st fn a) := by
  unfold State.stopOwner
  with_reducible repeat' first
    | assumption
    | refine fun _ (_ : Kept _ _ _) => ?_
    | refine fun _ _ (_ : Kept _ _ _) => ?_
    | refine fun _ _ _ (_ : Kept _ _ _) => ?_
    | apply State.holdSlot_kept
    | apply State.islDown_kept
    | apply Kept.ite
    | apply Kept.foldl

theorem State.releaseOwner_kept {st : State} {fn a : Nat} (h_st : Kept kf z0 st) (hregs : ¬kf.regs)
    (hcar : ¬kf.car) (hmesh : ¬kf.mesh) (hcores : ¬kf.cores) (hisl : ¬kf.isl) (hmem : ¬kf.mem) :
    Kept kf z0 (State.releaseOwner st fn a) := by
  unfold State.releaseOwner
  with_reducible repeat' first
    | assumption
    | refine fun _ (_ : Kept _ _ _) => ?_
    | refine fun _ _ (_ : Kept _ _ _) => ?_
    | refine fun _ _ _ (_ : Kept _ _ _) => ?_
    | apply State.islUp_kept
    | apply State.setCore_kept
    | apply State.ssGoOn_kept
    | apply Kept.ite
    | apply Kept.foldl

theorem State.scrubNext_kept {st : State} {fn : Nat} (h_st : Kept kf z0 st) (hregs : ¬kf.regs) (hfields : ¬kf.fields) :
    Kept kf z0 (State.scrubNext st fn) := by
  unfold State.scrubNext
  with_reducible repeat' first
    | assumption
    | (extract_lets +onlyGivenNames x; first
        | (refine Kept.cut kf z0 x ?_ (fun hx => ?_) <;> [subst x; clear_value x])
        | clear_value x)
    | apply State.add_kept
    | apply State.setField_kept
    | apply Kept.ite

theorem execScrubFrame_kept {fn corrected : Nat} {bad : Bool} {st : State} (h_st : Kept kf z0 st)
    (hregs : ¬kf.regs) (hcar : ¬kf.car) (hmesh : ¬kf.mesh) (hcores : ¬kf.cores) (hfields : ¬kf.fields)
    (hisl : ¬kf.isl) (hmem : ¬kf.mem) (hnow : ¬kf.now) :
    KeptOut kf z0 (execScrubFrame fn corrected bad st) := by
  unfold execScrubFrame
  with_reducible repeat' first
    | assumption
    | refine fun _ (_ : Kept _ _ _) => ?_
    | refine fun _ _ (_ : Kept _ _ _) => ?_
    | refine fun _ _ _ (_ : Kept _ _ _) => ?_
    | (extract_lets +onlyGivenNames x; first
        | (refine Kept.cut kf z0 x ?_ (fun hx => ?_) <;> [subst x; clear_value x])
        | clear_value x)
    | apply State.addSat_kept
    | apply State.scrubNext_kept
    | apply State.setField_kept
    | apply State.stopOwner_kept
    | apply State.until_kept
    | apply State.wf_kept
    | apply State.when_kept
    | apply State.wn_kept
    | apply hF
    | apply Kept.ite
    | apply KeptOut.next

theorem execCfgRepairComplete_kept {fn : Nat} {ok : Bool} {st : State} (h_st : Kept kf z0 st) (hregs : ¬kf.regs)
    (hcar : ¬kf.car) (hbrs : ¬kf.brs) (hmesh : ¬kf.mesh) (hcores : ¬kf.cores) (hfields : ¬kf.fields)
    (hisl : ¬kf.isl) (hkvl : ¬kf.kvl) (hleases : ¬kf.leases) (hmem : ¬kf.mem) (hsnp : ¬kf.snp) :
    KeptOut kf z0 (execCfgRepairComplete fn ok st) := by
  unfold execCfgRepairComplete
  with_reducible repeat' first
    | assumption
    | refine fun _ (_ : Kept _ _ _) => ?_
    | refine fun _ _ (_ : Kept _ _ _) => ?_
    | refine fun _ _ _ (_ : Kept _ _ _) => ?_
    | (extract_lets +onlyGivenNames x; clear_value x)
    | apply State.bursarDown_kept
    | apply State.fault_kept
    | apply State.releaseOwner_kept
    | apply State.setField_kept
    | apply hF
    | apply Kept.ite
    | apply KeptOut.next
    | apply KeptOut.ite
    | apply Kept.foldl
    | apply Kept.foldl₁
    | apply Kept.foldl₂
    | apply Kept.foldl₂₂
    | intro _
    | dsimp only
    | fail_if_no_progress (refine Kept.upd ?_)
    | split

theorem State.setSliceMap_kept {st : State} {fn g v : Nat} (h_st : Kept kf z0 st) (hregs : ¬kf.regs) :
    Kept kf z0 (State.setSliceMap st fn g v) := by
  unfold State.setSliceMap
  with_reducible repeat' first
    | assumption
    | apply State.wf_kept

theorem State.patchFrames_kept {st : State} {fn : Nat} {e : SpareEnt} (h_st : Kept kf z0 st) (hfields : ¬kf.fields) :
    Kept kf z0 (State.patchFrames st fn e) := by
  unfold State.patchFrames
  with_reducible repeat' first
    | assumption
    | (extract_lets +onlyGivenNames x; clear_value x)
    | apply State.setField_kept

theorem State.applyPatch_kept {st : State} {fn s : Nat} {e : SpareEnt} (h_st : Kept kf z0 st) (hregs : ¬kf.regs)
    (hbrs : ¬kf.brs) (hcores : ¬kf.cores) (hfields : ¬kf.fields) :
    Kept kf z0 (State.applyPatch st fn s e) := by
  unfold State.applyPatch
  with_reducible repeat' first
    | assumption
    | refine fun _ (_ : Kept _ _ _) => ?_
    | refine fun _ _ (_ : Kept _ _ _) => ?_
    | refine fun _ _ _ (_ : Kept _ _ _) => ?_
    | (extract_lets +onlyGivenNames x; first
        | (refine Kept.cut kf z0 x ?_ (fun hx => ?_) <;> [subst x; clear_value x])
        | clear_value x)
    | apply State.add_kept
    | apply State.ledgerEvent_kept
    | apply State.patchFrames_kept
    | apply State.setCore_kept
    | apply State.setField_kept
    | apply State.setLed_kept
    | apply State.setSliceMap_kept

theorem State.loseSlot_kept {st : State} {fn s first : Nat} (h_st : Kept kf z0 st) (hregs : ¬kf.regs)
    (hcar : ¬kf.car) (hmesh : ¬kf.mesh) (hcores : ¬kf.cores) (hleases : ¬kf.leases) :
    Kept kf z0 (State.loseSlot st fn s first) := by
  unfold State.loseSlot
  with_reducible repeat' first
    | assumption
    | (extract_lets +onlyGivenNames x; first
        | (refine Kept.cut kf z0 x ?_ (fun hx => ?_) <;> [subst x; clear_value x])
        | clear_value x)
    | apply State.abandonSlot_kept
    | apply State.fault_kept
    | apply State.quarantineAll_kept
    | apply State.refresh_kept
    | apply State.setCore_kept
    | apply State.setb_kept

theorem State.unlocalised_kept {st : State} {fn s first verdict resid : Nat} (h_st : Kept kf z0 st)
    (hregs : ¬kf.regs) (hcar : ¬kf.car) (hmesh : ¬kf.mesh) (hcores : ¬kf.cores) (hfields : ¬kf.fields)
    (hleases : ¬kf.leases) :
    Kept kf z0 (State.unlocalised st fn s first verdict resid) := by
  unfold State.unlocalised
  with_reducible repeat' first
    | assumption
    | (extract_lets +onlyGivenNames x; first
        | (refine Kept.cut kf z0 x ?_ (fun hx => ?_) <;> [subst x; clear_value x])
        | clear_value x)
    | apply State.fault_kept
    | apply State.loseSlot_kept
    | apply State.setField_kept
    | apply Kept.ite

theorem State.patchFlush_kept {st : State} {fn s : Nat} (h_st : Kept kf z0 st) (hregs : ¬kf.regs)
    (hmesh : ¬kf.mesh) (hcores : ¬kf.cores) (hisl : ¬kf.isl) :
    Kept kf z0 (State.patchFlush st fn s) := by
  unfold State.patchFlush
  with_reducible repeat' first
    | assumption
    | apply State.abandonSlot_kept
    | apply State.flushCore_kept

theorem State.retirePositions_kept {st : State} {fn s unit first resid : Nat} {entries : List Nat}
    (h_st : Kept kf z0 st) (hregs : ¬kf.regs) (hcar : ¬kf.car) (hbrs : ¬kf.brs) (hmesh : ¬kf.mesh)
    (hcores : ¬kf.cores) (hfields : ¬kf.fields) (hisl : ¬kf.isl) (hleases : ¬kf.leases) :
    Kept kf z0 (State.retirePositions st fn s unit first resid entries) := by
  unfold State.retirePositions
  with_reducible repeat' first
    | assumption
    | refine fun _ _ (_ : Kept _ _ _) => ?_
    | (extract_lets +onlyGivenNames x; first
        | (refine Kept.cut kf z0 x ?_ (fun hx => ?_) <;> [subst x; clear_value x])
        | clear_value x)
    | apply State.applyPatch_kept
    | apply State.csClear_kept
    | apply State.fault_kept
    | apply State.loseSlot_kept
    | apply State.patchFlush_kept
    | apply Kept.foldl
    | dsimp only
    | split

theorem State.softVerdict_kept {st : State} {fn s key unit first verdict resid : Nat} {entries : List Nat}
    (h_st : Kept kf z0 st) (hregs : ¬kf.regs) (hcar : ¬kf.car) (hbrs : ¬kf.brs) (hmesh : ¬kf.mesh)
    (hcores : ¬kf.cores) (hfields : ¬kf.fields) (hisl : ¬kf.isl) (hleases : ¬kf.leases) :
    Kept kf z0 (State.softVerdict st fn s key unit first verdict resid entries) := by
  unfold State.softVerdict
  with_reducible repeat' first
    | assumption
    | (extract_lets +onlyGivenNames x; first
        | (refine Kept.cut kf z0 x ?_ (fun hx => ?_) <;> [subst x; clear_value x])
        | clear_value x)
    | apply State.csClear_kept
    | apply State.fault_kept
    | apply State.retirePositions_kept
    | apply State.setField_kept
    | apply Kept.ite

theorem State.actOnVerdict_kept {st : State} {fn s : Nat} {f : Frozen} (h_st : Kept kf z0 st) (hregs : ¬kf.regs)
    (hcar : ¬kf.car) (hbrs : ¬kf.brs) (hmesh : ¬kf.mesh) (hcores : ¬kf.cores) (hfields : ¬kf.fields)
    (hisl : ¬kf.isl) (hleases : ¬kf.leases) :
    Kept kf z0 (State.actOnVerdict st fn s f) := by
  unfold State.actOnVerdict
  with_reducible repeat' first
    | assumption
    | (extract_lets +onlyGivenNames x; clear_value x)
    | apply State.csClear_kept
    | apply State.fault_kept
    | apply State.retirePositions_kept
    | apply State.softVerdict_kept
    | apply State.unlocalised_kept
    | split

theorem State.actOnMv_kept {st : State} {fn s : Nat} (h_st : Kept kf z0 st) (hregs : ¬kf.regs) (hcar : ¬kf.car)
    (hbrs : ¬kf.brs) (hmesh : ¬kf.mesh) (hcores : ¬kf.cores) (hfields : ¬kf.fields) (hisl : ¬kf.isl) (hleases : ¬kf.leases) :
    Kept kf z0 (State.actOnMv st fn s) := by
  unfold State.actOnMv
  with_reducible repeat' first
    | assumption
    | (extract_lets +onlyGivenNames x; clear_value x)
    | apply State.csClear_kept
    | apply State.softVerdict_kept
    | apply State.unlocalised_kept
    | split

theorem execColumnRetirement_kept {fn s : Nat} {st : State} (h_st : Kept kf z0 st) (hregs : ¬kf.regs)
    (hcar : ¬kf.car) (hbrs : ¬kf.brs) (hmesh : ¬kf.mesh) (hcores : ¬kf.cores) (hfields : ¬kf.fields)
    (hisl : ¬kf.isl) (hleases : ¬kf.leases) :
    KeptOut kf z0 (execColumnRetirement fn s st) := by
  unfold execColumnRetirement
  with_reducible repeat' first
    | assumption
    | refine fun _ (_ : Kept _ _ _) => ?_
    | apply State.actOnMv_kept
    | apply State.actOnVerdict_kept
    | apply State.when_kept
    | apply Kept.ite
    | apply KeptOut.next
    | split

theorem execCommandRetirement_kept {fn s cls : Nat} {st : State} (h_st : Kept kf z0 st) (hregs : ¬kf.regs)
    (hcar : ¬kf.car) (hbrs : ¬kf.brs) (hmesh : ¬kf.mesh) (hcores : ¬kf.cores) (hfields : ¬kf.fields)
    (hisl : ¬kf.isl) (hkvl : ¬kf.kvl) (hleases : ¬kf.leases) (hmem : ¬kf.mem) (hsnp : ¬kf.snp) :
    KeptOut kf z0 (execCommandRetirement fn s cls st) := by
  unfold execCommandRetirement
  with_reducible repeat' first
    | assumption
    | refine fun _ (_ : Kept _ _ _) => ?_
    | apply State.ctrlTail_kept
    | apply State.retainOn_kept
    | apply State.retire_kept
    | apply State.when_kept
    | apply Kept.ite
    | apply KeptOut.next

theorem State.noteRecord_kept {st : State} {fn s : Nat} {v : Word} (h_st : Kept kf z0 st) (hregs : ¬kf.regs) :
    Kept kf z0 (State.noteRecord st fn s v) := by
  unfold State.noteRecord
  with_reducible repeat' first
    | assumption
    | (extract_lets +onlyGivenNames x; clear_value x)
    | apply State.endItem_kept
    | apply State.modItem_kept
    | apply State.tellerItems_kept
    | apply hF
    | apply Kept.ite
    | intro _
    | dsimp only
    | fail_if_no_progress (refine Kept.upd ?_)
    | split

theorem State.retireTake_kept {st : State} {who : Who} {fn s : Nat} (h_st : Kept kf z0 st) (hregs : ¬kf.regs)
    (hcores : ¬kf.cores) :
    Kept kf z0 (State.retireTake st who fn s) := by
  unfold State.retireTake
  with_reducible repeat' first
    | assumption
    | (extract_lets +onlyGivenNames x; clear_value x)
    | apply State.accErr_kept
    | apply State.answer_kept
    | apply State.noteRecord_kept
    | apply State.putCore_kept
    | apply Kept.ite
    | split

theorem execRetireRead_kept {who : Who} {fn s : Nat} {st : State} (h_st : Kept kf z0 st) (hregs : ¬kf.regs)
    (hcores : ¬kf.cores) :
    KeptOut kf z0 (execRetireRead who fn s st) := by
  unfold execRetireRead
  with_reducible repeat' first
    | assumption
    | apply State.retireTake_kept
    | apply KeptOut.next

theorem State.granuleMove_kept {st : State} {fn g : Nat} (h_st : Kept kf z0 st) (hregs : ¬kf.regs)
    (hleases : ¬kf.leases) :
    Kept kf z0 (State.granuleMove st fn g) := by
  unfold State.granuleMove
  with_reducible repeat' first
    | assumption
    | apply State.endItem_kept
    | apply State.grantLease_kept
    | apply State.granuleRegs_kept
    | dsimp only
    | split

theorem State.reclaim_kept {st : State} {l : Lease} (h_st : Kept kf z0 st) (hregs : ¬kf.regs) (hcar : ¬kf.car)
    (hmesh : ¬kf.mesh) (hcores : ¬kf.cores) (hkvl : ¬kf.kvl) (hleases : ¬kf.leases) (hsnp : ¬kf.snp) :
    Kept kf z0 (State.reclaim st l) := by
  unfold State.reclaim
  with_reducible repeat' first
    | assumption
    | refine fun _ (_ : Kept _ _ _) => ?_
    | refine fun _ _ (_ : Kept _ _ _) => ?_
    | refine fun _ _ _ (_ : Kept _ _ _) => ?_
    | (extract_lets +onlyGivenNames x; first
        | (refine Kept.cut kf z0 x ?_ (fun hx => ?_) <;> [subst x; clear_value x])
        | clear_value x)
    | apply State.cacheDropGranule_kept
    | apply State.dropFlits_kept
    | apply State.granuleMove_kept
    | apply State.granuleRegs_kept
    | apply State.kvlDown_kept
    | apply State.setWindow_kept
    | apply State.snpDownPort_kept
    | apply State.staleObjs_kept
    | apply hF
    | apply Kept.ite
    | apply Kept.foldl
    | apply Kept.foldl₁
    | apply Kept.foldl₂
    | apply Kept.foldl₂₂
    | intro _
    | dsimp only
    | fail_if_no_progress (refine Kept.upd ?_)
    | split

theorem State.revokeNow_kept {st : State} {i : Nat} (h_st : Kept kf z0 st) (hregs : ¬kf.regs) (hcar : ¬kf.car)
    (hmesh : ¬kf.mesh) (hcores : ¬kf.cores) (hkvl : ¬kf.kvl) (hleases : ¬kf.leases) (hsnp : ¬kf.snp) :
    Kept kf z0 (State.revokeNow st i) := by
  unfold State.revokeNow
  with_reducible repeat' first
    | assumption
    | (extract_lets +onlyGivenNames x; first
        | (refine Kept.cut kf z0 x ?_ (fun hx => ?_) <;> [subst x; clear_value x])
        | clear_value x)
    | apply State.fault_kept
    | apply State.reclaim_kept
    | apply State.setLease_kept

theorem execLeaseRevoke_kept {i : Nat} {st : State} (h_st : Kept kf z0 st) (hregs : ¬kf.regs) (hcar : ¬kf.car)
    (hbrs : ¬kf.brs) (hmesh : ¬kf.mesh) (hcores : ¬kf.cores) (hfields : ¬kf.fields) (hisl : ¬kf.isl)
    (hkvl : ¬kf.kvl) (hleases : ¬kf.leases) (hmem : ¬kf.mem) (hnow : ¬kf.now) (hsnp : ¬kf.snp) :
    KeptOut kf z0 (execLeaseRevoke i st) := by
  unfold execLeaseRevoke
  with_reducible repeat' first
    | assumption
    | refine fun _ (_ : Kept _ _ _) => ?_
    | refine fun _ _ (_ : Kept _ _ _) => ?_
    | refine fun _ _ _ (_ : Kept _ _ _) => ?_
    | (extract_lets +onlyGivenNames x; first
        | (refine Kept.cut kf z0 x ?_ (fun hx => ?_) <;> [subst x; clear_value x])
        | clear_value x)
    | apply State.fallOn_kept
    | apply State.revokeNow_kept
    | apply State.until_kept
    | apply hF
    | apply Kept.ite
    | apply KeptOut.next
    | apply KeptOut.ite
    | apply Kept.foldl

theorem State.leaseHiTake_kept {st : State} {who : Who} (h_st : Kept kf z0 st) (hregs : ¬kf.regs) :
    Kept kf z0 (State.leaseHiTake st who) := by
  unfold State.leaseHiTake
  with_reducible repeat' first
    | assumption
    | (extract_lets +onlyGivenNames x; clear_value x)
    | apply State.accErr_kept
    | apply State.answer_kept
    | apply State.wf_kept
    | split

theorem execLeaseHiRead_kept {who : Who} {st : State} (h_st : Kept kf z0 st) (hregs : ¬kf.regs) :
    KeptOut kf z0 (execLeaseHiRead who st) := by
  unfold execLeaseHiRead
  with_reducible repeat' first
    | assumption
    | apply State.leaseHiTake_kept
    | apply KeptOut.next

theorem State.endHalted_kept {st : State} {fn s : Nat} {x : Started} {status detail : Nat} (h_st : Kept kf z0 st) :
    Kept kf z0 (State.endHalted st fn s x status detail) := by
  unfold State.endHalted
  with_reducible repeat' first
    | assumption
    | apply State.endItem_kept
    | apply Kept.ite

theorem State.haltItem_kept {st : State} {fn s : Nat} {c : CoreSt} {x : Started} {tag status detail : Nat}
    (h_st : Kept kf z0 st) :
    Kept kf z0 (State.haltItem st fn s c x tag status detail) := by
  unfold State.haltItem
  with_reducible repeat' first
    | assumption
    | (extract_lets +onlyGivenNames x; clear_value x)
    | apply State.endHalted_kept
    | apply State.endItem_kept
    | apply hF
    | apply Kept.ite
    | intro _
    | dsimp only
    | fail_if_no_progress (refine Kept.upd ?_)
    | split

theorem execHaltResponse_kept {fn s : Nat} {st : State} (h_st : Kept kf z0 st) (hregs : ¬kf.regs)
    (hcar : ¬kf.car) (hbrs : ¬kf.brs) (hmesh : ¬kf.mesh) (hcores : ¬kf.cores) (hfields : ¬kf.fields)
    (hisl : ¬kf.isl) (hkvl : ¬kf.kvl) (hleases : ¬kf.leases) (hsnp : ¬kf.snp) :
    KeptOut kf z0 (execHaltResponse fn s st) := by
  unfold execHaltResponse
  with_reducible repeat' first
    | assumption
    | refine fun _ (_ : Kept _ _ _) => ?_
    | refine fun _ _ (_ : Kept _ _ _) => ?_
    | refine fun _ _ _ (_ : Kept _ _ _) => ?_
    | (extract_lets +onlyGivenNames x; first
        | (refine Kept.cut kf z0 x ?_ (fun hx => ?_) <;> [subst x; clear_value x])
        | clear_value x)
    | apply State.fault_kept
    | apply State.flushCore_kept
    | apply State.haltItem_kept
    | apply State.retainOn_kept
    | apply State.tellerItems_kept
    | apply State.when_kept
    | apply hF
    | apply Kept.ite
    | apply KeptOut.next
    | apply KeptOut.ite
    | apply Kept.foldl

theorem State.tellerHang_kept {st : State} {fn t : Nat} {stuck : Bool} (h_st : Kept kf z0 st) (hregs : ¬kf.regs)
    (hcar : ¬kf.car) (hbrs : ¬kf.brs) (hmesh : ¬kf.mesh) (hcores : ¬kf.cores) (hfields : ¬kf.fields)
    (hisl : ¬kf.isl) (hkvl : ¬kf.kvl) (hleases : ¬kf.leases) (hsnp : ¬kf.snp) :
    Kept kf z0 (State.tellerHang st fn t stuck) := by
  unfold State.tellerHang
  with_reducible repeat' first
    | assumption
    | (extract_lets +onlyGivenNames x; first
        | (refine Kept.cut kf z0 x ?_ (fun hx => ?_) <;> [subst x; clear_value x])
        | clear_value x)
    | apply State.abandonSlot_kept
    | apply State.addSat_kept
    | apply State.dropRequester_kept
    | apply State.fault_kept
    | apply State.flushCore_kept
    | apply State.loseSlot_kept
    | apply State.quarantineAll_kept
    | apply State.retainOn_kept
    | apply State.setCore_kept
    | apply State.setField_kept
    | apply State.tellerItems_kept
    | apply State.wf_kept
    | apply hF
    | apply Kept.ite

theorem execTellerWatchdogCheck_kept {fn : Nat} {beats stuck : List Nat} {st : State} (h_st : Kept kf z0 st)
    (hregs : ¬kf.regs) (hcar : ¬kf.car) (hbrs : ¬kf.brs) (hmesh : ¬kf.mesh) (hcores : ¬kf.cores)
    (hfields : ¬kf.fields) (hisl : ¬kf.isl) (hkvl : ¬kf.kvl) (hleases : ¬kf.leases) (hmem : ¬kf.mem)
    (hnow : ¬kf.now) (hsnp : ¬kf.snp) :
    KeptOut kf z0 (execTellerWatchdogCheck fn beats stuck st) := by
  unfold execTellerWatchdogCheck
  with_reducible repeat' first
    | assumption
    | refine fun _ (_ : Kept _ _ _) => ?_
    | refine fun _ _ (_ : Kept _ _ _) => ?_
    | refine fun _ _ _ (_ : Kept _ _ _) => ?_
    | (extract_lets +onlyGivenNames x; first
        | (refine Kept.cut kf z0 x ?_ (fun hx => ?_) <;> [subst x; clear_value x])
        | clear_value x)
    | apply State.add_kept
    | apply State.setField_kept
    | apply State.tellerHang_kept
    | apply State.until_kept
    | apply State.when_kept
    | apply hF
    | apply Kept.ite
    | apply KeptOut.next
    | apply KeptOut.ite
    | apply Kept.foldl

theorem execHousekeeperHeartbeat_kept {fn : Nat} {st : State} (h_st : Kept kf z0 st) (hregs : ¬kf.regs)
    (hcar : ¬kf.car) (hmesh : ¬kf.mesh) (hcores : ¬kf.cores) (hfields : ¬kf.fields) (hisl : ¬kf.isl)
    (hmem : ¬kf.mem) (hnow : ¬kf.now) :
    KeptOut kf z0 (execHousekeeperHeartbeat fn st) := by
  unfold execHousekeeperHeartbeat
  with_reducible repeat' first
    | assumption
    | refine fun _ (_ : Kept _ _ _) => ?_
    | refine fun _ _ (_ : Kept _ _ _) => ?_
    | refine fun _ _ _ (_ : Kept _ _ _) => ?_
    | (extract_lets +onlyGivenNames x; first
        | (refine Kept.cut kf z0 x ?_ (fun hx => ?_) <;> [subst x; clear_value x])
        | clear_value x)
    | apply State.add_kept
    | apply State.setField_kept
    | apply State.until_kept
    | apply State.when_kept
    | apply hF
    | apply Kept.ite
    | apply KeptOut.next

theorem execHousekeeperHang_kept {fn : Nat} {st : State} (h_st : Kept kf z0 st) (hregs : ¬kf.regs)
    (hcar : ¬kf.car) (hbrs : ¬kf.brs) (hmesh : ¬kf.mesh) (hcores : ¬kf.cores) (hfields : ¬kf.fields)
    (hflash : ¬kf.flash) (hisl : ¬kf.isl) (hkvl : ¬kf.kvl) (hleases : ¬kf.leases) (hmem : ¬kf.mem)
    (hnow : ¬kf.now) (hsnp : ¬kf.snp) :
    KeptOut kf z0 (execHousekeeperHang fn st) := by
  unfold execHousekeeperHang
  with_reducible repeat' first
    | assumption
    | refine fun _ (_ : Kept _ _ _) => ?_
    | refine fun _ _ (_ : Kept _ _ _) => ?_
    | refine fun _ _ _ (_ : Kept _ _ _) => ?_
    | (extract_lets +onlyGivenNames x; first
        | (refine Kept.cut kf z0 x ?_ (fun hx => ?_) <;> [subst x; clear_value x])
        | clear_value x)
    | apply State.addSat_kept
    | apply State.clrb_kept
    | apply State.dropRequester_kept
    | apply State.fault_kept
    | apply State.retireField_kept
    | apply State.setField_kept
    | apply State.until_kept
    | apply State.when_kept
    | apply hF
    | apply Kept.ite
    | apply KeptOut.next

theorem execBursarStrobe_kept {inBounds : Bool} {st : State} (h_st : Kept kf z0 st) (hregs : ¬kf.regs)
    (hcar : ¬kf.car) (hmesh : ¬kf.mesh) (hcores : ¬kf.cores) (hfields : ¬kf.fields) (hisl : ¬kf.isl)
    (hmem : ¬kf.mem) (hnow : ¬kf.now) :
    KeptOut kf z0 (execBursarStrobe inBounds st) := by
  unfold execBursarStrobe
  with_reducible repeat' first
    | assumption
    | refine fun _ (_ : Kept _ _ _) => ?_
    | refine fun _ _ (_ : Kept _ _ _) => ?_
    | refine fun _ _ _ (_ : Kept _ _ _) => ?_
    | (extract_lets +onlyGivenNames x; first
        | (refine Kept.cut kf z0 x ?_ (fun hx => ?_) <;> [subst x; clear_value x])
        | (have : x.fuses = x.fuses := (by rfl); clear this; subst x)
        | clear_value x)
    | apply State.addSat_kept
    | apply State.emit_kept
    | apply State.until_kept
    | apply State.when_kept
    | apply hF
    | apply Kept.ite
    | apply KeptOut.next
    | apply KeptOut.ite
    | intro _
    | dsimp only
    | fail_if_no_progress (refine Kept.upd ?_)

theorem execWatchdogModuleReset_kept {st : State} (h_st : Kept kf z0 st) (hregs : ¬kf.regs) (hcar : ¬kf.car)
    (hbrs : ¬kf.brs) (hmesh : ¬kf.mesh) (hcores : ¬kf.cores) (hfields : ¬kf.fields) (hflash : ¬kf.flash)
    (hisl : ¬kf.isl) (hkvl : ¬kf.kvl) (hleases : ¬kf.leases) (hmem : ¬kf.mem) (hnow : ¬kf.now) (hsnp : ¬kf.snp) :
    KeptOut kf z0 (execWatchdogModuleReset st) := by
  unfold execWatchdogModuleReset
  with_reducible repeat' first
    | assumption
    | refine fun _ (_ : Kept _ _ _) => ?_
    | refine fun _ _ (_ : Kept _ _ _) => ?_
    | refine fun _ _ _ (_ : Kept _ _ _) => ?_
    | apply State.moduleReset_kept
    | apply State.until_kept
    | apply State.when_kept
    | apply Kept.ite
    | apply KeptOut.next

theorem execMirrorResync_kept {st : State} (h_st : Kept kf z0 st) (hregs : ¬kf.regs) :
    KeptOut kf z0 (execMirrorResync st) := by
  unfold execMirrorResync
  with_reducible repeat' first
    | assumption
    | refine fun _ (_ : Kept _ _ _) => ?_
    | apply State.setb_kept
    | apply State.when_kept
    | apply KeptOut.next

theorem execLinkFailure_kept {fn port : Nat} {st : State} (h_st : Kept kf z0 st) (hregs : ¬kf.regs)
    (hcar : ¬kf.car) (hbrs : ¬kf.brs) (hmesh : ¬kf.mesh) (hcores : ¬kf.cores) (hfields : ¬kf.fields)
    (hflash : ¬kf.flash) (hisl : ¬kf.isl) (hkvl : ¬kf.kvl) (hleases : ¬kf.leases) (hmem : ¬kf.mem)
    (hsnp : ¬kf.snp) :
    KeptOut kf z0 (execLinkFailure fn port st) := by
  unfold execLinkFailure
  with_reducible repeat' first
    | assumption
    | refine fun _ (_ : Kept _ _ _) => ?_
    | refine fun _ _ (_ : Kept _ _ _) => ?_
    | refine fun _ _ _ (_ : Kept _ _ _) => ?_
    | (extract_lets +onlyGivenNames x; clear_value x)
    | apply State.add_kept
    | apply State.ledgerEvent_kept
    | apply State.retireOne_kept
    | apply State.tbsUpdate_kept
    | apply State.when_kept
    | apply hF
    | apply Kept.ite
    | apply KeptOut.next
    | apply KeptOut.ite
    | apply Kept.foldl
    | apply Kept.foldl₁
    | apply Kept.foldl₂
    | apply Kept.foldl₂₂
    | intro _
    | dsimp only
    | fail_if_no_progress (refine Kept.upd ?_)
    | split

theorem State.routeState_kept {st : State} {v : Nat} (h_st : Kept kf z0 st) (hregs : ¬kf.regs) :
    Kept kf z0 (State.routeState st v) := by
  unfold State.routeState
  with_reducible repeat' first
    | assumption
    | refine fun _ _ (_ : Kept _ _ _) => ?_
    | apply State.wf_kept
    | apply Kept.ite
    | apply Kept.foldl

theorem execRouteCommit_kept {st : State} (h_st : Kept kf z0 st) (hregs : ¬kf.regs) (hcar : ¬kf.car)
    (hbrs : ¬kf.brs) (hmesh : ¬kf.mesh) (hcores : ¬kf.cores) (hfields : ¬kf.fields) (hisl : ¬kf.isl)
    (hkvl : ¬kf.kvl) (hleases : ¬kf.leases) (hsnp : ¬kf.snp) :
    KeptOut kf z0 (execRouteCommit st) := by
  unfold execRouteCommit
  with_reducible repeat' first
    | assumption
    | refine fun _ (_ : Kept _ _ _) => ?_
    | refine fun _ _ (_ : Kept _ _ _) => ?_
    | refine fun _ _ _ (_ : Kept _ _ _) => ?_
    | (extract_lets +onlyGivenNames x; first
        | (refine Kept.cut kf z0 x ?_ (fun hx => ?_) <;> [subst x; clear_value x])
        | clear_value x)
    | apply State.bursarDown_kept
    | apply State.grantTransit_kept
    | apply State.planned_kept
    | apply State.routeState_kept
    | apply State.setBank_kept
    | apply State.setField_kept
    | apply State.when_kept
    | apply hF
    | apply Kept.ite
    | apply KeptOut.next
    | apply KeptOut.ite
    | apply Kept.foldl
    | apply Kept.foldl₁
    | apply Kept.foldl₂
    | apply Kept.foldl₂₂
    | intro _
    | dsimp only
    | fail_if_no_progress (refine Kept.upd ?_)

theorem execRouteSwitch_kept {st : State} (h_st : Kept kf z0 st) (hregs : ¬kf.regs) (hcar : ¬kf.car)
    (hmesh : ¬kf.mesh) (hcores : ¬kf.cores) (hfields : ¬kf.fields) (hisl : ¬kf.isl) (hmem : ¬kf.mem)
    (hnow : ¬kf.now) :
    KeptOut kf z0 (execRouteSwitch st) := by
  unfold execRouteSwitch
  with_reducible repeat' first
    | assumption
    | refine fun _ (_ : Kept _ _ _) => ?_
    | refine fun _ _ (_ : Kept _ _ _) => ?_
    | refine fun _ _ _ (_ : Kept _ _ _) => ?_
    | (extract_lets +onlyGivenNames x; clear_value x)
    | apply State.drainCounts_kept
    | apply State.loadRoutes_kept
    | apply State.routeState_kept
    | apply State.until_kept
    | apply State.when_kept
    | apply State.wn_kept
    | apply hF
    | apply Kept.ite
    | apply KeptOut.next
    | apply KeptOut.ite
    | apply Kept.foldl
    | apply Kept.foldl₁
    | apply Kept.foldl₂
    | apply Kept.foldl₂₂
    | intro _
    | dsimp only
    | fail_if_no_progress (refine Kept.upd ?_)
    | split

theorem execRouteDrainTimeout_kept {st : State} (h_st : Kept kf z0 st) (hregs : ¬kf.regs) (hcar : ¬kf.car)
    (hmesh : ¬kf.mesh) (hcores : ¬kf.cores) (hfields : ¬kf.fields) (hisl : ¬kf.isl) (hmem : ¬kf.mem)
    (hnow : ¬kf.now) :
    KeptOut kf z0 (execRouteDrainTimeout st) := by
  unfold execRouteDrainTimeout
  with_reducible repeat' first
    | assumption
    | refine fun _ (_ : Kept _ _ _) => ?_
    | refine fun _ _ (_ : Kept _ _ _) => ?_
    | refine fun _ _ _ (_ : Kept _ _ _) => ?_
    | (extract_lets +onlyGivenNames x; clear_value x)
    | apply State.drainCounts_kept
    | apply State.dropFlits_kept
    | apply State.until_kept
    | apply State.when_kept
    | apply hF
    | apply Kept.ite
    | apply KeptOut.next
    | apply KeptOut.ite
    | apply Kept.foldl
    | apply Kept.foldl₁
    | apply Kept.foldl₂
    | apply Kept.foldl₂₂
    | intro _
    | dsimp only
    | fail_if_no_progress (refine Kept.upd ?_)
    | split

theorem execRouteDrainDone_kept {st : State} (h_st : Kept kf z0 st) (hregs : ¬kf.regs) (hcar : ¬kf.car)
    (hbrs : ¬kf.brs) (hmesh : ¬kf.mesh) (hcores : ¬kf.cores) (hfields : ¬kf.fields) (hflash : ¬kf.flash)
    (hisl : ¬kf.isl) (hkvl : ¬kf.kvl) (hleases : ¬kf.leases) (hmem : ¬kf.mem) (hsnp : ¬kf.snp) :
    KeptOut kf z0 (execRouteDrainDone st) := by
  unfold execRouteDrainDone
  with_reducible repeat' first
    | assumption
    | refine fun _ (_ : Kept _ _ _) => ?_
    | refine fun _ _ (_ : Kept _ _ _) => ?_
    | refine fun _ _ _ (_ : Kept _ _ _) => ?_
    | (extract_lets +onlyGivenNames x; clear_value x)
    | apply State.drainCounts_kept
    | apply State.releaseLease_kept
    | apply State.retireOff_kept
    | apply State.routeState_kept
    | apply State.when_kept
    | apply hF
    | apply Kept.ite
    | apply KeptOut.next
    | apply KeptOut.ite
    | apply Kept.foldl
    | apply Kept.foldl₁
    | apply Kept.foldl₂
    | apply Kept.foldl₂₂
    | intro _
    | dsimp only
    | fail_if_no_progress (refine Kept.upd ?_)
    | split

theorem State.bar2Refuse_kept {st : State} {n off : Nat} (h_st : Kept kf z0 st) (hregs : ¬kf.regs) :
    Kept kf z0 (State.bar2Refuse st n off) := by
  unfold State.bar2Refuse
  with_reducible repeat' first
    | assumption
    | apply State.accErrAt_kept
    | apply State.addSat_kept

theorem execBar2Write_kept {n off : Nat} {data : List Byte} {st : State} (h_st : Kept kf z0 st) (hregs : ¬kf.regs)
    (hmesh : ¬kf.mesh) (hleases : ¬kf.leases) :
    KeptOut kf z0 (execBar2Write n off data st) := by
  unfold execBar2Write
  with_reducible repeat' first
    | assumption
    | (extract_lets +onlyGivenNames x; clear_value x)
    | apply State.accErrAt_kept
    | apply State.bar2Refuse_kept
    | apply State.sendDeposit_kept
    | apply Kept.ite
    | apply KeptOut.next
    | split

theorem execBar2Read_kept {n off _len : Nat} {st : State} (h_st : Kept kf z0 st) (hregs : ¬kf.regs) :
    KeptOut kf z0 (execBar2Read n off _len st) := by
  unfold execBar2Read
  with_reducible repeat' first
    | assumption
    | (extract_lets +onlyGivenNames x; refine Kept.cut kf z0 x ?_ (fun hx => ?_) <;> [subst x; clear_value x])
    | apply State.accErrAt_kept
    | apply State.addSat_kept
    | apply Kept.ite
    | apply KeptOut.next
    | fail_if_no_progress (refine Kept.upd ?_)

theorem execDoorbell_kept {who : Who} {off size value : Nat} {st : State} (h_st : Kept kf z0 st) (hregs : ¬kf.regs) :
    KeptOut kf z0 (execDoorbell who off size value st) := by
  unfold execDoorbell
  with_reducible repeat' first
    | assumption
    | (extract_lets +onlyGivenNames x; clear_value x)
    | apply State.accErrAt_kept
    | apply State.doorbell_kept
    | apply Kept.ite
    | apply KeptOut.next
    | fail_if_no_progress (refine Kept.upd ?_)
    | split

theorem execDoorbellForward_kept {n : Nat} {st : State} (h_st : Kept kf z0 st) (hregs : ¬kf.regs) :
    KeptOut kf z0 (execDoorbellForward n st) := by
  unfold execDoorbellForward
  with_reducible repeat' first
    | assumption
    | (extract_lets +onlyGivenNames x; clear_value x)
    | apply State.doorbell_kept
    | apply Kept.ite
    | apply KeptOut.next
    | dsimp only
    | fail_if_no_progress (refine Kept.upd ?_)
    | split

theorem State.dropRings_kept {st : State} {lo hi : Nat} (h_st : Kept kf z0 st) :
    Kept kf z0 (State.dropRings st lo hi) := by
  unfold State.dropRings
  with_reducible repeat' first
    | assumption
    | (extract_lets +onlyGivenNames x; first
        | (refine Kept.cut kf z0 x ?_ (fun hx => ?_) <;> [subst x; clear_value x])
        | clear_value x)
    | apply State.setWaits_kept
    | apply hF
    | apply Kept.ite
    | intro _
    | dsimp only
    | fail_if_no_progress (refine Kept.upd ?_)

theorem State.dropEvents_kept {st : State} {f : Nat} (h_st : Kept kf z0 st) :
    Kept kf z0 (State.dropEvents st f) := by
  unfold State.dropEvents
  with_reducible repeat' first
    | assumption
    | (extract_lets +onlyGivenNames x; clear_value x)
    | fail_if_no_progress (refine Kept.upd ?_)

theorem State.flrConfig_kept {st : State} {f : Nat} (h_st : Kept kf z0 st) :
    Kept kf z0 (State.flrConfig st f) := by
  unfold State.flrConfig
  with_reducible repeat' first
    | assumption
    | (extract_lets +onlyGivenNames x; clear_value x)
    | fail_if_no_progress (refine Kept.upd ?_)

theorem State.vfReset_kept {st : State} {n : Nat} (h_st : Kept kf z0 st) (hregs : ¬kf.regs) (hbrs : ¬kf.brs)
    (hmesh : ¬kf.mesh) (hleases : ¬kf.leases) :
    Kept kf z0 (State.vfReset st n) := by
  unfold State.vfReset
  with_reducible repeat' first
    | assumption
    | refine fun _ (_ : Kept _ _ _) => ?_
    | refine fun _ _ (_ : Kept _ _ _) => ?_
    | refine fun _ _ _ (_ : Kept _ _ _) => ?_
    | (extract_lets +onlyGivenNames x; first
        | (refine Kept.cut kf z0 x ?_ (fun hx => ?_) <;> [subst x; clear_value x])
        | clear_value x)
    | apply State.dmaPump_kept
    | apply State.dropEvents_kept
    | apply State.dropRequester_kept
    | apply State.dropRings_kept
    | apply State.dropWaiting_kept
    | apply State.flrConfig_kept
    | apply State.quarantineAll_kept
    | apply State.resetRegs_kept
    | apply State.setPart_kept
    | apply State.wr_kept
    | apply hF
    | apply Kept.ite
    | apply Kept.foldl
    | apply Kept.foldl₁
    | apply Kept.foldl₂
    | apply Kept.foldl₂₂
    | intro _
    | dsimp only
    | fail_if_no_progress (refine Kept.upd ?_)

theorem execVfFlr_kept {n : Nat} {st : State} (h_st : Kept kf z0 st) (hregs : ¬kf.regs) (hbrs : ¬kf.brs)
    (hmesh : ¬kf.mesh) (hleases : ¬kf.leases) :
    KeptOut kf z0 (execVfFlr n st) := by
  unfold execVfFlr
  with_reducible repeat' first
    | assumption
    | refine fun _ (_ : Kept _ _ _) => ?_
    | apply State.vfReset_kept
    | apply State.when_kept
    | apply KeptOut.next

theorem State.pf0Reset_kept {st : State} (h_st : Kept kf z0 st) (hregs : ¬kf.regs) (hbrs : ¬kf.brs)
    (hmesh : ¬kf.mesh) (hleases : ¬kf.leases) :
    Kept kf z0 (State.pf0Reset st) := by
  unfold State.pf0Reset
  with_reducible repeat' first
    | assumption
    | refine fun _ (_ : Kept _ _ _) => ?_
    | refine fun _ _ (_ : Kept _ _ _) => ?_
    | refine fun _ _ _ (_ : Kept _ _ _) => ?_
    | (extract_lets +onlyGivenNames x; first
        | (refine Kept.cut kf z0 x ?_ (fun hx => ?_) <;> [subst x; clear_value x])
        | clear_value x)
    | apply State.dropEvents_kept
    | apply State.dropRequester_kept
    | apply State.dropRings_kept
    | apply State.dropWaiting_kept
    | apply State.flrConfig_kept
    | apply State.resetRegs_kept
    | apply State.vfReset_kept
    | apply State.wr_kept
    | apply hF
    | apply Kept.ite
    | apply Kept.foldl
    | apply Kept.foldl₁
    | apply Kept.foldl₂
    | apply Kept.foldl₂₂
    | intro _
    | dsimp only
    | fail_if_no_progress (refine Kept.upd ?_)

theorem execPf0Flr_kept {st : State} (h_st : Kept kf z0 st) (hregs : ¬kf.regs) (hbrs : ¬kf.brs) (hmesh : ¬kf.mesh)
    (hleases : ¬kf.leases) :
    KeptOut kf z0 (execPf0Flr st) := by
  unfold execPf0Flr
  with_reducible repeat' first
    | assumption
    | refine fun _ (_ : Kept _ _ _) => ?_
    | apply State.pf0Reset_kept
    | apply State.when_kept
    | apply KeptOut.next

theorem State.endpointDown_kept {st : State} (h_st : Kept kf z0 st) (hregs : ¬kf.regs) (hbrs : ¬kf.brs)
    (hmesh : ¬kf.mesh) (hleases : ¬kf.leases) :
    Kept kf z0 (State.endpointDown st) := by
  unfold State.endpointDown
  with_reducible repeat' first
    | assumption
    | (extract_lets +onlyGivenNames x; first
        | (refine Kept.cut kf z0 x ?_ (fun hx => ?_) <;> [subst x; clear_value x])
        | clear_value x)
    | apply State.pf0Reset_kept
    | apply State.wf_kept
    | fail_if_no_progress (refine Kept.upd ?_)

theorem execPerst_kept {st : State} (h_st : Kept kf z0 st) (hregs : ¬kf.regs) (hbrs : ¬kf.brs) (hmesh : ¬kf.mesh)
    (hleases : ¬kf.leases) :
    KeptOut kf z0 (execPerst st) := by
  unfold execPerst
  with_reducible repeat' first
    | assumption
    | refine fun _ (_ : Kept _ _ _) => ?_
    | (extract_lets +onlyGivenNames x; first
        | (refine Kept.cut kf z0 x ?_ (fun hx => ?_) <;> [subst x; clear_value x])
        | clear_value x)
    | apply State.endpointDown_kept
    | apply State.when_kept
    | apply KeptOut.next
    | fail_if_no_progress (refine Kept.upd ?_)

theorem execHostLinkDown_kept {st : State} (h_st : Kept kf z0 st) (hregs : ¬kf.regs) (hbrs : ¬kf.brs)
    (hmesh : ¬kf.mesh) (hleases : ¬kf.leases) :
    KeptOut kf z0 (execHostLinkDown st) := by
  unfold execHostLinkDown
  with_reducible repeat' first
    | assumption
    | refine fun _ (_ : Kept _ _ _) => ?_
    | apply State.endpointDown_kept
    | apply State.when_kept
    | apply KeptOut.next

theorem execHostLinkUp_kept {speed width : Nat} {funcs : List (Nat × FuncCfg)} {vfEnable : Bool}
    {numVfs bar2Log : Nat} {st : State} (h_st : Kept kf z0 st) (hregs : ¬kf.regs) :
    KeptOut kf z0 (execHostLinkUp speed width funcs vfEnable numVfs bar2Log st) := by
  unfold execHostLinkUp
  with_reducible repeat' first
    | assumption
    | refine fun _ (_ : Kept _ _ _) => ?_
    | (extract_lets +onlyGivenNames x; first
        | (refine Kept.cut kf z0 x ?_ (fun hx => ?_) <;> [subst x; clear_value x])
        | clear_value x)
    | apply State.add_kept
    | apply State.wf_kept
    | apply State.when_kept
    | apply KeptOut.next
    | fail_if_no_progress (refine Kept.upd ?_)

theorem execMsixPendingSend_kept {func vector : Nat} {cfg : FuncCfg} {st : State} (h_st : Kept kf z0 st)
    (hregs : ¬kf.regs) (hmesh : ¬kf.mesh) (hleases : ¬kf.leases) :
    KeptOut kf z0 (execMsixPendingSend func vector cfg st) := by
  unfold execMsixPendingSend
  with_reducible repeat' first
    | assumption
    | refine fun _ (_ : Kept _ _ _) => ?_
    | (extract_lets +onlyGivenNames x; first
        | (refine Kept.cut kf z0 x ?_ (fun hx => ?_) <;> [subst x; clear_value x])
        | clear_value x)
    | apply State.dmaPump_kept
    | apply State.drainFunc_kept
    | apply State.msix_kept
    | apply State.when_kept
    | apply Kept.ite
    | apply KeptOut.next
    | fail_if_no_progress (refine Kept.upd ?_)

theorem State.dropRead_kept {st : State} {tag : Nat} (h_st : Kept kf z0 st) :
    Kept kf z0 (State.dropRead st tag) := by
  unfold State.dropRead
  with_reducible repeat' first
    | assumption
    | (extract_lets +onlyGivenNames x; clear_value x)
    | fail_if_no_progress (refine Kept.upd ?_)

theorem State.poisonCount_kept {st : State} {ecrc : Bool} (h_st : Kept kf z0 st) (hregs : ¬kf.regs) :
    Kept kf z0 (State.poisonCount st ecrc) := by
  unfold State.poisonCount
  with_reducible repeat' first
    | assumption
    | apply State.addSat_kept
    | apply Kept.ite

theorem execPoisonedTlp_kept {ecrc : Bool} {tag : Nat} {st : State} (h_st : Kept kf z0 st) (hregs : ¬kf.regs)
    (hmesh : ¬kf.mesh) (hleases : ¬kf.leases) :
    KeptOut kf z0 (execPoisonedTlp ecrc tag st) := by
  unfold execPoisonedTlp
  with_reducible repeat' first
    | assumption
    | refine fun _ (_ : Kept _ _ _) => ?_
    | (extract_lets +onlyGivenNames x; refine Kept.cut kf z0 x ?_ (fun hx => ?_) <;> [subst x; clear_value x])
    | apply State.dmaPump_kept
    | apply State.dropRead_kept
    | apply State.poisonCount_kept
    | apply State.readFailed_kept
    | apply State.when_kept
    | apply KeptOut.next
    | split

theorem execCompletionTlp_kept {tag status : Nat} {poisoned : Bool} {data : List Byte} {st : State}
    (h_st : Kept kf z0 st) (hregs : ¬kf.regs) (hmesh : ¬kf.mesh) (hleases : ¬kf.leases) :
    KeptOut kf z0 (execCompletionTlp tag status poisoned data st) := by
  unfold execCompletionTlp
  with_reducible repeat' first
    | assumption
    | (extract_lets +onlyGivenNames x; first
        | (refine Kept.cut kf z0 x ?_ (fun hx => ?_) <;> [subst x; clear_value x])
        | (refine Kept.cut kf z0 x.1 ?_ (fun hx => ?_) <;> [subst x; clear_value x])
        | (refine Kept.cut kf z0 x.2 ?_ (fun hx => ?_) <;> [subst x; clear_value x])
        | (refine Kept.cut kf z0 x.2.2 ?_ (fun hx => ?_) <;> [subst x; clear_value x])
        | (refine Kept.cutF kf z0 x ?_ (fun hF => ?_) <;> [subst x; clear_value x])
        | (refine Kept.cutF₁ kf z0 x ?_ (fun hF => ?_) <;> [subst x; clear_value x])
        | (refine Kept.cutF₂ kf z0 x ?_ (fun hF => ?_) <;> [subst x; clear_value x])
        | (refine Kept.cutP kf z0 x ?_ (fun hF => ?_) <;> [subst x; clear_value x])
        | (refine Kept.cutA kf z0 x ?_ (fun hF => ?_) <;> [subst x; clear_value x])
        | (have : x.fuses = x.fuses := (by rfl); clear this; subst x)
        | clear_value x)
    | apply State.dmaPump_kept
    | apply State.dropRead_kept
    | apply State.poisonCount_kept
    | apply State.readData_kept
    | apply State.readFailed_kept
    | apply hF
    | apply Kept.ite
    | apply KeptOut.next
    | apply KeptOut.ite
    | intro _
    | dsimp only
    | fail_if_no_progress (refine Kept.upd ?_)
    | split

theorem execRegisterReadTimeout_kept {who : Who} {off : Nat} {st : State} (h_st : Kept kf z0 st)
    (hregs : ¬kf.regs) (hcar : ¬kf.car) (hmesh : ¬kf.mesh) (hcores : ¬kf.cores) (hfields : ¬kf.fields)
    (hisl : ¬kf.isl) (hmem : ¬kf.mem) (hnow : ¬kf.now) :
    KeptOut kf z0 (execRegisterReadTimeout who off st) := by
  unfold execRegisterReadTimeout
  with_reducible repeat' first
    | assumption
    | refine fun _ (_ : Kept _ _ _) => ?_
    | refine fun _ _ (_ : Kept _ _ _) => ?_
    | refine fun _ _ _ (_ : Kept _ _ _) => ?_
    | (extract_lets +onlyGivenNames x; first
        | (refine Kept.cut kf z0 x ?_ (fun hx => ?_) <;> [subst x; clear_value x])
        | clear_value x)
    | apply State.accErrAt_kept
    | apply State.until_kept
    | apply State.when_kept
    | apply hF
    | apply Kept.ite
    | apply KeptOut.next
    | apply KeptOut.ite
    | intro _
    | dsimp only
    | fail_if_no_progress (refine Kept.upd ?_)

theorem State.kvlEnable_kept {st : State} {p : Nat} (h_st : Kept kf z0 st) (hregs : ¬kf.regs) (hkvl : ¬kf.kvl) :
    Kept kf z0 (State.kvlEnable st p) := by
  unfold State.kvlEnable
  with_reducible repeat' first
    | assumption
    | (extract_lets +onlyGivenNames x; refine Kept.cut kf z0 x ?_ (fun hx => ?_) <;> [subst x; clear_value x])
    | apply State.kvlEnter_kept
    | apply State.setb_kept
    | apply Kept.ite

theorem execKvlEnableWrite_kept {who : Who} {port : Nat} {st : State} (h_st : Kept kf z0 st) (hregs : ¬kf.regs)
    (hkvl : ¬kf.kvl) :
    KeptOut kf z0 (execKvlEnableWrite who port st) := by
  unfold execKvlEnableWrite
  with_reducible repeat' first
    | assumption
    | apply State.accErr_kept
    | apply State.kvlEnable_kept
    | apply KeptOut.next
    | split

theorem execSignalDetected_kept {port : Nat} {st : State} (h_st : Kept kf z0 st) (hregs : ¬kf.regs) (hkvl : ¬kf.kvl) :
    KeptOut kf z0 (execSignalDetected port st) := by
  unfold execSignalDetected
  with_reducible repeat' first
    | assumption
    | refine fun _ (_ : Kept _ _ _) => ?_
    | apply State.kvlEnter_kept
    | apply State.when_kept
    | apply KeptOut.next

theorem execLevelLock_kept {port : Nat} {st : State} (h_st : Kept kf z0 st) (hregs : ¬kf.regs) (hkvl : ¬kf.kvl) :
    KeptOut kf z0 (execLevelLock port st) := by
  unfold execLevelLock
  with_reducible repeat' first
    | assumption
    | refine fun _ (_ : Kept _ _ _) => ?_
    | apply State.kvlEnter_kept
    | apply State.when_kept
    | apply KeptOut.next

theorem execCodewordLock_kept {port laneMap polarity : Nat} {st : State} (h_st : Kept kf z0 st) (hregs : ¬kf.regs)
    (hkvl : ¬kf.kvl) :
    KeptOut kf z0 (execCodewordLock port laneMap polarity st) := by
  unfold execCodewordLock
  with_reducible repeat' first
    | assumption
    | refine fun _ (_ : Kept _ _ _) => ?_
    | (extract_lets +onlyGivenNames x; first
        | (refine Kept.cut kf z0 x ?_ (fun hx => ?_) <;> [subst x; clear_value x])
        | clear_value x)
    | apply State.kvlEnter_kept
    | apply State.setKvl_kept
    | apply State.wf_kept
    | apply State.when_kept
    | apply KeptOut.next

theorem execTrainTimeout_kept {port : Nat} {st : State} (h_st : Kept kf z0 st) (hregs : ¬kf.regs)
    (hcar : ¬kf.car) (hmesh : ¬kf.mesh) (hcores : ¬kf.cores) (hfields : ¬kf.fields) (hisl : ¬kf.isl)
    (hkvl : ¬kf.kvl) (hmem : ¬kf.mem) (hnow : ¬kf.now) :
    KeptOut kf z0 (execTrainTimeout port st) := by
  unfold execTrainTimeout
  with_reducible repeat' first
    | assumption
    | refine fun _ (_ : Kept _ _ _) => ?_
    | refine fun _ _ (_ : Kept _ _ _) => ?_
    | refine fun _ _ _ (_ : Kept _ _ _) => ?_
    | (extract_lets +onlyGivenNames x; first
        | (refine Kept.cut kf z0 x ?_ (fun hx => ?_) <;> [subst x; clear_value x])
        | clear_value x)
    | apply State.addSat_kept
    | apply State.kvlEnter_kept
    | apply State.setKvl_kept
    | apply State.setb_kept
    | apply State.until_kept
    | apply State.when_kept
    | apply hF
    | apply Kept.ite
    | apply KeptOut.next

theorem execTrainBackoffEnd_kept {port : Nat} {st : State} (h_st : Kept kf z0 st) (hregs : ¬kf.regs)
    (hcar : ¬kf.car) (hmesh : ¬kf.mesh) (hcores : ¬kf.cores) (hfields : ¬kf.fields) (hisl : ¬kf.isl)
    (hkvl : ¬kf.kvl) (hmem : ¬kf.mem) (hnow : ¬kf.now) :
    KeptOut kf z0 (execTrainBackoffEnd port st) := by
  unfold execTrainBackoffEnd
  with_reducible repeat' first
    | assumption
    | (extract_lets +onlyGivenNames x; clear_value x)
    | apply State.setKvl_kept
    | apply State.until_kept
    | apply hF
    | apply Kept.ite
    | apply KeptOut.next
    | apply KeptOut.ite
    | intro _
    | dsimp only
    | fail_if_no_progress (refine Kept.upd ?_)
    | split

theorem State.kvlActive_kept {st : State} {p : Nat} (h_st : Kept kf z0 st) (hregs : ¬kf.regs) (hkvl : ¬kf.kvl) :
    Kept kf z0 (State.kvlActive st p) := by
  unfold State.kvlActive
  with_reducible repeat' first
    | assumption
    | (extract_lets +onlyGivenNames x; first
        | (refine Kept.cut kf z0 x ?_ (fun hx => ?_) <;> [subst x; clear_value x])
        | clear_value x)
    | apply State.kvlEnter_kept
    | apply State.notice_kept
    | apply State.putKvl_kept
    | apply State.setb_kept
    | apply State.wf_kept

theorem State.kvlTryActive_kept {st : State} {p : Nat} (h_st : Kept kf z0 st) (hregs : ¬kf.regs) (hkvl : ¬kf.kvl) :
    Kept kf z0 (State.kvlTryActive st p) := by
  unfold State.kvlTryActive
  with_reducible repeat' first
    | assumption
    | (extract_lets +onlyGivenNames x; clear_value x)
    | apply State.kvlActive_kept
    | apply Kept.ite

theorem execIdent_kept {port flags peerIdent peerRev peerPort ctrlCredits dataCredits : Nat} {st : State}
    (h_st : Kept kf z0 st) (hregs : ¬kf.regs) (hkvl : ¬kf.kvl) :
    KeptOut kf z0 (execIdent port flags peerIdent peerRev peerPort ctrlCredits dataCredits st) := by
  unfold execIdent
  with_reducible repeat' first
    | assumption
    | refine fun _ (_ : Kept _ _ _) => ?_
    | (extract_lets +onlyGivenNames x; first
        | (refine Kept.cut kf z0 x ?_ (fun hx => ?_) <;> [subst x; clear_value x])
        | clear_value x)
    | apply State.kvlTryActive_kept
    | apply State.setKvl_kept
    | apply State.when_kept
    | apply State.wn_kept
    | apply Kept.ite
    | apply KeptOut.next

theorem execIdentTimer_kept {port : Nat} {st : State} (h_st : Kept kf z0 st) (hregs : ¬kf.regs) (hcar : ¬kf.car)
    (hmesh : ¬kf.mesh) (hcores : ¬kf.cores) (hfields : ¬kf.fields) (hisl : ¬kf.isl) (hkvl : ¬kf.kvl)
    (hmem : ¬kf.mem) (hnow : ¬kf.now) :
    KeptOut kf z0 (execIdentTimer port st) := by
  unfold execIdentTimer
  with_reducible repeat' first
    | assumption
    | refine fun _ (_ : Kept _ _ _) => ?_
    | refine fun _ _ (_ : Kept _ _ _) => ?_
    | refine fun _ _ _ (_ : Kept _ _ _) => ?_
    | (extract_lets +onlyGivenNames x; first
        | (refine Kept.cut kf z0 x ?_ (fun hx => ?_) <;> [subst x; clear_value x])
        | clear_value x)
    | apply State.kvlTryActive_kept
    | apply State.kvlUnit_kept
    | apply State.setKvl_kept
    | apply State.until_kept
    | apply State.when_kept
    | apply hF
    | apply Kept.ite
    | apply KeptOut.next

theorem execResetStateEnd_kept {port : Nat} {locked : Bool} {st : State} (h_st : Kept kf z0 st)
    (hregs : ¬kf.regs) (hcar : ¬kf.car) (hmesh : ¬kf.mesh) (hcores : ¬kf.cores) (hfields : ¬kf.fields)
    (hisl : ¬kf.isl) (hkvl : ¬kf.kvl) (hmem : ¬kf.mem) (hnow : ¬kf.now) :
    KeptOut kf z0 (execResetStateEnd port locked st) := by
  unfold execResetStateEnd
  with_reducible repeat' first
    | assumption
    | refine fun _ (_ : Kept _ _ _) => ?_
    | refine fun _ _ (_ : Kept _ _ _) => ?_
    | refine fun _ _ _ (_ : Kept _ _ _) => ?_
    | (extract_lets +onlyGivenNames x; first
        | (refine Kept.cut kf z0 x ?_ (fun hx => ?_) <;> [subst x; clear_value x])
        | clear_value x)
    | apply State.kvlEnter_kept
    | apply State.until_kept
    | apply State.when_kept
    | apply hF
    | apply Kept.ite
    | apply KeptOut.next

theorem State.kvlReset_kept {st : State} {p : Nat} (h_st : Kept kf z0 st) (hregs : ¬kf.regs) (hcar : ¬kf.car)
    (hmesh : ¬kf.mesh) (hkvl : ¬kf.kvl) (hleases : ¬kf.leases) :
    Kept kf z0 (State.kvlReset st p) := by
  unfold State.kvlReset
  with_reducible repeat' first
    | assumption
    | apply State.kvlDown_kept

theorem execLinkReset_kept {who : Who} {port : Nat} {st : State} (h_st : Kept kf z0 st) (hregs : ¬kf.regs)
    (hcar : ¬kf.car) (hmesh : ¬kf.mesh) (hkvl : ¬kf.kvl) (hleases : ¬kf.leases) :
    KeptOut kf z0 (execLinkReset who port st) := by
  unfold execLinkReset
  with_reducible repeat' first
    | assumption
    | apply State.accErr_kept
    | apply State.kvlReset_kept
    | apply KeptOut.next
    | split

theorem execLossOfSignal_kept {port : Nat} {st : State} (h_st : Kept kf z0 st) (hregs : ¬kf.regs) (hcar : ¬kf.car)
    (hmesh : ¬kf.mesh) (hkvl : ¬kf.kvl) (hleases : ¬kf.leases) :
    KeptOut kf z0 (execLossOfSignal port st) := by
  unfold execLossOfSignal
  with_reducible repeat' first
    | assumption
    | refine fun _ (_ : Kept _ _ _) => ?_
    | apply State.kvlDown_kept
    | apply State.when_kept
    | apply KeptOut.next

theorem State.kvlFec_kept {st : State} {p fixed bad : Nat} (h_st : Kept kf z0 st) (hregs : ¬kf.regs) :
    Kept kf z0 (State.kvlFec st p fixed bad) := by
  unfold State.kvlFec
  with_reducible repeat' first
    | assumption
    | (extract_lets +onlyGivenNames x; clear_value x)
    | apply State.addSat_kept

theorem execCodewordLockLoss_kept {port bad : Nat} {st : State} (h_st : Kept kf z0 st) (hregs : ¬kf.regs)
    (hcar : ¬kf.car) (hmesh : ¬kf.mesh) (hkvl : ¬kf.kvl) (hleases : ¬kf.leases) :
    KeptOut kf z0 (execCodewordLockLoss port bad st) := by
  unfold execCodewordLockLoss
  with_reducible repeat' first
    | assumption
    | refine fun _ (_ : Kept _ _ _) => ?_
    | apply State.kvlDown_kept
    | apply State.kvlFec_kept
    | apply State.when_kept
    | apply KeptOut.next

theorem execResetUnit_kept {port cause : Nat} {st : State} (h_st : Kept kf z0 st) (hregs : ¬kf.regs)
    (hcar : ¬kf.car) (hmesh : ¬kf.mesh) (hkvl : ¬kf.kvl) (hleases : ¬kf.leases) :
    KeptOut kf z0 (execResetUnit port cause st) := by
  unfold execResetUnit
  with_reducible repeat' first
    | assumption
    | refine fun _ (_ : Kept _ _ _) => ?_
    | apply State.kvlDown_kept
    | apply State.when_kept
    | apply KeptOut.next

theorem State.whenActive_kept {st : State} {p : Nat} {f : State → State} (h_st : Kept kf z0 st)
    (h_f : ∀ v0, Kept kf z0 v0 → Kept kf z0 (f v0)) :
    KeptOut kf z0 (State.whenActive st p f) := by
  unfold State.whenActive
  with_reducible repeat' first
    | assumption
    | apply State.when_kept
    | apply KeptOut.next

theorem execIdle_kept {port : Nat} {crcOk : Bool} {st : State} (h_st : Kept kf z0 st) (hregs : ¬kf.regs) :
    KeptOut kf z0 (execIdle port crcOk st) := by
  unfold execIdle
  with_reducible repeat' first
    | assumption
    | refine fun _ (_ : Kept _ _ _) => ?_
    | apply State.addSat_kept
    | apply State.when_kept
    | apply KeptOut.next

theorem execLack_kept {port seq : Nat} {st : State} (h_st : Kept kf z0 st) (hregs : ¬kf.regs) (hkvl : ¬kf.kvl) :
    KeptOut kf z0 (execLack port seq st) := by
  unfold execLack
  with_reducible repeat' first
    | assumption
    | refine fun _ (_ : Kept _ _ _) => ?_
    | (extract_lets +onlyGivenNames x; clear_value x)
    | apply State.kvlPump_kept
    | apply State.putKvl_kept
    | apply State.whenActive_kept
    | apply Kept.ite

theorem State.kvlResend_kept {st : State} {p next : Nat} (h_st : Kept kf z0 st) (hregs : ¬kf.regs) (hcar : ¬kf.car)
    (hmesh : ¬kf.mesh) (hkvl : ¬kf.kvl) (hleases : ¬kf.leases) :
    Kept kf z0 (State.kvlResend st p next) := by
  unfold State.kvlResend
  with_reducible repeat' first
    | assumption
    | refine fun _ _ (_ : Kept _ _ _) => ?_
    | (extract_lets +onlyGivenNames x; first
        | (refine Kept.cut kf z0 x ?_ (fun hx => ?_) <;> [subst x; clear_value x])
        | clear_value x)
    | apply State.addSat_kept
    | apply State.emit_kept
    | apply State.kvlDown_kept
    | apply State.kvlUnit_kept
    | apply State.setKvl_kept
    | apply Kept.ite
    | apply Kept.foldl

theorem execLnak_kept {port next : Nat} {st : State} (h_st : Kept kf z0 st) (hregs : ¬kf.regs) (hcar : ¬kf.car)
    (hmesh : ¬kf.mesh) (hkvl : ¬kf.kvl) (hleases : ¬kf.leases) :
    KeptOut kf z0 (execLnak port next st) := by
  unfold execLnak
  with_reducible repeat' first
    | assumption
    | refine fun _ (_ : Kept _ _ _) => ?_
    | apply State.kvlResend_kept
    | apply State.whenActive_kept

theorem execReplayTimeout_kept {port : Nat} {st : State} (h_st : Kept kf z0 st) (hregs : ¬kf.regs)
    (hcar : ¬kf.car) (hmesh : ¬kf.mesh) (hcores : ¬kf.cores) (hfields : ¬kf.fields) (hisl : ¬kf.isl)
    (hkvl : ¬kf.kvl) (hleases : ¬kf.leases) (hmem : ¬kf.mem) (hnow : ¬kf.now) :
    KeptOut kf z0 (execReplayTimeout port st) := by
  unfold execReplayTimeout
  with_reducible repeat' first
    | assumption
    | refine fun _ (_ : Kept _ _ _) => ?_
    | refine fun _ _ (_ : Kept _ _ _) => ?_
    | refine fun _ _ _ (_ : Kept _ _ _) => ?_
    | apply State.kvlResend_kept
    | apply State.until_kept
    | apply State.whenActive_kept
    | apply Kept.ite
    | apply KeptOut.next
    | apply KeptOut.ite
    | dsimp only
    | fail_if_no_progress (refine Kept.upd ?_)
    | split

theorem execLnakRetry_kept {port : Nat} {st : State} (h_st : Kept kf z0 st) (hregs : ¬kf.regs) (hcar : ¬kf.car)
    (hmesh : ¬kf.mesh) (hcores : ¬kf.cores) (hfields : ¬kf.fields) (hisl : ¬kf.isl) (hkvl : ¬kf.kvl)
    (hmem : ¬kf.mem) (hnow : ¬kf.now) :
    KeptOut kf z0 (execLnakRetry port st) := by
  unfold execLnakRetry
  with_reducible repeat' first
    | assumption
    | refine fun _ (_ : Kept _ _ _) => ?_
    | refine fun _ _ (_ : Kept _ _ _) => ?_
    | refine fun _ _ _ (_ : Kept _ _ _) => ?_
    | apply State.kvlLnak_kept
    | apply State.until_kept
    | apply State.whenActive_kept
    | apply Kept.ite
    | apply KeptOut.next
    | apply KeptOut.ite
    | dsimp only
    | fail_if_no_progress (refine Kept.upd ?_)
    | split

theorem execReplay_kept {port seq : Nat} {st : State} (h_st : Kept kf z0 st) (hkvl : ¬kf.kvl) :
    KeptOut kf z0 (execReplay port seq st) := by
  unfold execReplay
  with_reducible repeat' first
    | assumption
    | refine fun _ (_ : Kept _ _ _) => ?_
    | (extract_lets +onlyGivenNames x; clear_value x)
    | apply State.setKvl_kept
    | apply State.whenActive_kept
    | apply Kept.ite

theorem execLackTimer_kept {port : Nat} {st : State} (h_st : Kept kf z0 st) (hregs : ¬kf.regs) (hcar : ¬kf.car)
    (hmesh : ¬kf.mesh) (hcores : ¬kf.cores) (hfields : ¬kf.fields) (hisl : ¬kf.isl) (hkvl : ¬kf.kvl)
    (hmem : ¬kf.mem) (hnow : ¬kf.now) :
    KeptOut kf z0 (execLackTimer port st) := by
  unfold execLackTimer
  with_reducible repeat' first
    | assumption
    | refine fun _ (_ : Kept _ _ _) => ?_
    | refine fun _ _ (_ : Kept _ _ _) => ?_
    | refine fun _ _ _ (_ : Kept _ _ _) => ?_
    | (extract_lets +onlyGivenNames x; clear_value x)
    | apply State.kvlLack_kept
    | apply State.until_kept
    | apply State.whenActive_kept
    | apply hF
    | apply Kept.ite

theorem execCredit_kept {port ctrlFreed dataFreed : Nat} {st : State} (h_st : Kept kf z0 st) (hregs : ¬kf.regs)
    (hkvl : ¬kf.kvl) :
    KeptOut kf z0 (execCredit port ctrlFreed dataFreed st) := by
  unfold execCredit
  with_reducible repeat' first
    | assumption
    | refine fun _ (_ : Kept _ _ _) => ?_
    | (extract_lets +onlyGivenNames x; clear_value x)
    | apply State.kvlPump_kept
    | apply State.putKvl_kept
    | apply State.whenActive_kept

theorem State.kvlGrant_kept {st : State} {p : Nat} {m : Msg} (h_st : Kept kf z0 st) (hregs : ¬kf.regs)
    (hmesh : ¬kf.mesh) (hkvl : ¬kf.kvl) :
    Kept kf z0 (State.kvlGrant st p m) := by
  unfold State.kvlGrant
  with_reducible repeat' first
    | assumption
    | (extract_lets +onlyGivenNames x; clear_value x)
    | apply State.kvlQueue_kept
    | apply State.kvlRefused_kept
    | apply State.send_kept
    | apply State.setRgrant_kept
    | apply State.track_kept
    | dsimp only
    | split

theorem State.kvlPassCtrl_kept {st : State} {p : Nat} {m : Msg} (h_st : Kept kf z0 st) (hregs : ¬kf.regs)
    (hmesh : ¬kf.mesh) (hkvl : ¬kf.kvl) (hleases : ¬kf.leases) :
    Kept kf z0 (State.kvlPassCtrl st p m) := by
  unfold State.kvlPassCtrl
  with_reducible repeat' first
    | assumption
    | (extract_lets +onlyGivenNames x; first
        | (refine Kept.cut kf z0 x ?_ (fun hx => ?_) <;> [subst x; clear_value x])
        | clear_value x)
    | apply State.kvlAnswer_kept
    | apply State.kvlFree_kept
    | apply State.kvlGrant_kept
    | apply State.kvlInject_kept
    | apply State.kvlRefused_kept
    | apply State.rgrantClose_kept
    | apply State.rgrantSettle_kept
    | apply State.send_kept
    | apply State.setRgrant_kept
    | apply hF
    | apply Kept.ite
    | intro _
    | dsimp only
    | fail_if_no_progress (refine Kept.upd ?_)
    | split

theorem State.kvlAccept_kept {st : State} {p : Nat} {m : Msg} (h_st : Kept kf z0 st) (hregs : ¬kf.regs)
    (hcar : ¬kf.car) (hmesh : ¬kf.mesh) (hkvl : ¬kf.kvl) (hleases : ¬kf.leases) :
    Kept kf z0 (State.kvlAccept st p m) := by
  unfold State.kvlAccept
  with_reducible repeat' first
    | assumption
    | (extract_lets +onlyGivenNames x; first
        | (refine Kept.cut kf z0 x ?_ (fun hx => ?_) <;> [subst x; clear_value x])
        | clear_value x)
    | apply State.addSat_kept
    | apply State.kvlDown_kept
    | apply State.kvlFree_kept
    | apply State.kvlLack_kept
    | apply State.kvlPassCtrl_kept
    | apply State.kvlUnhold_kept
    | apply State.setKvl_kept
    | apply State.wf_kept
    | apply hF
    | apply Kept.ite

theorem execKvlFrame_kept {port seq units : Nat} {crcOk : Bool} {m : Msg} {fixed bad : Nat} {st : State}
    (h_st : Kept kf z0 st) (hregs : ¬kf.regs) (hcar : ¬kf.car) (hmesh : ¬kf.mesh) (hkvl : ¬kf.kvl)
    (hleases : ¬kf.leases) :
    KeptOut kf z0 (execKvlFrame port seq units crcOk m fixed bad st) := by
  unfold execKvlFrame
  with_reducible repeat' first
    | assumption
    | refine fun _ (_ : Kept _ _ _) => ?_
    | (extract_lets +onlyGivenNames x; first
        | (refine Kept.cut kf z0 x ?_ (fun hx => ?_) <;> [subst x; clear_value x])
        | clear_value x)
    | apply State.kvlAccept_kept
    | apply State.kvlDiscard_kept
    | apply State.kvlFec_kept
    | apply State.whenActive_kept
    | apply Kept.ite

theorem State.cmdsRunning_kept {st : State} (h_st : Kept kf z0 st) (hregs : ¬kf.regs) :
    Kept kf z0 (State.cmdsRunning st) := by
  unfold State.cmdsRunning
  with_reducible repeat' first
    | assumption
    | apply State.wf_kept

theorem State.takeItem_kept {st : State} {queue : Nat} {it : Item} (h_st : Kept kf z0 st) (hregs : ¬kf.regs)
    (hmesh : ¬kf.mesh) :
    Kept kf z0 (State.takeItem st queue it) := by
  unfold State.takeItem
  with_reducible repeat' first
    | assumption
    | (extract_lets +onlyGivenNames x; first
        | (refine Kept.cut kf z0 x.2 ?_ (fun hx => ?_) <;> [subst x; clear_value x])
        | clear_value x)
    | apply State.cmdsRunning_kept
    | apply State.consume_kept
    | apply State.endItem_kept
    | apply State.startItem_kept
    | split

theorem State.takeLost_kept {st : State} {queue m a : Nat} (h_st : Kept kf z0 st) (hregs : ¬kf.regs)
    (hmesh : ¬kf.mesh) :
    Kept kf z0 (State.takeLost st queue m a) := by
  unfold State.takeLost
  with_reducible repeat' first
    | assumption
    | (extract_lets +onlyGivenNames x; first
        | (refine Kept.cut kf z0 x.2 ?_ (fun hx => ?_) <;> [subst x; clear_value x])
        | clear_value x)
    | apply State.cmdsRunning_kept
    | apply State.consume_kept
    | apply State.draw_kept
    | apply State.endItem_kept
    | apply State.startItem_kept

theorem State.takeHead_kept {st : State} {queue : Nat} {y0 : Head} (h_st : Kept kf z0 st) (hregs : ¬kf.regs)
    (hmesh : ¬kf.mesh) :
    Kept kf z0 (State.takeHead st queue y0) := by
  unfold State.takeHead
  with_reducible repeat' first
    | assumption
    | apply State.takeItem_kept
    | apply State.takeLost_kept
    | split

theorem execItemStart_kept {queue : Nat} {st : State} (h_st : Kept kf z0 st) (hregs : ¬kf.regs) (hbrs : ¬kf.brs)
    (hmesh : ¬kf.mesh) :
    KeptOut kf z0 (execItemStart queue st) := by
  unfold execItemStart
  with_reducible repeat' first
    | assumption
    | refine fun _ (_ : Kept _ _ _) => ?_
    | refine fun _ _ (_ : Kept _ _ _) => ?_
    | refine fun _ _ _ (_ : Kept _ _ _) => ?_
    | (extract_lets +onlyGivenNames x; first
        | (refine Kept.cut kf z0 x ?_ (fun hx => ?_) <;> [subst x; clear_value x])
        | clear_value x)
    | apply State.takeHead_kept
    | apply State.when_kept
    | apply hF
    | apply Kept.ite
    | apply KeptOut.next
    | apply KeptOut.ite
    | intro _
    | dsimp only
    | fail_if_no_progress (refine Kept.upd ?_)

theorem State.waitExpires_kept {st : State} {queue : Nat} {it : Item} {t : Nat} (h_st : Kept kf z0 st)
    (hregs : ¬kf.regs) (hcar : ¬kf.car) (hmesh : ¬kf.mesh) (hcores : ¬kf.cores) (hfields : ¬kf.fields)
    (hisl : ¬kf.isl) (hmem : ¬kf.mem) (hnow : ¬kf.now) :
    Kept kf z0 (State.waitExpires st queue it t) := by
  unfold State.waitExpires
  with_reducible repeat' first
    | assumption
    | (extract_lets +onlyGivenNames x; first
        | (refine Kept.cut kf z0 x ?_ (fun hx => ?_) <;> [subst x; clear_value x])
        | clear_value x)
    | apply State.cancelWait_kept
    | apply State.setQueue_kept
    | apply State.until_kept
    | apply hF
    | apply Kept.ite

theorem State.headExpires_kept {st : State} {queue : Nat} {y0 : Head} {y1 : Option Nat} (h_st : Kept kf z0 st)
    (hregs : ¬kf.regs) (hcar : ¬kf.car) (hmesh : ¬kf.mesh) (hcores : ¬kf.cores) (hfields : ¬kf.fields)
    (hisl : ¬kf.isl) (hmem : ¬kf.mem) (hnow : ¬kf.now) :
    Kept kf z0 (State.headExpires st queue y0 y1) := by
  unfold State.headExpires
  with_reducible repeat' first
    | assumption
    | apply State.waitExpires_kept
    | apply Kept.ite
    | dsimp only
    | fail_if_no_progress (refine Kept.upd ?_)
    | split

theorem execItemWaitTimeout_kept {queue : Nat} {st : State} (h_st : Kept kf z0 st) (hregs : ¬kf.regs)
    (hcar : ¬kf.car) (hmesh : ¬kf.mesh) (hcores : ¬kf.cores) (hfields : ¬kf.fields) (hisl : ¬kf.isl)
    (hmem : ¬kf.mem) (hnow : ¬kf.now) :
    KeptOut kf z0 (execItemWaitTimeout queue st) := by
  unfold execItemWaitTimeout
  with_reducible repeat' first
    | assumption
    | apply State.headExpires_kept
    | apply Kept.ite
    | apply KeptOut.next

theorem execItemComplete_kept {num : Nat} {st : State} (h_st : Kept kf z0 st) (hregs : ¬kf.regs) (hcar : ¬kf.car)
    (hbrs : ¬kf.brs) (hmesh : ¬kf.mesh) (hcores : ¬kf.cores) (hfields : ¬kf.fields) (hisl : ¬kf.isl)
    (hkvl : ¬kf.kvl) (hleases : ¬kf.leases) (hsnp : ¬kf.snp) :
    KeptOut kf z0 (execItemComplete num st) := by
  unfold execItemComplete
  with_reducible repeat' first
    | assumption
    | apply State.cmdsRunning_kept
    | apply State.completeItem_kept
    | apply State.copyClose_kept
    | apply State.retainOn_kept
    | apply Kept.ite
    | apply KeptOut.next
    | dsimp only
    | split

theorem execItemNop_kept {it : Item} {st : State} (h_st : Kept kf z0 st) :
    KeptOut kf z0 (execItemNop it st) := by
  unfold execItemNop
  with_reducible repeat' first
    | assumption
    | refine fun _ _ (_ : Kept _ _ _) => ?_
    | apply State.endItem_kept
    | apply State.onItem_kept

theorem execCore_kept {it : Item} {st : State} (h_st : Kept kf z0 st) (hregs : ¬kf.regs) (hcores : ¬kf.cores) :
    KeptOut kf z0 (execCore it st) := by
  unfold execCore
  with_reducible repeat' first
    | assumption
    | refine fun _ _ (_ : Kept _ _ _) => ?_
    | (extract_lets +onlyGivenNames x; first
        | (refine Kept.cut kf z0 x ?_ (fun hx => ?_) <;> [subst x; clear_value x])
        | clear_value x)
    | apply State.modItem_kept
    | apply State.onItemIf_kept
    | apply State.submit_kept
    | apply State.tellerItems_kept
    | apply Kept.foldl

theorem execCopyOut_kept {it : Item} {st : State} (h_st : Kept kf z0 st) (hregs : ¬kf.regs) (hbrs : ¬kf.brs)
    (hmesh : ¬kf.mesh) (hcores : ¬kf.cores) :
    KeptOut kf z0 (execCopyOut it st) := by
  unfold execCopyOut
  with_reducible repeat' first
    | assumption
    | refine fun _ _ (_ : Kept _ _ _) => ?_
    | (extract_lets +onlyGivenNames x; first
        | (refine Kept.cut kf z0 x ?_ (fun hx => ?_) <;> [subst x; clear_value x])
        | clear_value x)
    | apply State.endItem_kept
    | apply State.modItem_kept
    | apply State.onItemIf_kept
    | apply State.setGrant_kept
    | apply State.setPart_kept
    | apply State.submit_kept
    | apply State.tellerItems_kept
    | dsimp only
    | split

theorem execFetch_kept {it : Item} {st : State} (h_st : Kept kf z0 st) (hregs : ¬kf.regs) (hmesh : ¬kf.mesh)
    (hleases : ¬kf.leases) :
    KeptOut kf z0 (execFetch it st) := by
  unfold execFetch
  with_reducible repeat' first
    | assumption
    | refine fun _ _ (_ : Kept _ _ _) => ?_
    | apply State.fetchPump_kept
    | apply State.onItem_kept

theorem execWinOpen_kept {it : Item} {st : State} (h_st : Kept kf z0 st) (hregs : ¬kf.regs) (hmesh : ¬kf.mesh)
    (hleases : ¬kf.leases) :
    KeptOut kf z0 (execWinOpen it st) := by
  unfold execWinOpen
  with_reducible repeat' first
    | assumption
    | refine fun _ _ (_ : Kept _ _ _) => ?_
    | (extract_lets +onlyGivenNames x; clear_value x)
    | apply State.endItem_kept
    | apply State.onItemIf_kept
    | apply State.openWindow_kept
    | apply Kept.ite
    | dsimp only
    | split

theorem execWinClose_kept {it : Item} {st : State} (h_st : Kept kf z0 st) (hregs : ¬kf.regs) (hmesh : ¬kf.mesh)
    (hleases : ¬kf.leases) :
    KeptOut kf z0 (execWinClose it st) := by
  unfold execWinClose
  with_reducible repeat' first
    | assumption
    | refine fun _ _ (_ : Kept _ _ _) => ?_
    | (extract_lets +onlyGivenNames x; clear_value x)
    | apply State.closeWindow_kept
    | apply State.endItem_kept
    | apply State.onItem_kept
    | apply Kept.ite

theorem execScripReturn_kept {it : Item} {st : State} (h_st : Kept kf z0 st) (hregs : ¬kf.regs) (hmesh : ¬kf.mesh) :
    KeptOut kf z0 (execScripReturn it st) := by
  unfold execScripReturn
  with_reducible repeat' first
    | assumption
    | refine fun _ _ (_ : Kept _ _ _) => ?_
    | (extract_lets +onlyGivenNames x; first
        | (refine Kept.cut kf z0 x ?_ (fun hx => ?_) <;> [subst x; clear_value x])
        | clear_value x)
    | apply State.endItem_kept
    | apply State.onItem_kept
    | apply State.send_kept
    | apply State.setWindow_kept
    | apply Kept.ite

theorem execLeaseGranule_kept {it : Item} {st : State} (h_st : Kept kf z0 st) (hregs : ¬kf.regs) (hmesh : ¬kf.mesh)
    (hleases : ¬kf.leases) :
    KeptOut kf z0 (execLeaseGranule it st) := by
  unfold execLeaseGranule
  with_reducible repeat' first
    | assumption
    | refine fun _ _ (_ : Kept _ _ _) => ?_
    | (extract_lets +onlyGivenNames x; clear_value x)
    | apply State.endItem_kept
    | apply State.granuleMove_kept
    | apply State.onItem_kept
    | apply State.quarantine_kept
    | apply Kept.ite
    | split

theorem execObjectSet_kept {it : Item} {st : State} (h_st : Kept kf z0 st) (hregs : ¬kf.regs) :
    KeptOut kf z0 (execObjectSet it st) := by
  unfold execObjectSet
  with_reducible repeat' first
    | assumption
    | refine fun _ _ (_ : Kept _ _ _) => ?_
    | (extract_lets +onlyGivenNames x; clear_value x)
    | apply State.endItem_kept
    | apply State.onItem_kept
    | apply State.setObj_kept
    | apply Kept.ite

theorem State.rebuildTree_kept {st : State} (h_st : Kept kf z0 st) (hregs : ¬kf.regs) (hmesh : ¬kf.mesh) :
    Kept kf z0 (State.rebuildTree st) := by
  unfold State.rebuildTree
  with_reducible repeat' first
    | assumption
    | refine fun _ (_ : Kept _ _ _) => ?_
    | refine fun _ _ (_ : Kept _ _ _) => ?_
    | refine fun _ _ _ (_ : Kept _ _ _) => ?_
    | (extract_lets +onlyGivenNames x; first
        | (refine Kept.cut kf z0 x ?_ (fun hx => ?_) <;> [subst x; clear_value x])
        | clear_value x)
    | apply State.nodeEnter_kept
    | apply State.setb_kept
    | apply hF
    | apply Kept.ite
    | apply Kept.foldl
    | apply Kept.foldl₁
    | apply Kept.foldl₂
    | apply Kept.foldl₂₂
    | intro _
    | dsimp only
    | fail_if_no_progress (refine Kept.upd ?_)

theorem State.moveReference_kept {st : State} {a b : Nat} (h_st : Kept kf z0 st) (hregs : ¬kf.regs)
    (hmesh : ¬kf.mesh) :
    Kept kf z0 (State.moveReference st a b) := by
  unfold State.moveReference
  with_reducible repeat' first
    | assumption
    | (extract_lets +onlyGivenNames x; first
        | (refine Kept.cut kf z0 x ?_ (fun hx => ?_) <;> [subst x; clear_value x])
        | clear_value x)
    | apply State.nodeEnter_kept
    | apply State.rebuildTree_kept
    | apply State.setb_kept
    | apply State.tbsUpdate_kept
    | apply State.wf_kept
    | apply State.wn_kept
    | apply hF
    | apply Kept.ite

theorem State.takeShadow_kept {st : State} (h_st : Kept kf z0 st) (hregs : ¬kf.regs) :
    Kept kf z0 (State.takeShadow st) := by
  unfold State.takeShadow
  with_reducible repeat' first
    | assumption
    | refine fun _ _ (_ : Kept _ _ _) => ?_
    | (extract_lets +onlyGivenNames x; refine Kept.cut kf z0 x ?_ (fun hx => ?_) <;> [subst x; clear_value x])
    | apply State.setWaits_kept
    | apply State.wf_kept
    | apply Kept.foldl

theorem State.dropManaged_kept {st : State} (h_st : Kept kf z0 st) (hregs : ¬kf.regs) (hbrs : ¬kf.brs) :
    Kept kf z0 (State.dropManaged st) := by
  unfold State.dropManaged
  with_reducible repeat' first
    | assumption
    | refine fun _ _ (_ : Kept _ _ _) => ?_
    | (extract_lets +onlyGivenNames x; first
        | (refine Kept.cut kf z0 x ?_ (fun hx => ?_) <;> [subst x; clear_value x])
        | clear_value x)
    | apply State.cmdsRunning_kept
    | apply State.setPart_kept
    | apply Kept.ite
    | apply Kept.foldl
    | fail_if_no_progress (refine Kept.upd ?_)
    | split

theorem State.cutLoad_kept {st : State} (h_st : Kept kf z0 st) (hregs : ¬kf.regs) (hbrs : ¬kf.brs) :
    Kept kf z0 (State.cutLoad st) := by
  unfold State.cutLoad
  with_reducible repeat' first
    | assumption
    | (extract_lets +onlyGivenNames x; first
        | (refine Kept.cut kf z0 x ?_ (fun hx => ?_) <;> [subst x; clear_value x])
        | clear_value x)
    | apply State.recordErr_kept
    | apply State.wf_kept
    | apply Kept.ite
    | fail_if_no_progress (refine Kept.upd ?_)

theorem State.rebuild_kept {st : State} (h_st : Kept kf z0 st) (hregs : ¬kf.regs) (hcar : ¬kf.car)
    (hbrs : ¬kf.brs) (hmesh : ¬kf.mesh) (hcores : ¬kf.cores) (hfields : ¬kf.fields) (hisl : ¬kf.isl)
    (hkvl : ¬kf.kvl) (hleases : ¬kf.leases) (hsnp : ¬kf.snp) :
    Kept kf z0 (State.rebuild st) := by
  unfold State.rebuild
  with_reducible repeat' first
    | assumption
    | refine fun _ (_ : Kept _ _ _) => ?_
    | refine fun _ _ (_ : Kept _ _ _) => ?_
    | refine fun _ _ _ (_ : Kept _ _ _) => ?_
    | (extract_lets +onlyGivenNames x; first
        | (refine Kept.cut kf z0 x ?_ (fun hx => ?_) <;> [subst x; clear_value x])
        | clear_value x)
    | apply State.bursarDown_kept
    | apply State.fallOn_kept
    | apply State.releaseLease_kept
    | apply State.setb_kept
    | apply hF
    | apply Kept.ite
    | apply Kept.foldl
    | apply Kept.foldl₁
    | apply Kept.foldl₂
    | apply Kept.foldl₂₂
    | intro _
    | dsimp only
    | fail_if_no_progress (refine Kept.upd ?_)
    | split

theorem State.carryOver_kept {st : State} (h_st : Kept kf z0 st) (hregs : ¬kf.regs) (hcar : ¬kf.car)
    (hbrs : ¬kf.brs) (hmesh : ¬kf.mesh) (hcores : ¬kf.cores) (hfields : ¬kf.fields) (hisl : ¬kf.isl)
    (hkvl : ¬kf.kvl) (hleases : ¬kf.leases) (hsnp : ¬kf.snp) :
    Kept kf z0 (State.carryOver st) := by
  unfold State.carryOver
  with_reducible repeat' first
    | assumption
    | refine fun _ _ (_ : Kept _ _ _) => ?_
    | (extract_lets +onlyGivenNames x; first
        | (refine Kept.cut kf z0 x ?_ (fun hx => ?_) <;> [subst x; clear_value x])
        | clear_value x)
    | apply State.bursarDown_kept
    | apply State.clrb_kept
    | apply State.fallOn_kept
    | apply State.quarantineAll_kept
    | apply Kept.ite
    | apply Kept.foldl

theorem State.failover_kept {st : State} {a b : Nat} {back : Bool} (h_st : Kept kf z0 st) (hregs : ¬kf.regs)
    (hcar : ¬kf.car) (hbrs : ¬kf.brs) (hmesh : ¬kf.mesh) (hcores : ¬kf.cores) (hfields : ¬kf.fields)
    (hflash : ¬kf.flash) (hisl : ¬kf.isl) (hkvl : ¬kf.kvl) (hleases : ¬kf.leases) (hmem : ¬kf.mem)
    (hnow : ¬kf.now) (hsnp : ¬kf.snp) :
    Kept kf z0 (State.failover st a b back) := by
  unfold State.failover
  with_reducible repeat' first
    | assumption
    | (extract_lets +onlyGivenNames x; first
        | (have : x.fuses = x.fuses := (by rfl); clear this; subst x)
        | clear_value x)
    | apply State.addSat_kept
    | apply State.carryOver_kept
    | apply State.clrb_kept
    | apply State.cutLoad_kept
    | apply State.dropManaged_kept
    | apply State.endpointDown_kept
    | apply State.fault_kept
    | apply State.ledgerEvent_kept
    | apply State.moveReference_kept
    | apply State.rebuild_kept
    | apply State.retireField_kept
    | apply State.until_kept
    | apply State.setField_kept
    | apply State.takeShadow_kept
    | apply State.wf_kept
    | apply Kept.ite
    | fail_if_no_progress (refine Kept.upd ?_)

theorem execAnchorFailover_kept {back : Bool} {st : State} (h_st : Kept kf z0 st) (hregs : ¬kf.regs)
    (hcar : ¬kf.car) (hbrs : ¬kf.brs) (hmesh : ¬kf.mesh) (hcores : ¬kf.cores) (hfields : ¬kf.fields)
    (hflash : ¬kf.flash) (hisl : ¬kf.isl) (hkvl : ¬kf.kvl) (hleases : ¬kf.leases) (hmem : ¬kf.mem)
    (hnow : ¬kf.now) (hsnp : ¬kf.snp) :
    KeptOut kf z0 (execAnchorFailover back st) := by
  unfold execAnchorFailover
  with_reducible repeat' first
    | assumption
    | refine fun _ (_ : Kept _ _ _) => ?_
    | refine fun _ _ (_ : Kept _ _ _) => ?_
    | refine fun _ _ _ (_ : Kept _ _ _) => ?_
    | apply State.failover_kept
    | apply State.until_kept
    | apply State.when_kept
    | apply Kept.ite
    | apply KeptOut.next
    | apply KeptOut.ite
    | dsimp only
    | fail_if_no_progress (refine Kept.upd ?_)
    | split

end Sys2Proof.Machine
end

