-- ==== Sys2Proof/Laws/KeptPorts.lean ====
section
/-! SUPPORT. What islands, tallies and sensor ports keep (see Kept.lean). -/

namespace Sys2Proof.Machine

set_option Elab.async false

set_option linter.unusedVariables false

variable {kf : Facets} {z0 : State}

theorem State.forwardLost_kept {st : State} {m : Msg} (h_st : Kept kf z0 st) (hregs : ¬kf.regs) (hmesh : ¬kf.mesh) :
    Kept kf z0 (State.forwardLost st m) := by
  unfold State.forwardLost
  with_reducible repeat' first
    | assumption
    | (extract_lets +onlyGivenNames x; refine Kept.cut kf z0 x ?_ (fun hx => ?_) <;> [subst x; clear_value x])
    | apply State.addSat_kept
    | apply State.dropSent_kept
    | split

theorem State.signalDone_kept {st : State} {x : Sent} {status : Nat} (h_st : Kept kf z0 st) (hregs : ¬kf.regs)
    (hmesh : ¬kf.mesh) (hcores : ¬kf.cores) (hisl : ¬kf.isl) (hkvl : ¬kf.kvl) (hleases : ¬kf.leases) :
    Kept kf z0 (State.signalDone st x status) := by
  unfold State.signalDone
  with_reducible repeat' first
    | assumption
    | refine fun _ (_ : Kept _ _ _) => ?_
    | refine fun _ _ (_ : Kept _ _ _) => ?_
    | refine fun _ _ _ (_ : Kept _ _ _) => ?_
    | (extract_lets +onlyGivenNames x; clear_value x)
    | apply State.addSat_kept
    | apply State.kvlQueue_kept
    | apply State.kvlUnhold_kept
    | apply State.leaseUse_kept
    | apply State.notice_kept
    | apply State.setCore_kept
    | apply State.setb_kept
    | apply State.ssSignalled_kept
    | apply hF
    | apply Kept.ite
    | apply Kept.foldl
    | apply Kept.foldl₁
    | apply Kept.foldl₂
    | apply Kept.foldl₂₂
    | intro _
    | dsimp only
    | fail_if_no_progress (refine Kept.upd ?_)
    | split

theorem State.refused_kept {st : State} {m : Msg} (h_st : Kept kf z0 st) (hregs : ¬kf.regs) (hmesh : ¬kf.mesh)
    (hcores : ¬kf.cores) (hisl : ¬kf.isl) (hkvl : ¬kf.kvl) (hleases : ¬kf.leases) (hsnp : ¬kf.snp) :
    Kept kf z0 (State.refused st m) := by
  unfold State.refused
  with_reducible repeat' first
    | assumption
    | apply State.answered_kept
    | apply State.dropSent_kept
    | apply State.forwardLost_kept
    | apply State.signalDone_kept
    | apply Kept.ite
    | dsimp only
    | fail_if_no_progress (refine Kept.upd ?_)
    | split

theorem execNak_kept {m : Msg} {st : State} (h_st : Kept kf z0 st) (hregs : ¬kf.regs) (hmesh : ¬kf.mesh)
    (hcores : ¬kf.cores) (hisl : ¬kf.isl) (hkvl : ¬kf.kvl) (hleases : ¬kf.leases) (hsnp : ¬kf.snp) :
    KeptOut kf z0 (execNak m st) := by
  unfold execNak
  with_reducible repeat' first
    | assumption
    | refine fun _ (_ : Kept _ _ _) => ?_
    | refine fun _ _ (_ : Kept _ _ _) => ?_
    | refine fun _ _ _ (_ : Kept _ _ _) => ?_
    | apply State.onArrived_kept
    | apply State.refused_kept
    | apply State.snpPumpAll_kept
    | apply Kept.ite
    | apply KeptOut.next
    | apply KeptOut.ite

theorem State.islUser_kept {st : State} {who : Who} {fn s i : Nat} {isWrite : Bool} {value : Nat}
    (h_st : Kept kf z0 st) (hregs : ¬kf.regs) (hisl : ¬kf.isl) :
    Kept kf z0 (State.islUser st who fn s i isWrite value) := by
  unfold State.islUser
  with_reducible repeat' first
    | assumption
    | refine fun _ (_ : Kept _ _ _) => ?_
    | refine fun _ _ (_ : Kept _ _ _) => ?_
    | refine fun _ _ _ (_ : Kept _ _ _) => ?_
    | (extract_lets +onlyGivenNames x; first
        | (refine Kept.cut kf z0 x ?_ (fun hx => ?_) <;> [subst x; clear_value x])
        | (refine Kept.cutA kf z0 x ?_ (fun hF => ?_) <;> [subst x; clear_value x])
        | clear_value x)
    | apply State.accErr_kept
    | apply State.answer_kept
    | apply State.emit_kept
    | apply State.setIsl_kept
    | apply hF
    | apply Kept.ite
    | intro _
    | dsimp only
    | fail_if_no_progress (refine Kept.upd ?_)
    | split

theorem execIslUserAccess_kept {who : Who} {fn s i : Nat} {isWrite : Bool} {value : Nat} {st : State}
    (h_st : Kept kf z0 st) (hregs : ¬kf.regs) (hisl : ¬kf.isl) :
    KeptOut kf z0 (execIslUserAccess who fn s i isWrite value st) := by
  unfold execIslUserAccess
  with_reducible repeat' first
    | assumption
    | refine fun _ (_ : Kept _ _ _) => ?_
    | apply State.islUser_kept
    | apply State.when_kept
    | apply KeptOut.next

theorem execIslRegRsp_kept {fn s : Nat} {word : List Nat} {st : State} (h_st : Kept kf z0 st) (hregs : ¬kf.regs)
    (hisl : ¬kf.isl) :
    KeptOut kf z0 (execIslRegRsp fn s word st) := by
  unfold execIslRegRsp
  with_reducible repeat' first
    | assumption
    | (extract_lets +onlyGivenNames x; clear_value x)
    | apply State.answer_kept
    | apply State.setIsl_kept
    | apply hF
    | apply Kept.ite
    | apply KeptOut.next
    | apply KeptOut.ite
    | intro _
    | dsimp only
    | fail_if_no_progress (refine Kept.upd ?_)
    | split

theorem execIslRegTimeout_kept {fn s : Nat} {isWrite : Bool} {st : State} (h_st : Kept kf z0 st)
    (hregs : ¬kf.regs) (hcar : ¬kf.car) (hmesh : ¬kf.mesh) (hcores : ¬kf.cores) (hfields : ¬kf.fields)
    (hisl : ¬kf.isl) (hmem : ¬kf.mem) (hnow : ¬kf.now) :
    KeptOut kf z0 (execIslRegTimeout fn s isWrite st) := by
  unfold execIslRegTimeout
  with_reducible repeat' first
    | assumption
    | (extract_lets +onlyGivenNames x; clear_value x)
    | apply State.accErr_kept
    | apply State.setIsl_kept
    | apply State.until_kept
    | apply hF
    | apply Kept.ite
    | apply KeptOut.next
    | apply KeptOut.ite
    | intro _
    | dsimp only
    | fail_if_no_progress (refine Kept.upd ?_)
    | split

theorem execIslandAttn_kept {fn s : Nat} {st : State} (h_st : Kept kf z0 st) (hregs : ¬kf.regs) (hisl : ¬kf.isl) :
    KeptOut kf z0 (execIslandAttn fn s st) := by
  unfold execIslandAttn
  with_reducible repeat' first
    | assumption
    | refine fun _ (_ : Kept _ _ _) => ?_
    | refine fun _ _ (_ : Kept _ _ _) => ?_
    | refine fun _ _ _ (_ : Kept _ _ _) => ?_
    | (extract_lets +onlyGivenNames x; first
        | (refine Kept.cut kf z0 x ?_ (fun hx => ?_) <;> [subst x; clear_value x])
        | clear_value x)
    | apply State.addSat_kept
    | apply State.attnNotice_kept
    | apply State.setIsl_kept
    | apply State.when_kept
    | apply hF
    | apply Kept.ite
    | apply KeptOut.next

theorem execPfInWord_kept {fn s : Nat} {word : List Nat} {st : State} (h_st : Kept kf z0 st) (hregs : ¬kf.regs)
    (hcores : ¬kf.cores) (hisl : ¬kf.isl) :
    KeptOut kf z0 (execPfInWord fn s word st) := by
  unfold execPfInWord
  with_reducible repeat' first
    | assumption
    | refine fun _ (_ : Kept _ _ _) => ?_
    | (extract_lets +onlyGivenNames x; clear_value x)
    | apply State.pfMatch_kept
    | apply State.setIsl_kept
    | apply State.when_kept
    | apply Kept.ite
    | apply KeptOut.next

theorem execSsReq_kept {fn s : Nat} {word : List Nat} {st : State} (h_st : Kept kf z0 st) (hregs : ¬kf.regs)
    (hcar : ¬kf.car) (hmesh : ¬kf.mesh) (hcores : ¬kf.cores) (hisl : ¬kf.isl) (hmem : ¬kf.mem) :
    KeptOut kf z0 (execSsReq fn s word st) := by
  unfold execSsReq
  with_reducible repeat' first
    | assumption
    | refine fun _ (_ : Kept _ _ _) => ?_
    | (extract_lets +onlyGivenNames x; clear_value x)
    | apply State.setIsl_kept
    | apply State.ssPump_kept
    | apply State.when_kept
    | apply Kept.ite
    | apply KeptOut.next

theorem execUtxRxWord_kept {lane word : Nat} {st : State} (h_st : Kept kf z0 st) (hregs : ¬kf.regs) (hisl : ¬kf.isl) :
    KeptOut kf z0 (execUtxRxWord lane word st) := by
  unfold execUtxRxWord
  with_reducible repeat' first
    | assumption
    | (extract_lets +onlyGivenNames x; clear_value x)
    | apply State.addSat_kept
    | apply State.emit_kept
    | apply State.setIsl_kept
    | apply Kept.ite
    | apply KeptOut.next
    | dsimp only
    | split

theorem execUtxTxWord_kept {lane word : Nat} {st : State} (h_st : Kept kf z0 st) :
    KeptOut kf z0 (execUtxTxWord lane word st) := by
  unfold execUtxTxWord
  with_reducible repeat' first
    | assumption
    | apply State.emit_kept
    | apply KeptOut.next
    | split

theorem State.islReset_kept {st : State} {fn s : Nat} {on : Bool} (h_st : Kept kf z0 st) (hregs : ¬kf.regs)
    (hcores : ¬kf.cores) (hisl : ¬kf.isl) :
    Kept kf z0 (State.islReset st fn s on) := by
  unfold State.islReset
  with_reducible repeat' first
    | assumption
    | refine fun _ (_ : Kept _ _ _) => ?_
    | refine fun _ _ (_ : Kept _ _ _) => ?_
    | refine fun _ _ _ (_ : Kept _ _ _) => ?_
    | (extract_lets +onlyGivenNames x; first
        | (refine Kept.cut kf z0 x ?_ (fun hx => ?_) <;> [subst x; clear_value x])
        | clear_value x)
    | apply State.accErr_kept
    | apply State.dropRequester_kept
    | apply State.islDown_kept
    | apply State.islUp_kept
    | apply State.setIsl_kept
    | apply State.wf_kept
    | apply hF
    | apply Kept.ite
    | apply Kept.foldl

theorem State.islMode_kept {st : State} {fn s tap lo v : Nat} (h_st : Kept kf z0 st) (hregs : ¬kf.regs) :
    Kept kf z0 (State.islMode st fn s tap lo v) := by
  unfold State.islMode
  with_reducible repeat' first
    | assumption
    | apply State.setb_kept
    | apply State.wf_kept
    | apply Kept.ite

theorem State.islCtlWrite_kept {st : State} {who : Who} {fn s : Nat} {f : State → State} (h_st : Kept kf z0 st)
    (h_f : ∀ v0, Kept kf z0 v0 → Kept kf z0 (f v0)) (hregs : ¬kf.regs) :
    Kept kf z0 (State.islCtlWrite st who fn s f) := by
  unfold State.islCtlWrite
  with_reducible repeat' first
    | assumption
    | (extract_lets +onlyGivenNames x; clear_value x)
    | apply State.accErr_kept
    | apply h_f
    | apply Kept.ite
    | split

theorem State.islCtl_kept {st : State} {fn s value : Nat} (h_st : Kept kf z0 st) (hregs : ¬kf.regs)
    (hcores : ¬kf.cores) (hisl : ¬kf.isl) :
    Kept kf z0 (State.islCtl st fn s value) := by
  unfold State.islCtl
  with_reducible repeat' first
    | assumption
    | (extract_lets +onlyGivenNames x; first
        | (refine Kept.cut kf z0 x ?_ (fun hx => ?_) <;> [subst x; clear_value x])
        | clear_value x)
    | apply State.islMode_kept
    | apply State.islReset_kept
    | apply State.tapFlush_kept
    | apply State.wf_kept
    | apply hF
    | apply Kept.ite

theorem execIslandReset_kept {who : Who} {fn s : Nat} {on : Bool} {st : State} (h_st : Kept kf z0 st)
    (hregs : ¬kf.regs) (hcores : ¬kf.cores) (hisl : ¬kf.isl) :
    KeptOut kf z0 (execIslandReset who fn s on st) := by
  unfold execIslandReset
  with_reducible repeat' first
    | assumption
    | refine fun _ (_ : Kept _ _ _) => ?_
    | apply State.islCtlWrite_kept
    | apply State.islReset_kept
    | apply State.when_kept
    | apply KeptOut.next

theorem execTapFlush_kept {who : Who} {fn s : Nat} {st : State} (h_st : Kept kf z0 st) (hregs : ¬kf.regs)
    (hcores : ¬kf.cores) (hisl : ¬kf.isl) :
    KeptOut kf z0 (execTapFlush who fn s st) := by
  unfold execTapFlush
  with_reducible repeat' first
    | assumption
    | refine fun _ (_ : Kept _ _ _) => ?_
    | refine fun _ _ (_ : Kept _ _ _) => ?_
    | refine fun _ _ _ (_ : Kept _ _ _) => ?_
    | apply State.islCtlWrite_kept
    | apply State.tapFlush_kept
    | apply State.when_kept
    | apply Kept.ite
    | apply KeptOut.next

theorem State.tack_kept {st : State} {m : Msg} {status : Nat} (h_st : Kept kf z0 st) (hmesh : ¬kf.mesh) :
    Kept kf z0 (State.tack st m status) := by
  unfold State.tack
  with_reducible repeat' first
    | assumption
    | apply State.send_kept

theorem State.relaySignal_kept {st : State} {m : Msg} {p : Nat} {y0 : Option Nat} (h_st : Kept kf z0 st)
    (hregs : ¬kf.regs) (hmesh : ¬kf.mesh) (hkvl : ¬kf.kvl) :
    Kept kf z0 (State.relaySignal st m p y0) := by
  unfold State.relaySignal
  with_reducible repeat' first
    | assumption
    | apply State.forwardLost_kept
    | apply State.kvlAddTag_kept
    | apply State.kvlQueue_kept
    | apply Kept.ite
    | dsimp only
    | split

theorem State.takeSignal_kept {kf : Facets} {z0 st : State} {m : Msg} (h : Kept kf z0 st) (hregs : ¬kf.regs)
    (hmesh : ¬kf.mesh) : Kept kf z0 (State.takeSignal st m) := by
  unfold State.takeSignal
  refine Kept.ite ?_ ?_
  · exact State.tack_kept (State.tallySignal_kept h hregs hmesh) hmesh
  · exact State.tack_kept h hmesh

theorem execTsignal_kept {m : Msg} {st : State} (h_st : Kept kf z0 st) (hregs : ¬kf.regs) (hmesh : ¬kf.mesh)
    (hkvl : ¬kf.kvl) :
    KeptOut kf z0 (execTsignal m st) := by
  unfold execTsignal
  with_reducible repeat' first
    | assumption
    | refine fun _ (_ : Kept _ _ _) => ?_
    | (extract_lets +onlyGivenNames x; clear_value x)
    | apply State.onArrived_kept
    | apply State.relaySignal_kept
    | apply State.takeSignal_kept
    | apply Kept.ite
    | apply KeptOut.next
    | apply KeptOut.ite

theorem execTack_kept {m : Msg} {st : State} (h_st : Kept kf z0 st) (hregs : ¬kf.regs) (hmesh : ¬kf.mesh)
    (hcores : ¬kf.cores) (hisl : ¬kf.isl) (hkvl : ¬kf.kvl) (hleases : ¬kf.leases) :
    KeptOut kf z0 (execTack m st) := by
  unfold execTack
  with_reducible repeat' first
    | assumption
    | refine fun _ (_ : Kept _ _ _) => ?_
    | refine fun _ _ (_ : Kept _ _ _) => ?_
    | refine fun _ _ _ (_ : Kept _ _ _) => ?_
    | apply State.dropSent_kept
    | apply State.onArrived_kept
    | apply State.signalDone_kept
    | apply Kept.ite
    | apply KeptOut.next
    | apply KeptOut.ite
    | dsimp only
    | fail_if_no_progress (refine Kept.upd ?_)
    | split

theorem execTwait_kept {m : Msg} {st : State} (h_st : Kept kf z0 st) (hmesh : ¬kf.mesh) :
    KeptOut kf z0 (execTwait m st) := by
  unfold execTwait
  with_reducible repeat' first
    | assumption
    | refine fun _ (_ : Kept _ _ _) => ?_
    | refine fun _ _ (_ : Kept _ _ _) => ?_
    | refine fun _ _ _ (_ : Kept _ _ _) => ?_
    | (extract_lets +onlyGivenNames x; clear_value x)
    | apply State.onArrived_kept
    | apply State.setWaits_kept
    | apply State.wakeMsg_kept
    | apply hF
    | apply Kept.ite
    | apply KeptOut.next
    | apply KeptOut.ite

theorem State.wakeCore_kept {st : State} {fn s : Nat} {m : Msg} (h_st : Kept kf z0 st) (hcores : ¬kf.cores) :
    Kept kf z0 (State.wakeCore st fn s m) := by
  unfold State.wakeCore
  with_reducible repeat' first
    | assumption
    | (extract_lets +onlyGivenNames x; clear_value x)
    | apply State.setCore_kept
    | apply Kept.ite
    | dsimp only
    | split

theorem State.wakeItem_kept {st : State} {key : Nat} {m : Msg} {it : Item} {t : Nat} (h_st : Kept kf z0 st)
    (hregs : ¬kf.regs) (hmesh : ¬kf.mesh) :
    Kept kf z0 (State.wakeItem st key m it t) := by
  unfold State.wakeItem
  with_reducible repeat' first
    | assumption
    | (extract_lets +onlyGivenNames x; first
        | (refine Kept.cut kf z0 x.2 ?_ (fun hx => ?_) <;> [subst x; clear_value x])
        | clear_value x)
    | apply State.consume_kept
    | apply State.endItem_kept
    | apply State.setQueue_kept
    | apply State.startItem_kept
    | apply hF
    | apply Kept.ite
    | intro _
    | dsimp only
    | fail_if_no_progress (refine Kept.upd ?_)
    | split

theorem State.wakeHead_kept {st : State} {key : Nat} {m : Msg} {y0 : Head} {y1 : Option Nat} (h_st : Kept kf z0 st)
    (hregs : ¬kf.regs) (hmesh : ¬kf.mesh) :
    Kept kf z0 (State.wakeHead st key m y0 y1) := by
  unfold State.wakeHead
  with_reducible repeat' first
    | assumption
    | apply State.wakeItem_kept
    | split

theorem State.wakeQueue_kept {st : State} {key : Nat} {m : Msg} (h_st : Kept kf z0 st) (hregs : ¬kf.regs)
    (hmesh : ¬kf.mesh) :
    Kept kf z0 (State.wakeQueue st key m) := by
  unfold State.wakeQueue
  with_reducible repeat' first
    | assumption
    | apply State.wakeHead_kept

theorem execTwake_kept {m : Msg} {st : State} (h_st : Kept kf z0 st) (hregs : ¬kf.regs) (hmesh : ¬kf.mesh)
    (hcores : ¬kf.cores) :
    KeptOut kf z0 (execTwake m st) := by
  unfold execTwake
  with_reducible repeat' first
    | assumption
    | refine fun _ (_ : Kept _ _ _) => ?_
    | apply State.onArrived_kept
    | apply State.wakeCore_kept
    | apply State.wakeQueue_kept
    | apply Kept.ite
    | apply KeptOut.next
    | apply KeptOut.ite

theorem State.tallyValue_kept {st : State} {who : Who} {i value : Nat} (h_st : Kept kf z0 st) (hregs : ¬kf.regs)
    (hmesh : ¬kf.mesh) :
    Kept kf z0 (State.tallyValue st who i value) := by
  unfold State.tallyValue
  with_reducible repeat' first
    | assumption
    | apply State.accErr_kept
    | apply State.tallySignal_kept
    | apply Kept.ite
    | split

theorem execTallyValueWrite_kept {who : Who} {i value : Nat} {st : State} (h_st : Kept kf z0 st) (hregs : ¬kf.regs)
    (hmesh : ¬kf.mesh) :
    KeptOut kf z0 (execTallyValueWrite who i value st) := by
  unfold execTallyValueWrite
  with_reducible repeat' first
    | assumption
    | apply State.tallyValue_kept
    | apply Kept.ite
    | apply KeptOut.next

theorem State.tallyStat_kept {st : State} {who : Who} {i value : Nat} (h_st : Kept kf z0 st) (hregs : ¬kf.regs) :
    Kept kf z0 (State.tallyStat st who i value) := by
  unfold State.tallyStat
  with_reducible repeat' first
    | assumption
    | (extract_lets +onlyGivenNames x; clear_value x)
    | apply State.accErr_kept
    | apply State.wf_kept
    | apply Kept.ite
    | split

theorem execTallyStatWrite_kept {who : Who} {i value : Nat} {st : State} (h_st : Kept kf z0 st) (hregs : ¬kf.regs) :
    KeptOut kf z0 (execTallyStatWrite who i value st) := by
  unfold execTallyStatWrite
  with_reducible repeat' first
    | assumption
    | apply State.tallyStat_kept
    | apply Kept.ite
    | apply KeptOut.next

theorem State.snpErr_kept {st : State} {n code : Nat} (h_st : Kept kf z0 st) (hregs : ¬kf.regs) :
    Kept kf z0 (State.snpErr st n code) := by
  unfold State.snpErr
  with_reducible repeat' first
    | assumption
    | apply State.wf_kept

theorem State.snpClose_kept {st : State} {n r : Nat} (h_st : Kept kf z0 st) (hregs : ¬kf.regs) (hmesh : ¬kf.mesh)
    (hleases : ¬kf.leases) (hsnp : ¬kf.snp) :
    Kept kf z0 (State.snpClose st n r) := by
  unfold State.snpClose
  with_reducible repeat' first
    | assumption
    | (extract_lets +onlyGivenNames x; clear_value x)
    | apply State.setSnp_kept
    | apply State.snpPump_kept
    | apply Kept.ite

theorem State.snpTake_kept {st : State} {n r : Nat} {data : List Nat} (h_st : Kept kf z0 st) (hregs : ¬kf.regs)
    (hsnp : ¬kf.snp) :
    Kept kf z0 (State.snpTake st n r data) := by
  unfold State.snpTake
  with_reducible repeat' first
    | assumption
    | (extract_lets +onlyGivenNames x; first
        | (refine Kept.cut kf z0 x ?_ (fun hx => ?_) <;> [subst x; clear_value x])
        | clear_value x)
    | apply State.addSat_kept
    | apply State.setSnp_kept
    | apply State.setb_kept
    | apply State.snpNotice_kept
    | apply Kept.ite

theorem State.snpLoseFrame_kept {st : State} {n : Nat} (h_st : Kept kf z0 st) (hsnp : ¬kf.snp) :
    Kept kf z0 (State.snpLoseFrame st n) := by
  unfold State.snpLoseFrame
  with_reducible repeat' first
    | assumption
    | (extract_lets +onlyGivenNames x; clear_value x)
    | apply State.setSnp_kept

theorem State.snpPlayAt_kept {st : State} {n r d edges ns : Nat} (h_st : Kept kf z0 st) (hregs : ¬kf.regs)
    (hmesh : ¬kf.mesh) (hsnp : ¬kf.snp) :
    Kept kf z0 (State.snpPlayAt st n r d edges ns).1 := by
  unfold State.snpPlayAt
  with_reducible repeat' first
    | assumption
    | (extract_lets +onlyGivenNames x; first
        | (refine Kept.cut kf z0 x ?_ (fun hx => ?_) <;> [subst x; clear_value x])
        | clear_value x)
    | apply State.addSat_kept
    | apply State.setSnp_kept
    | apply State.setb_kept
    | apply State.snpLate_kept
    | apply State.snpNotice_kept
    | apply State.snpReturn_kept
    | apply Kept.ite
    | apply Kept.ite₁

theorem State.snpPlay_kept {st : State} {n r edges ns : Nat} (h_st : Kept kf z0 st) (hregs : ¬kf.regs)
    (hmesh : ¬kf.mesh) (hsnp : ¬kf.snp) :
    Kept kf z0 (State.snpPlay st n r edges ns).1 := by
  unfold State.snpPlay
  with_reducible repeat' first
    | assumption
    | (extract_lets +onlyGivenNames x; first
        | (refine Kept.cut kf z0 x ?_ (fun hx => ?_) <;> [subst x; clear_value x])
        | (refine Kept.cut kf z0 x.1 ?_ (fun hx => ?_) <;> [subst x; clear_value x])
        | (refine Kept.cut kf z0 x.2 ?_ (fun hx => ?_) <;> [subst x; clear_value x])
        | (refine Kept.cut kf z0 x.2.2 ?_ (fun hx => ?_) <;> [subst x; clear_value x])
        | (refine Kept.cutF kf z0 x ?_ (fun hF => ?_) <;> [subst x; clear_value x])
        | (refine Kept.cutF₁ kf z0 x ?_ (fun hF => ?_) <;> [subst x; clear_value x])
        | (refine Kept.cutF₂ kf z0 x ?_ (fun hF => ?_) <;> [subst x; clear_value x])
        | (refine Kept.cutP kf z0 x ?_ (fun hF => ?_) <;> [subst x; clear_value x])
        | (refine Kept.cutA kf z0 x ?_ (fun hF => ?_) <;> [subst x; clear_value x])
        | (have : x.fuses = x.fuses := (by rfl); clear this; subst x)
        | clear_value x)
    | apply State.setSnp_kept
    | apply State.snpPlayAt_kept
    | apply hF
    | apply Kept.ite
    | apply Kept.ite₁
    | intro _
    | dsimp only
    | fail_if_no_progress (refine Kept.upd ?_)
    | split

theorem State.snpEmit_kept {st : State} {n s : Nat} {plays : List Play} {zero : Bool} (h_st : Kept kf z0 st)
    (hregs : ¬kf.regs) (hsnp : ¬kf.snp) :
    Kept kf z0 (State.snpEmit st n s plays zero) := by
  unfold State.snpEmit
  with_reducible repeat' first
    | assumption
    | (extract_lets +onlyGivenNames x; first
        | (refine Kept.cut kf z0 x ?_ (fun hx => ?_) <;> [subst x; clear_value x])
        | clear_value x)
    | apply State.setSnp_kept
    | apply State.snpApply_kept
    | apply Kept.ite

theorem State.snpOutput_kept {st : State} {n edges ns : Nat} {zero : Bool} (h_st : Kept kf z0 st) (hregs : ¬kf.regs)
    (hmesh : ¬kf.mesh) (hsnp : ¬kf.snp) :
    Kept kf z0 (State.snpOutput st n edges ns zero) := by
  unfold State.snpOutput
  with_reducible repeat' first
    | assumption
    | refine fun _ _ (_ : Kept _ _ _) => ?_
    | (extract_lets +onlyGivenNames x; first
        | (refine Kept.cut kf z0 x ?_ (fun hx => ?_) <;> [subst x; clear_value x])
        | (refine Kept.cut kf z0 x.1 ?_ (fun hx => ?_) <;> [subst x; clear_value x])
        | clear_value x)
    | apply State.emit_kept
    | apply State.snpEmit_kept
    | apply State.snpPlay_kept
    | apply Kept.foldl

theorem State.snpStopOn_kept {st : State} {n : Nat} (h_st : Kept kf z0 st) (hregs : ¬kf.regs) (hbrs : ¬kf.brs)
    (hmesh : ¬kf.mesh) (hfields : ¬kf.fields) (hleases : ¬kf.leases) (hsnp : ¬kf.snp) :
    Kept kf z0 (State.snpStopOn st n) := by
  unfold State.snpStopOn
  with_reducible repeat' first
    | assumption
    | refine fun _ (_ : Kept _ _ _) => ?_
    | (extract_lets +onlyGivenNames x; clear_value x)
    | apply State.fallOn_kept
    | apply State.snpStopped_kept
    | apply State.when_kept
    | apply Kept.ite

theorem State.snpLoseClock_kept {st : State} {n cause : Nat} {live : Bool} (h_st : Kept kf z0 st) (hregs : ¬kf.regs)
    (hbrs : ¬kf.brs) (hmesh : ¬kf.mesh) (hfields : ¬kf.fields) (hleases : ¬kf.leases) (hsnp : ¬kf.snp) :
    Kept kf z0 (State.snpLoseClock st n cause live) := by
  unfold State.snpLoseClock
  with_reducible repeat' first
    | assumption
    | refine fun _ (_ : Kept _ _ _) => ?_
    | (extract_lets +onlyGivenNames x; first
        | (refine Kept.cut kf z0 x ?_ (fun hx => ?_) <;> [subst x; clear_value x])
        | clear_value x)
    | apply State.fallOn_kept
    | apply State.setSnp_kept
    | apply State.snpLost_kept
    | apply State.when_kept
    | apply Kept.ite

theorem State.snpBegin_kept {st : State} {n : Nat} {ended zero : Bool} {data : List Nat} {edges ns : Nat}
    (h_st : Kept kf z0 st) (hregs : ¬kf.regs) (hbrs : ¬kf.brs) (hmesh : ¬kf.mesh) (hfields : ¬kf.fields)
    (hleases : ¬kf.leases) (hsnp : ¬kf.snp) :
    Kept kf z0 (State.snpBegin st n ended zero data edges ns) := by
  unfold State.snpBegin
  with_reducible repeat' first
    | assumption
    | (extract_lets +onlyGivenNames x; first
        | (refine Kept.cut kf z0 x ?_ (fun hx => ?_) <;> [subst x; clear_value x])
        | clear_value x)
    | apply State.addSat_kept
    | apply State.setSnp_kept
    | apply State.snpEnter_kept
    | apply State.snpOutput_kept
    | apply State.snpStopOn_kept
    | apply State.snpTake_kept
    | apply State.wf_kept
    | apply Kept.ite

theorem State.snpBadFrame_kept {st : State} {n : Nat} {data : List Nat} {edges ns : Nat} (h_st : Kept kf z0 st)
    (hregs : ¬kf.regs) (hbrs : ¬kf.brs) (hmesh : ¬kf.mesh) (hfields : ¬kf.fields) (hleases : ¬kf.leases)
    (hsnp : ¬kf.snp) :
    Kept kf z0 (State.snpBadFrame st n data edges ns) := by
  unfold State.snpBadFrame
  with_reducible repeat' first
    | assumption
    | (extract_lets +onlyGivenNames x; first
        | (refine Kept.cut kf z0 x ?_ (fun hx => ?_) <;> [subst x; clear_value x])
        | clear_value x)
    | apply State.addSat_kept
    | apply State.setSnp_kept
    | apply State.setb_kept
    | apply State.snpBegin_kept
    | apply State.snpLoseClock_kept
    | apply State.snpLoseFrame_kept
    | apply State.snpNotice_kept
    | apply State.wf_kept
    | apply Kept.ite

theorem State.snpCheck_kept {st : State} {n edges ns : Nat} {data : List Nat} (h_st : Kept kf z0 st)
    (hregs : ¬kf.regs) (hbrs : ¬kf.brs) (hmesh : ¬kf.mesh) (hfields : ¬kf.fields) (hleases : ¬kf.leases)
    (hsnp : ¬kf.snp) :
    Kept kf z0 (State.snpCheck st n edges ns data) := by
  unfold State.snpCheck
  with_reducible repeat' first
    | assumption
    | (extract_lets +onlyGivenNames x; first
        | (refine Kept.cut kf z0 x ?_ (fun hx => ?_) <;> [subst x; clear_value x])
        | clear_value x)
    | apply State.setSnp_kept
    | apply State.setb_kept
    | apply State.snpBadFrame_kept
    | apply State.snpBegin_kept
    | apply State.snpClose_kept
    | apply State.snpEnter_kept
    | apply State.snpLoseClock_kept
    | apply State.snpNotice_kept
    | apply State.wf_kept
    | apply Kept.ite

theorem execSnpFrame_kept {port edges : Nat} {data : List Nat} {ns : Nat} {st : State} (h_st : Kept kf z0 st)
    (hregs : ¬kf.regs) (hcar : ¬kf.car) (hbrs : ¬kf.brs) (hmesh : ¬kf.mesh) (hcores : ¬kf.cores)
    (hfields : ¬kf.fields) (hisl : ¬kf.isl) (hleases : ¬kf.leases) (hmem : ¬kf.mem) (hnow : ¬kf.now)
    (hsnp : ¬kf.snp) :
    KeptOut kf z0 (execSnpFrame port edges data ns st) := by
  unfold execSnpFrame
  with_reducible repeat' first
    | assumption
    | refine fun _ (_ : Kept _ _ _) => ?_
    | refine fun _ _ (_ : Kept _ _ _) => ?_
    | refine fun _ _ _ (_ : Kept _ _ _) => ?_
    | (extract_lets +onlyGivenNames x; first
        | (refine Kept.cut kf z0 x ?_ (fun hx => ?_) <;> [subst x; clear_value x])
        | clear_value x)
    | apply State.setSnp_kept
    | apply State.snpBegin_kept
    | apply State.snpCheck_kept
    | apply State.until_kept
    | apply State.when_kept
    | apply State.wn_kept
    | apply hF
    | apply Kept.ite
    | apply KeptOut.next

theorem execSnpRecordClose_kept {port r : Nat} {st : State} (h_st : Kept kf z0 st) (hregs : ¬kf.regs)
    (hbrs : ¬kf.brs) (hmesh : ¬kf.mesh) (hfields : ¬kf.fields) (hleases : ¬kf.leases) (hsnp : ¬kf.snp) :
    KeptOut kf z0 (execSnpRecordClose port r st) := by
  unfold execSnpRecordClose
  with_reducible repeat' first
    | assumption
    | refine fun _ (_ : Kept _ _ _) => ?_
    | apply State.snpClose_kept
    | apply State.snpStopOn_kept
    | apply State.when_kept
    | apply KeptOut.next

theorem State.snpZero_kept {st : State} {n : Nat} (h_st : Kept kf z0 st) (hregs : ¬kf.regs) :
    Kept kf z0 (State.snpZero st n) := by
  unfold State.snpZero
  with_reducible repeat' first
    | assumption
    | apply State.clearRegs_kept

theorem State.snpStart_kept {st : State} {n : Nat} (h_st : Kept kf z0 st) (hregs : ¬kf.regs) (hmesh : ¬kf.mesh)
    (hleases : ¬kf.leases) (hsnp : ¬kf.snp) :
    Kept kf z0 (State.snpStart st n) := by
  unfold State.snpStart
  with_reducible repeat' first
    | assumption
    | refine fun _ (_ : Kept _ _ _) => ?_
    | refine fun _ _ (_ : Kept _ _ _) => ?_
    | refine fun _ _ _ (_ : Kept _ _ _) => ?_
    | (extract_lets +onlyGivenNames x; first
        | (refine Kept.cut kf z0 x ?_ (fun hx => ?_) <;> [subst x; clear_value x])
        | (refine Kept.cut kf z0 x.1 ?_ (fun hx => ?_) <;> [subst x; clear_value x])
        | (refine Kept.cut kf z0 x.2 ?_ (fun hx => ?_) <;> [subst x; clear_value x])
        | (refine Kept.cut kf z0 x.2.2 ?_ (fun hx => ?_) <;> [subst x; clear_value x])
        | (refine Kept.cutF kf z0 x ?_ (fun hF => ?_) <;> [subst x; clear_value x])
        | (refine Kept.cutF₁ kf z0 x ?_ (fun hF => ?_) <;> [subst x; clear_value x])
        | (refine Kept.cutF₂ kf z0 x ?_ (fun hF => ?_) <;> [subst x; clear_value x])
        | (refine Kept.cutP kf z0 x ?_ (fun hF => ?_) <;> [subst x; clear_value x])
        | (refine Kept.cutA kf z0 x ?_ (fun hF => ?_) <;> [subst x; clear_value x])
        | (have : x.fuses = x.fuses := (by rfl); clear this; subst x)
        | clear_value x)
    | apply State.openWindow_kept
    | apply State.setSnp_kept
    | apply State.snpChange_kept
    | apply State.snpEnter_kept
    | apply State.snpErr_kept
    | apply State.snpZero_kept
    | apply State.wf_kept
    | apply hF
    | apply Kept.ite
    | apply Kept.foldl
    | apply Kept.foldl₁
    | apply Kept.foldl₂
    | apply Kept.foldl₂₂
    | intro _
    | dsimp only
    | fail_if_no_progress (refine Kept.upd ?_)
    | split

theorem State.snpStop_kept {st : State} {n : Nat} (h_st : Kept kf z0 st) (hregs : ¬kf.regs) (hmesh : ¬kf.mesh)
    (hleases : ¬kf.leases) (hsnp : ¬kf.snp) :
    Kept kf z0 (State.snpStop st n) := by
  unfold State.snpStop
  with_reducible repeat' first
    | assumption
    | apply State.snpEnter_kept
    | apply State.snpMute_kept
    | apply State.snpStopped_kept
    | split

theorem State.snpFlush_kept {st : State} {n : Nat} (h_st : Kept kf z0 st) (hregs : ¬kf.regs) (hmesh : ¬kf.mesh)
    (hsnp : ¬kf.snp) :
    Kept kf z0 (State.snpFlush st n) := by
  unfold State.snpFlush
  with_reducible repeat' first
    | assumption
    | apply State.snpDropOut_kept
    | apply State.snpFlushIn_kept

theorem State.snpCtl_kept {st : State} {who : Who} {n : Nat} {f : State → State} (h_st : Kept kf z0 st)
    (h_f : ∀ v0, Kept kf z0 v0 → Kept kf z0 (f v0)) (hregs : ¬kf.regs) :
    Kept kf z0 (State.snpCtl st who n f) := by
  unfold State.snpCtl
  with_reducible repeat' first
    | assumption
    | (extract_lets +onlyGivenNames x; clear_value x)
    | apply State.fieldWrite_kept

theorem execSnpStart_kept {who : Who} {port : Nat} {st : State} (h_st : Kept kf z0 st) (hregs : ¬kf.regs)
    (hmesh : ¬kf.mesh) (hleases : ¬kf.leases) (hsnp : ¬kf.snp) :
    KeptOut kf z0 (execSnpStart who port st) := by
  unfold execSnpStart
  with_reducible repeat' first
    | assumption
    | refine fun _ (_ : Kept _ _ _) => ?_
    | apply State.snpCtl_kept
    | apply State.snpStart_kept
    | apply State.when_kept
    | apply KeptOut.next

theorem execSnpStop_kept {who : Who} {port : Nat} {st : State} (h_st : Kept kf z0 st) (hregs : ¬kf.regs)
    (hmesh : ¬kf.mesh) (hleases : ¬kf.leases) (hsnp : ¬kf.snp) :
    KeptOut kf z0 (execSnpStop who port st) := by
  unfold execSnpStop
  with_reducible repeat' first
    | assumption
    | refine fun _ (_ : Kept _ _ _) => ?_
    | apply State.snpCtl_kept
    | apply State.snpStop_kept
    | apply State.when_kept
    | apply KeptOut.next

theorem execSnpFlush_kept {who : Who} {port : Nat} {st : State} (h_st : Kept kf z0 st) (hregs : ¬kf.regs)
    (hmesh : ¬kf.mesh) (hsnp : ¬kf.snp) :
    KeptOut kf z0 (execSnpFlush who port st) := by
  unfold execSnpFlush
  with_reducible repeat' first
    | assumption
    | refine fun _ (_ : Kept _ _ _) => ?_
    | apply State.snpCtl_kept
    | apply State.snpFlush_kept
    | apply State.when_kept
    | apply KeptOut.next

theorem execSnpClockLoss_kept {port cause : Nat} {st : State} (h_st : Kept kf z0 st) (hregs : ¬kf.regs)
    (hcar : ¬kf.car) (hbrs : ¬kf.brs) (hmesh : ¬kf.mesh) (hcores : ¬kf.cores) (hfields : ¬kf.fields)
    (hisl : ¬kf.isl) (hleases : ¬kf.leases) (hmem : ¬kf.mem) (hnow : ¬kf.now) (hsnp : ¬kf.snp) :
    KeptOut kf z0 (execSnpClockLoss port cause st) := by
  unfold execSnpClockLoss
  with_reducible repeat' first
    | assumption
    | refine fun _ (_ : Kept _ _ _) => ?_
    | refine fun _ _ (_ : Kept _ _ _) => ?_
    | refine fun _ _ _ (_ : Kept _ _ _) => ?_
    | (extract_lets +onlyGivenNames x; first
        | (refine Kept.cut kf z0 x ?_ (fun hx => ?_) <;> [subst x; clear_value x])
        | clear_value x)
    | apply State.snpLoseClock_kept
    | apply State.until_kept
    | apply State.when_kept
    | apply hF
    | apply Kept.ite
    | apply KeptOut.next

theorem execSnpZcTimeout_kept {port slot : Nat} {st : State} (h_st : Kept kf z0 st) (hregs : ¬kf.regs)
    (hcar : ¬kf.car) (hbrs : ¬kf.brs) (hmesh : ¬kf.mesh) (hcores : ¬kf.cores) (hfields : ¬kf.fields)
    (hisl : ¬kf.isl) (hleases : ¬kf.leases) (hmem : ¬kf.mem) (hnow : ¬kf.now) (hsnp : ¬kf.snp) :
    KeptOut kf z0 (execSnpZcTimeout port slot st) := by
  unfold execSnpZcTimeout
  with_reducible repeat' first
    | assumption
    | refine fun _ (_ : Kept _ _ _) => ?_
    | refine fun _ _ (_ : Kept _ _ _) => ?_
    | refine fun _ _ _ (_ : Kept _ _ _) => ?_
    | (extract_lets +onlyGivenNames x; clear_value x)
    | apply State.addSat_kept
    | apply State.setb_kept
    | apply State.snpApply_kept
    | apply State.snpNotice_kept
    | apply State.snpStopOn_kept
    | apply State.until_kept
    | apply State.when_kept
    | apply hF
    | apply Kept.ite
    | apply KeptOut.next
    | apply KeptOut.ite
    | intro _
    | dsimp only
    | fail_if_no_progress (refine Kept.upd ?_)
    | split

theorem State.snpAtOnce_kept {st : State} {n s : Nat} (h_st : Kept kf z0 st) (hregs : ¬kf.regs) (hsnp : ¬kf.snp) :
    Kept kf z0 (State.snpAtOnce st n s) := by
  unfold State.snpAtOnce
  with_reducible repeat' first
    | assumption
    | apply State.snpApply_kept
    | apply Kept.ite

theorem State.snpOgain_kept {st : State} {n s value : Nat} (h_st : Kept kf z0 st) (hregs : ¬kf.regs) (hsnp : ¬kf.snp) :
    Kept kf z0 (State.snpOgain st n s value) := by
  unfold State.snpOgain
  with_reducible repeat' first
    | assumption
    | apply State.snpAtOnce_kept
    | apply State.snpChange_kept

theorem State.snpCfgSet_kept {st : State} {n value : Nat} (h_st : Kept kf z0 st) (hregs : ¬kf.regs) :
    Kept kf z0 (State.snpCfgSet st n value) := by
  unfold State.snpCfgSet
  with_reducible repeat' first
    | assumption
    | apply State.snpErr_kept
    | apply State.wn_kept
    | apply Kept.ite

theorem State.snpOroute_kept {st : State} {n r value : Nat} (h_st : Kept kf z0 st) (hregs : ¬kf.regs)
    (hsnp : ¬kf.snp) :
    Kept kf z0 (State.snpOroute st n r value) := by
  unfold State.snpOroute
  with_reducible repeat' first
    | assumption
    | refine fun _ _ (_ : Kept _ _ _) => ?_
    | (extract_lets +onlyGivenNames x; first
        | (refine Kept.cut kf z0 x ?_ (fun hx => ?_) <;> [subst x; clear_value x])
        | clear_value x)
    | apply State.snpAtOnce_kept
    | apply State.snpChange_kept
    | apply State.snpErr_kept
    | apply State.wf_kept
    | apply State.wn_kept
    | apply Kept.ite
    | apply Kept.foldl

theorem State.snpIroute_kept {st : State} {n r value : Nat} (h_st : Kept kf z0 st) (hregs : ¬kf.regs)
    (hsnp : ¬kf.snp) :
    Kept kf z0 (State.snpIroute st n r value) := by
  unfold State.snpIroute
  with_reducible repeat' first
    | assumption
    | (extract_lets +onlyGivenNames x; first
        | (refine Kept.cut kf z0 x ?_ (fun hx => ?_) <;> [subst x; clear_value x])
        | clear_value x)
    | apply State.setSnp_kept
    | apply State.wn_kept
    | apply Kept.ite

theorem execSnpOgainWrite_kept {who : Who} {port slot value : Nat} {st : State} (h_st : Kept kf z0 st)
    (hregs : ¬kf.regs) (hsnp : ¬kf.snp) :
    KeptOut kf z0 (execSnpOgainWrite who port slot value st) := by
  unfold execSnpOgainWrite
  with_reducible repeat' first
    | assumption
    | refine fun _ (_ : Kept _ _ _) => ?_
    | (extract_lets +onlyGivenNames x; clear_value x)
    | apply State.fieldWrite_kept
    | apply State.snpOgain_kept
    | apply State.when_kept
    | apply KeptOut.next

theorem execSnpCfgWrite_kept {who : Who} {port value : Nat} {st : State} (h_st : Kept kf z0 st) (hregs : ¬kf.regs) :
    KeptOut kf z0 (execSnpCfgWrite who port value st) := by
  unfold execSnpCfgWrite
  with_reducible repeat' first
    | assumption
    | refine fun _ (_ : Kept _ _ _) => ?_
    | (extract_lets +onlyGivenNames x; clear_value x)
    | apply State.fieldWrite_kept
    | apply State.snpCfgSet_kept
    | apply State.when_kept
    | apply KeptOut.next

theorem execSnpOrouteWrite_kept {who : Who} {port r value : Nat} {st : State} (h_st : Kept kf z0 st)
    (hregs : ¬kf.regs) (hsnp : ¬kf.snp) :
    KeptOut kf z0 (execSnpOrouteWrite who port r value st) := by
  unfold execSnpOrouteWrite
  with_reducible repeat' first
    | assumption
    | refine fun _ (_ : Kept _ _ _) => ?_
    | (extract_lets +onlyGivenNames x; clear_value x)
    | apply State.fieldWrite_kept
    | apply State.snpOroute_kept
    | apply State.when_kept
    | apply KeptOut.next

theorem execSnpIrouteWrite_kept {who : Who} {port r value : Nat} {st : State} (h_st : Kept kf z0 st)
    (hregs : ¬kf.regs) (hsnp : ¬kf.snp) :
    KeptOut kf z0 (execSnpIrouteWrite who port r value st) := by
  unfold execSnpIrouteWrite
  with_reducible repeat' first
    | assumption
    | refine fun _ (_ : Kept _ _ _) => ?_
    | (extract_lets +onlyGivenNames x; clear_value x)
    | apply State.fieldWrite_kept
    | apply State.snpIroute_kept
    | apply State.when_kept
    | apply KeptOut.next

end Sys2Proof.Machine
end

