-- ==== Sys2Proof/Laws/KeptCommands.lean ====
section
/-! SUPPORT. What queues, pins, register accesses and management commands keep (see Kept.lean). -/

namespace Sys2Proof.Machine

set_option Elab.async false

set_option linter.unusedVariables false

variable {kf : Facets} {z0 : State}

theorem Fuses.le_revoke (f : Fuses) (k : Nat) : Fuses.le f (f.revoke k) := by
  refine ⟨fun n h => ?_, fun _ => Nat.le_refl _⟩
  simp [Fuses.revoke, Nat.testBit_or, h]

theorem Fuses.live_of_liveKeys {f : Fuses} (h : f.liveKeys ≠ []) : f.live ≠ [] := by
  obtain ⟨k, hk⟩ := List.exists_mem_of_ne_nil _ h
  simp only [Fuses.liveKeys, List.mem_filter, List.any_eq_true, Bool.and_eq_true, decide_eq_true_eq] at hk
  obtain ⟨_, ⟨e, he, rfl⟩, hr⟩ := hk
  exact List.ne_nil_of_mem (a := e) (List.mem_filter.mpr ⟨he, hr⟩)

theorem Fuses.le_raise (f : Fuses) (k v : Nat) : Fuses.le f (f.raise k v) := by
  refine ⟨fun _ h => h, fun j => ?_⟩
  simp only [Fuses.raise]
  by_cases hj : j = k
  · subst hj
    by_cases hv : max v (tget 0 f.svn j) = 0
    · omega
    · rw [tget_tput_self hv]
      omega
  · rw [tget_tput_ne _ hj]

theorem State.qWrite_kept {st : State} {who : Who} {key off : Nat} {f : State → State} (h_st : Kept kf z0 st)
    (h_f : ∀ v0, Kept kf z0 v0 → Kept kf z0 (f v0)) (hregs : ¬kf.regs) :
    Kept kf z0 (State.qWrite st who key off f) := by
  unfold State.qWrite
  with_reducible repeat' first
    | assumption
    | apply State.accErr_kept
    | apply h_f
    | apply Kept.ite
    | split

theorem State.ctxWrite_kept {st : State} {who : Who} {c off : Nat} {f : State → State} (h_st : Kept kf z0 st)
    (h_f : ∀ v0, Kept kf z0 v0 → Kept kf z0 (f v0)) (hregs : ¬kf.regs) :
    Kept kf z0 (State.ctxWrite st who c off f) := by
  unfold State.ctxWrite
  with_reducible repeat' first
    | assumption
    | apply State.accErr_kept
    | apply h_f
    | apply Kept.ite
    | split

theorem State.ctxRefused_kept {st : State} {p c : Nat} (h_st : Kept kf z0 st) (hregs : ¬kf.regs) :
    Kept kf z0 (State.ctxRefused st p c) := by
  unfold State.ctxRefused
  with_reducible repeat' first
    | assumption
    | apply State.setb_kept
    | apply Kept.ite

theorem State.qCfgWrite_kept {st : State} {who : Who} {key value : Nat} (h_st : Kept kf z0 st)
    (hregs : ¬kf.regs) (hmesh : ¬kf.mesh) :
    Kept kf z0 (State.qCfgWrite st who key value) := by
  unfold State.qCfgWrite
  with_reducible repeat' first
    | assumption
    | refine fun _ (_ : Kept _ _ _) => ?_
    | refine fun _ _ (_ : Kept _ _ _) => ?_
    | refine fun _ _ _ (_ : Kept _ _ _) => ?_
    | (extract_lets +onlyGivenNames x; first
        | (refine Kept.cut kf z0 x ?_ (fun hx => ?_) <;> [subst x; clear_value x])
        | clear_value x)
    | apply State.ctxRefused_kept
    | apply State.flushQueue_kept
    | apply State.headWait_kept
    | apply State.pump_kept
    | apply State.qWrite_kept
    | apply State.wf_kept
    | apply hF
    | apply Kept.ite

theorem State.qFlushWrite_kept {st : State} {who : Who} {key : Nat} (h_st : Kept kf z0 st) (hregs : ¬kf.regs) :
    Kept kf z0 (State.qFlushWrite st who key) := by
  unfold State.qFlushWrite
  with_reducible repeat' first
    | assumption
    | refine fun _ (_ : Kept _ _ _) => ?_
    | apply State.flushQueue_kept
    | apply State.qWrite_kept

theorem execQueueFlush_kept {who : Who} {queue : Nat} {st : State} (h_st : Kept kf z0 st) (hregs : ¬kf.regs) :
    KeptOut kf z0 (execQueueFlush who queue st) := by
  unfold execQueueFlush
  with_reducible repeat' first
    | assumption
    | apply State.qFlushWrite_kept
    | apply Kept.ite
    | apply KeptOut.next

theorem State.ctxCfgWrite_kept {st : State} {who : Who} {p c value : Nat} (h_st : Kept kf z0 st) (hregs : ¬kf.regs) :
    Kept kf z0 (State.ctxCfgWrite st who p c value) := by
  unfold State.ctxCfgWrite
  with_reducible repeat' first
    | assumption
    | refine fun _ (_ : Kept _ _ _) => ?_
    | (extract_lets +onlyGivenNames x; first
        | (refine Kept.cut kf z0 x ?_ (fun hx => ?_) <;> [subst x; clear_value x])
        | clear_value x)
    | apply State.ctxRefused_kept
    | apply State.ctxWrite_kept
    | apply State.dropWaiting_kept
    | apply State.wf_kept
    | apply Kept.ite

theorem State.mcqCfgWrite_kept {st : State} {who : Who} {m value : Nat} (h_st : Kept kf z0 st) (hregs : ¬kf.regs) :
    Kept kf z0 (State.mcqCfgWrite st who m value) := by
  unfold State.mcqCfgWrite
  with_reducible repeat' first
    | assumption
    | refine fun _ (_ : Kept _ _ _) => ?_
    | (extract_lets +onlyGivenNames x; first
        | (refine Kept.cut kf z0 x ?_ (fun hx => ?_) <;> [subst x; clear_value x])
        | clear_value x)
    | apply State.ctxWrite_kept
    | apply State.dropWaiting_kept
    | apply State.wf_kept
    | apply Kept.ite

theorem State.enableWrite_kept {st : State} {who : Who} {off value : Nat} (h_st : Kept kf z0 st) (hregs : ¬kf.regs)
    (hmesh : ¬kf.mesh) :
    Kept kf z0 (State.enableWrite st who off value) := by
  unfold State.enableWrite
  with_reducible repeat' first
    | assumption
    | (extract_lets +onlyGivenNames x; clear_value x)
    | apply State.ctxCfgWrite_kept
    | apply State.mcqCfgWrite_kept
    | apply State.qCfgWrite_kept
    | apply Kept.ite

theorem execQueueEnable_kept {who : Who} {off value : Nat} {st : State} (h_st : Kept kf z0 st) (hregs : ¬kf.regs)
    (hmesh : ¬kf.mesh) :
    KeptOut kf z0 (execQueueEnable who off value st) := by
  unfold execQueueEnable
  with_reducible repeat' first
    | assumption
    | (extract_lets +onlyGivenNames x; clear_value x)
    | apply State.accErrAt_kept
    | apply State.enableWrite_kept
    | apply KeptOut.next
    | split

theorem State.ctxResume_kept {st : State} {who : Who} {p c : Nat} (h_st : Kept kf z0 st) (hregs : ¬kf.regs) :
    Kept kf z0 (State.ctxResume st who p c) := by
  unfold State.ctxResume
  with_reducible repeat' first
    | assumption
    | refine fun _ (_ : Kept _ _ _) => ?_
    | (extract_lets +onlyGivenNames x; clear_value x)
    | apply State.ctxWrite_kept
    | apply State.wf_kept
    | apply Kept.ite

theorem execContextResume_kept {who : Who} {p c : Nat} {st : State} (h_st : Kept kf z0 st) (hregs : ¬kf.regs) :
    KeptOut kf z0 (execContextResume who p c st) := by
  unfold execContextResume
  with_reducible repeat' first
    | assumption
    | apply State.ctxResume_kept
    | apply Kept.ite
    | apply KeptOut.next

theorem State.cqHeadWrite_kept {st : State} {who : Who} {c value : Nat} (h_st : Kept kf z0 st) (hregs : ¬kf.regs)
    (hmesh : ¬kf.mesh) :
    Kept kf z0 (State.cqHeadWrite st who c value) := by
  unfold State.cqHeadWrite
  with_reducible repeat' first
    | assumption
    | refine fun _ (_ : Kept _ _ _) => ?_
    | apply State.ctxWrite_kept
    | apply State.drainWaiting_kept
    | apply State.wf_kept

theorem execCqHeadWrite_kept {who : Who} {ctx value : Nat} {st : State} (h_st : Kept kf z0 st) (hregs : ¬kf.regs)
    (hmesh : ¬kf.mesh) :
    KeptOut kf z0 (execCqHeadWrite who ctx value st) := by
  unfold execCqHeadWrite
  with_reducible repeat' first
    | assumption
    | apply State.cqHeadWrite_kept
    | apply Kept.ite
    | apply KeptOut.next

theorem State.evtWrite_kept {st : State} {who : Who} {f off : Nat} {g : State → State} (h_st : Kept kf z0 st)
    (h_g : ∀ v0, Kept kf z0 v0 → Kept kf z0 (g v0)) (hregs : ¬kf.regs) :
    Kept kf z0 (State.evtWrite st who f off g) := by
  unfold State.evtWrite
  with_reducible repeat' first
    | assumption
    | apply State.accErr_kept
    | apply h_g
    | split

theorem State.evtHeadWrite_kept {st : State} {who : Who} {f value : Nat} (h_st : Kept kf z0 st) (hregs : ¬kf.regs) :
    Kept kf z0 (State.evtHeadWrite st who f value) := by
  unfold State.evtHeadWrite
  with_reducible repeat' first
    | assumption
    | refine fun _ (_ : Kept _ _ _) => ?_
    | (extract_lets +onlyGivenNames x; refine Kept.cut kf z0 x ?_ (fun hx => ?_) <;> [subst x; clear_value x])
    | apply State.evtWrite_kept
    | apply State.payOwed_kept
    | apply State.wf_kept
    | apply Kept.ite

theorem execEventHeadWrite_kept {who : Who} {func value : Nat} {st : State} (h_st : Kept kf z0 st) (hregs : ¬kf.regs) :
    KeptOut kf z0 (execEventHeadWrite who func value st) := by
  unfold execEventHeadWrite
  with_reducible repeat' first
    | assumption
    | apply State.evtHeadWrite_kept
    | apply Kept.ite
    | apply KeptOut.next

theorem State.evtCommit_kept {st : State} {who : Who} {f : Nat} (h_st : Kept kf z0 st) (hregs : ¬kf.regs) :
    Kept kf z0 (State.evtCommit st who f) := by
  unfold State.evtCommit
  with_reducible repeat' first
    | assumption
    | refine fun _ (_ : Kept _ _ _) => ?_
    | (extract_lets +onlyGivenNames x; first
        | (refine Kept.cut kf z0 x ?_ (fun hx => ?_) <;> [subst x; clear_value x])
        | clear_value x)
    | apply State.evtWrite_kept
    | apply State.setb_kept
    | apply Kept.ite
    | fail_if_no_progress (refine Kept.upd ?_)

theorem execEventRouteCommit_kept {who : Who} {func : Nat} {st : State} (h_st : Kept kf z0 st) (hregs : ¬kf.regs) :
    KeptOut kf z0 (execEventRouteCommit who func st) := by
  unfold execEventRouteCommit
  with_reducible repeat' first
    | assumption
    | apply State.evtCommit_kept
    | apply Kept.ite
    | apply KeptOut.next

theorem execRstN_kept {st : State} (h_st : Kept kf z0 st) (hregs : ¬kf.regs) (hcar : ¬kf.car) (hbrs : ¬kf.brs)
    (hmesh : ¬kf.mesh) (hcores : ¬kf.cores) (hfields : ¬kf.fields) (hflash : ¬kf.flash) (hisl : ¬kf.isl)
    (hkvl : ¬kf.kvl) (hleases : ¬kf.leases) (hmem : ¬kf.mem) (hnow : ¬kf.now) (hsnp : ¬kf.snp) :
    KeptOut kf z0 (execRstN st) := by
  unfold execRstN
  with_reducible repeat' first
    | assumption
    | (extract_lets +onlyGivenNames x; have : x.fuses = x.fuses := (by rfl); clear this; subst x)
    | apply State.moduleReset_kept
    | apply Kept.ite
    | apply KeptOut.next
    | fail_if_no_progress (refine Kept.upd ?_)

theorem execRstNRelease_kept {st : State} (h_st : Kept kf z0 st) (hregs : ¬kf.regs) (hcar : ¬kf.car)
    (hbrs : ¬kf.brs) (hmesh : ¬kf.mesh) (hfields : ¬kf.fields) (hflash : ¬kf.flash) (hleases : ¬kf.leases)
    (hnow : ¬kf.now) :
    KeptOut kf z0 (execRstNRelease st) := by
  unfold execRstNRelease
  with_reducible repeat' first
    | assumption
    | (extract_lets +onlyGivenNames x; have : x.fuses = x.fuses := (by rfl); clear this; subst x)
    | apply State.finishReset_kept
    | apply Kept.ite
    | apply KeptOut.next
    | fail_if_no_progress (refine Kept.upd ?_)

theorem State.jtag_kept {st : State} {ir mode : Nat} (h_st : Kept kf z0 st) (hcar : ¬kf.car) :
    Kept kf z0 (State.jtag st ir mode) := by
  unfold State.jtag
  with_reducible repeat' first
    | assumption
    | (extract_lets +onlyGivenNames x; have : x.fuses = x.fuses := (by rfl); clear this; subst x)
    | fail_if_no_progress (refine Kept.upd ?_)

theorem State.jtagDrive_kept {st : State} {ir mode : Nat} {dr : Option Nat} (h_st : Kept kf z0 st) (hcar : ¬kf.car) :
    Kept kf z0 (State.jtagDrive st ir mode dr) := by
  unfold State.jtagDrive
  with_reducible repeat' first
    | assumption
    | (extract_lets +onlyGivenNames x; have : x.fuses = x.fuses := (by rfl); clear this; subst x)
    | apply State.jtag_kept
    | apply Kept.ite
    | fail_if_no_progress (refine Kept.upd ?_)

theorem execTapReset_kept {st : State} (h_st : Kept kf z0 st) (hcar : ¬kf.car) :
    KeptOut kf z0 (execTapReset st) := by
  unfold execTapReset
  with_reducible repeat' first
    | assumption
    | apply State.jtag_kept
    | apply Kept.ite
    | apply KeptOut.next

theorem execExtest_kept {dr : Nat} {st : State} (h_st : Kept kf z0 st) (hcar : ¬kf.car) :
    KeptOut kf z0 (execExtest dr st) := by
  unfold execExtest
  with_reducible repeat' first
    | assumption
    | apply State.jtagDrive_kept
    | apply KeptOut.next

theorem execIdcode_kept {st : State} (h_st : Kept kf z0 st) (hcar : ¬kf.car) :
    KeptOut kf z0 (execIdcode st) := by
  unfold execIdcode
  with_reducible repeat' first
    | assumption
    | apply State.emit_kept
    | apply State.jtag_kept
    | apply Kept.ite
    | apply KeptOut.next

theorem execSamplePreload_kept {dr pins : Nat} {st : State} (h_st : Kept kf z0 st) (hcar : ¬kf.car) :
    KeptOut kf z0 (execSamplePreload dr pins st) := by
  unfold execSamplePreload
  with_reducible repeat' first
    | assumption
    | apply State.emit_kept
    | apply State.jtag_kept
    | apply Kept.ite
    | apply KeptOut.next
    | apply KeptOut.ite
    | dsimp only
    | fail_if_no_progress (refine Kept.upd ?_)

theorem execHighz_kept {st : State} (h_st : Kept kf z0 st) (hcar : ¬kf.car) :
    KeptOut kf z0 (execHighz st) := by
  unfold execHighz
  with_reducible repeat' first
    | assumption
    | apply State.jtagDrive_kept
    | apply KeptOut.next

theorem execClamp_kept {st : State} (h_st : Kept kf z0 st) (hcar : ¬kf.car) :
    KeptOut kf z0 (execClamp st) := by
  unfold execClamp
  with_reducible repeat' first
    | assumption
    | apply State.jtagDrive_kept
    | apply KeptOut.next

theorem execExtestPulse_kept {dr : Nat} {st : State} (h_st : Kept kf z0 st) (hcar : ¬kf.car) :
    KeptOut kf z0 (execExtestPulse dr st) := by
  unfold execExtestPulse
  with_reducible repeat' first
    | assumption
    | apply State.jtagDrive_kept
    | apply KeptOut.next

theorem execExtestTrain_kept {dr : Nat} {st : State} (h_st : Kept kf z0 st) (hcar : ¬kf.car) :
    KeptOut kf z0 (execExtestTrain dr st) := by
  unfold execExtestTrain
  with_reducible repeat' first
    | assumption
    | apply State.jtagDrive_kept
    | apply KeptOut.next

theorem execBypass_kept {st : State} (h_st : Kept kf z0 st) (hcar : ¬kf.car) :
    KeptOut kf z0 (execBypass st) := by
  unfold execBypass
  with_reducible repeat' first
    | assumption
    | apply State.jtag_kept
    | apply Kept.ite
    | apply KeptOut.next

theorem State.smbAnswer_kept {st : State} {bytes : List Byte} (h_st : Kept kf z0 st) :
    Kept kf z0 (State.smbAnswer st bytes) := by
  unfold State.smbAnswer
  with_reducible repeat' first
    | assumption
    | apply State.emit_kept
    | apply Kept.ite

theorem execSmbIdent_kept {st : State} (h_st : Kept kf z0 st) :
    KeptOut kf z0 (execSmbIdent st) := by
  unfold execSmbIdent
  with_reducible repeat' first
    | assumption
    | apply State.smbAnswer_kept
    | apply KeptOut.next

theorem execSmbEntry_kept {st : State} (h_st : Kept kf z0 st) :
    KeptOut kf z0 (execSmbEntry st) := by
  unfold execSmbEntry
  with_reducible repeat' first
    | assumption
    | apply State.smbAnswer_kept
    | apply KeptOut.next

theorem execSmbStatus_kept {st : State} (h_st : Kept kf z0 st) :
    KeptOut kf z0 (execSmbStatus st) := by
  unfold execSmbStatus
  with_reducible repeat' first
    | assumption
    | (extract_lets +onlyGivenNames x; clear_value x)
    | apply State.smbAnswer_kept
    | apply KeptOut.next

theorem execSmbTemp_kept {st : State} (h_st : Kept kf z0 st) :
    KeptOut kf z0 (execSmbTemp st) := by
  unfold execSmbTemp
  with_reducible repeat' first
    | assumption
    | apply State.smbAnswer_kept
    | apply KeptOut.next

theorem execRegOffset_kept {off : Nat} {st : State} (h_st : Kept kf z0 st) (hcar : ¬kf.car) :
    KeptOut kf z0 (execRegOffset off st) := by
  unfold execRegOffset
  with_reducible repeat' first
    | assumption
    | (extract_lets +onlyGivenNames x; have : x.fuses = x.fuses := (by rfl); clear this; subst x)
    | apply Kept.ite
    | apply KeptOut.next
    | fail_if_no_progress (refine Kept.upd ?_)

theorem execRegRead_kept {st : State} (h_st : Kept kf z0 st) (hcar : ¬kf.car) :
    KeptOut kf z0 (execRegRead st) := by
  unfold execRegRead
  with_reducible repeat' first
    | assumption
    | (extract_lets +onlyGivenNames x; first
        | (refine Kept.cut kf z0 x ?_ (fun hx => ?_) <;> [subst x; clear_value x])
        | (have : x.fuses = x.fuses := (by rfl); clear this; subst x)
        | clear_value x)
    | apply State.smbAnswer_kept
    | apply hF
    | apply Kept.ite
    | apply KeptOut.next
    | apply KeptOut.ite
    | intro _
    | dsimp only
    | fail_if_no_progress (refine Kept.upd ?_)

theorem State.alertRelease_kept {st : State} (h_st : Kept kf z0 st) (hregs : ¬kf.regs) (hcar : ¬kf.car) :
    Kept kf z0 (State.alertRelease st) := by
  unfold State.alertRelease
  with_reducible repeat' first
    | assumption
    | (extract_lets +onlyGivenNames x; have : x.fuses = x.fuses := (by rfl); clear this; subst x)
    | apply State.pins_kept
    | fail_if_no_progress (refine Kept.upd ?_)

theorem execAlertAck_kept {st : State} (h_st : Kept kf z0 st) (hregs : ¬kf.regs) (hcar : ¬kf.car) :
    KeptOut kf z0 (execAlertAck st) := by
  unfold execAlertAck
  with_reducible repeat' first
    | assumption
    | apply State.alertRelease_kept
    | apply Kept.ite
    | apply KeptOut.next

theorem execAlertResponse_kept {st : State} (h_st : Kept kf z0 st) (hregs : ¬kf.regs) (hcar : ¬kf.car) :
    KeptOut kf z0 (execAlertResponse st) := by
  unfold execAlertResponse
  with_reducible repeat' first
    | assumption
    | apply State.alertRelease_kept
    | apply State.smbAnswer_kept
    | apply Kept.ite
    | apply KeptOut.next

theorem execPmbusPoll_kept {fn : Nat} {answered fault : Bool} {st : State} (h_st : Kept kf z0 st)
    (hregs : ¬kf.regs) (hcar : ¬kf.car) (hbrs : ¬kf.brs) (hmesh : ¬kf.mesh) (hcores : ¬kf.cores)
    (hfields : ¬kf.fields) (hflash : ¬kf.flash) (hisl : ¬kf.isl) (hkvl : ¬kf.kvl) (hleases : ¬kf.leases)
    (hmem : ¬kf.mem) (hnow : ¬kf.now) (hsnp : ¬kf.snp) :
    KeptOut kf z0 (execPmbusPoll fn answered fault st) := by
  unfold execPmbusPoll
  with_reducible repeat' first
    | assumption
    | (extract_lets +onlyGivenNames x; first
        | (refine Kept.cut kf z0 x ?_ (fun hx => ?_) <;> [subst x; clear_value x])
        | (have : x.fuses = x.fuses := (by rfl); clear this; subst x)
        | clear_value x)
    | apply State.emit_kept
    | apply State.until_kept
    | apply State.upFailure_kept
    | apply hF
    | apply Kept.ite
    | apply KeptOut.next
    | apply KeptOut.ite
    | intro _
    | dsimp only
    | fail_if_no_progress (refine Kept.upd ?_)

theorem State.gpioSet_kept {st : State} {value : Nat} (h_st : Kept kf z0 st) (hregs : ¬kf.regs) (hcar : ¬kf.car) :
    Kept kf z0 (State.gpioSet st value) := by
  unfold State.gpioSet
  with_reducible repeat' first
    | assumption
    | (extract_lets +onlyGivenNames x; first
        | (refine Kept.cut kf z0 x ?_ (fun hx => ?_) <;> [subst x; clear_value x])
        | (have : x.fuses = x.fuses := (by rfl); clear this; subst x))
    | apply State.wf_kept
    | fail_if_no_progress (refine Kept.upd ?_)

theorem execGpioWrite_kept {who : Who} {value : Nat} {st : State} (h_st : Kept kf z0 st) (hregs : ¬kf.regs)
    (hcar : ¬kf.car) :
    KeptOut kf z0 (execGpioWrite who value st) := by
  unfold execGpioWrite
  with_reducible repeat' first
    | assumption
    | apply State.accErr_kept
    | apply State.gpioSet_kept
    | apply KeptOut.next
    | split

theorem State.plainWrite_kept {st : State} {off : Nat} {v : Word} (h_st : Kept kf z0 st) (hregs : ¬kf.regs) :
    Kept kf z0 (State.plainWrite st off v) := by
  unfold State.plainWrite
  with_reducible repeat' first
    | assumption
    | (extract_lets +onlyGivenNames x; clear_value x)
    | apply State.addSat_kept
    | apply State.wr_kept
    | apply Kept.ite
    | split

theorem State.ranged_kept {st : State} {off hi lo min max n : Nat} (h_st : Kept kf z0 st) (hregs : ¬kf.regs) :
    Kept kf z0 (State.ranged st off hi lo min max n) := by
  unfold State.ranged
  with_reducible repeat' first
    | assumption
    | apply State.wf_kept
    | apply Kept.ite

theorem State.permit_kept {st : State} {who : Who} {off : Nat} {ok : Bool} {f : State → State}
    (h_st : Kept kf z0 st) (h_f : ∀ v0, Kept kf z0 v0 → Kept kf z0 (f v0)) (hregs : ¬kf.regs) :
    Kept kf z0 (State.permit st who off ok f) := by
  unfold State.permit
  with_reducible repeat' first
    | assumption
    | apply State.accErr_kept
    | apply h_f
    | apply Kept.ite

theorem State.msixRetry_kept {st : State} {f v : Nat} (h_st : Kept kf z0 st) (hregs : ¬kf.regs) :
    Kept kf z0 (State.msixRetry st f v) := by
  unfold State.msixRetry
  with_reducible repeat' first
    | assumption
    | apply State.msix_kept
    | apply Kept.ite

theorem State.writeModule_kept {st : State} {who : Who} {off : Nat} {v : Word} (h_st : Kept kf z0 st)
    (hregs : ¬kf.regs) (hcar : ¬kf.car) (hfields : ¬kf.fields) :
    Kept kf z0 (State.writeModule st who off v) := by
  unfold State.writeModule
  with_reducible repeat' first
    | assumption
    | (extract_lets +onlyGivenNames x; first
        | (refine Kept.cut kf z0 x ?_ (fun hx => ?_) <;> [subst x; clear_value x])
        | clear_value x)
    | apply State.clrb_kept
    | apply State.gpioSet_kept
    | apply State.msixRetry_kept
    | apply State.partPolicyWrite_kept
    | apply State.pins_kept
    | apply State.plainWrite_kept
    | apply State.ranged_kept
    | apply Kept.ite

theorem State.evtCtl_kept {st : State} {who : Who} {f : Nat} {v : Word} (h_st : Kept kf z0 st) (hregs : ¬kf.regs) :
    Kept kf z0 (State.evtCtl st who f v) := by
  unfold State.evtCtl
  with_reducible repeat' first
    | assumption
    | (extract_lets +onlyGivenNames x; refine Kept.cut kf z0 x ?_ (fun hx => ?_) <;> [subst x; clear_value x])
    | apply State.evtCommit_kept
    | apply State.plainWrite_kept
    | apply Kept.ite

theorem State.baseWrite_kept {st : State} {off cfg : Nat} {v : Word} (h_st : Kept kf z0 st) (hregs : ¬kf.regs) :
    Kept kf z0 (State.baseWrite st off cfg v) := by
  unfold State.baseWrite
  with_reducible repeat' first
    | assumption
    | apply State.wr_kept
    | apply Kept.ite

theorem State.writeQue_kept {st : State} {who : Who} {off : Nat} {v : Word} (h_st : Kept kf z0 st)
    (hregs : ¬kf.regs) (hmesh : ¬kf.mesh) :
    Kept kf z0 (State.writeQue st who off v) := by
  unfold State.writeQue
  with_reducible repeat' first
    | assumption
    | (extract_lets +onlyGivenNames x; clear_value x)
    | apply State.baseWrite_kept
    | apply State.cqHeadWrite_kept
    | apply State.ctxCfgWrite_kept
    | apply State.evtCtl_kept
    | apply State.evtHeadWrite_kept
    | apply State.mcqCfgWrite_kept
    | apply State.plainWrite_kept
    | apply State.qCfgWrite_kept
    | apply Kept.ite

theorem State.writeFld_kept {st : State} {who : Who} {fn o off : Nat} {v : Word} (h_st : Kept kf z0 st)
    (hregs : ¬kf.regs) (hfields : ¬kf.fields) :
    Kept kf z0 (State.writeFld st who fn o off v) := by
  unfold State.writeFld
  with_reducible repeat' first
    | assumption
    | refine fun _ (_ : Kept _ _ _) => ?_
    | (extract_lets +onlyGivenNames x; clear_value x)
    | apply State.beatmonWrite_kept
    | apply State.chaffWrite_kept
    | apply State.permit_kept
    | apply State.plainWrite_kept
    | apply State.plimitWrite_kept
    | apply State.policyWrite_kept
    | apply State.ranged_kept
    | apply State.wf_kept
    | apply Kept.ite

theorem State.writeGzc_kept {st : State} {who : Who} {fn s o off : Nat} {v : Word} (h_st : Kept kf z0 st)
    (hregs : ¬kf.regs) (hmesh : ¬kf.mesh) (hcores : ¬kf.cores) (hisl : ¬kf.isl) :
    Kept kf z0 (State.writeGzc st who fn s o off v) := by
  unfold State.writeGzc
  with_reducible repeat' first
    | assumption
    | refine fun _ (_ : Kept _ _ _) => ?_
    | refine fun _ _ (_ : Kept _ _ _) => ?_
    | refine fun _ _ _ (_ : Kept _ _ _) => ?_
    | (extract_lets +onlyGivenNames x; first
        | (refine Kept.cut kf z0 x ?_ (fun hx => ?_) <;> [subst x; clear_value x])
        | clear_value x)
    | apply State.csClear_kept
    | apply State.csDiag_kept
    | apply State.flushCore_kept
    | apply State.gleanClear_kept
    | apply State.permit_kept
    | apply State.plainWrite_kept
    | apply State.ranged_kept
    | apply State.resumeCore_kept
    | apply State.submit_kept
    | apply State.wf_kept
    | apply State.wr_kept
    | apply hF
    | apply Kept.ite

theorem State.writeKvl_kept {st : State} {who : Who} {p o off : Nat} {v : Word} (h_st : Kept kf z0 st)
    (hregs : ¬kf.regs) (hcar : ¬kf.car) (hmesh : ¬kf.mesh) (hkvl : ¬kf.kvl) (hleases : ¬kf.leases) :
    Kept kf z0 (State.writeKvl st who p o off v) := by
  unfold State.writeKvl
  with_reducible repeat' first
    | assumption
    | refine fun _ (_ : Kept _ _ _) => ?_
    | (extract_lets +onlyGivenNames x; first
        | (refine Kept.cut kf z0 x ?_ (fun hx => ?_) <;> [subst x; clear_value x])
        | clear_value x)
    | apply State.clrb_kept
    | apply State.kvlEnable_kept
    | apply State.kvlReset_kept
    | apply State.permit_kept
    | apply State.plainWrite_kept
    | apply State.ranged_kept
    | apply Kept.ite

theorem State.writeSnp_kept {st : State} {who : Who} {fn k o off : Nat} {v : Word} (h_st : Kept kf z0 st)
    (hregs : ¬kf.regs) (hmesh : ¬kf.mesh) (hleases : ¬kf.leases) (hsnp : ¬kf.snp) :
    Kept kf z0 (State.writeSnp st who fn k o off v) := by
  unfold State.writeSnp
  with_reducible repeat' first
    | assumption
    | refine fun _ (_ : Kept _ _ _) => ?_
    | (extract_lets +onlyGivenNames x; first
        | (refine Kept.cut kf z0 x ?_ (fun hx => ?_) <;> [subst x; clear_value x])
        | clear_value x)
    | apply State.permit_kept
    | apply State.plainWrite_kept
    | apply State.snpCfgSet_kept
    | apply State.snpFlush_kept
    | apply State.snpIroute_kept
    | apply State.snpOgain_kept
    | apply State.snpOroute_kept
    | apply State.snpStart_kept
    | apply State.snpStop_kept
    | apply Kept.ite

theorem State.writeMsh_kept {st : State} {who : Who} {fn o off : Nat} {v : Word} (h_st : Kept kf z0 st)
    (hregs : ¬kf.regs) :
    Kept kf z0 (State.writeMsh st who fn o off v) := by
  unfold State.writeMsh
  with_reducible repeat' first
    | assumption
    | refine fun _ (_ : Kept _ _ _) => ?_
    | apply State.accErr_kept
    | apply State.permit_kept
    | apply State.plainWrite_kept
    | apply State.ranged_kept
    | apply Kept.ite

theorem State.writeIsl_kept {st : State} {who : Who} {fn w off : Nat} {v : Word} (h_st : Kept kf z0 st)
    (hregs : ¬kf.regs) (hcores : ¬kf.cores) (hisl : ¬kf.isl) :
    Kept kf z0 (State.writeIsl st who fn w off v) := by
  unfold State.writeIsl
  with_reducible repeat' first
    | assumption
    | refine fun _ (_ : Kept _ _ _) => ?_
    | (extract_lets +onlyGivenNames x; clear_value x)
    | apply State.islCtl_kept
    | apply State.islCtlWrite_kept
    | apply State.permit_kept
    | apply State.plainWrite_kept
    | apply Kept.ite

theorem State.writeReg_kept {st : State} {who : Who} {off : Nat} {v : Word} (h_st : Kept kf z0 st)
    (hregs : ¬kf.regs) (hcar : ¬kf.car) (hmesh : ¬kf.mesh) (hcores : ¬kf.cores) (hfields : ¬kf.fields)
    (hisl : ¬kf.isl) (hkvl : ¬kf.kvl) (hleases : ¬kf.leases) (hmem : ¬kf.mem) (hsnp : ¬kf.snp) :
    Kept kf z0 (State.writeReg st who off v) := by
  unfold State.writeReg
  with_reducible repeat' first
    | assumption
    | refine fun _ (_ : Kept _ _ _) => ?_
    | refine fun _ _ (_ : Kept _ _ _) => ?_
    | refine fun _ _ _ (_ : Kept _ _ _) => ?_
    | (extract_lets +onlyGivenNames x; clear_value x)
    | apply State.accErr_kept
    | apply State.captCtlWrite_kept
    | apply State.clearConf_kept
    | apply State.islUser_kept
    | apply State.permit_kept
    | apply State.plainWrite_kept
    | apply State.ranged_kept
    | apply State.shareChange_kept
    | apply State.tallyStat_kept
    | apply State.tallyValue_kept
    | apply State.wf_kept
    | apply State.writeFld_kept
    | apply State.writeGzc_kept
    | apply State.writeIsl_kept
    | apply State.writeKvl_kept
    | apply State.writeModule_kept
    | apply State.writeMsh_kept
    | apply State.writeQue_kept
    | apply State.writeSnp_kept
    | apply hF
    | apply Kept.ite
    | intro _
    | dsimp only
    | fail_if_no_progress (refine Kept.upd ?_)
    | split

theorem State.unlatch_kept {st : State} {who : Who} {off : Nat} {staged : Bool} (h_st : Kept kf z0 st) :
    Kept kf z0 (State.unlatch st who off staged) := by
  unfold State.unlatch
  with_reducible repeat' first
    | assumption
    | fail_if_no_progress (refine Kept.upd ?_)

theorem State.latch_kept {st : State} {who : Who} {off : Nat} {staged : Bool} {word : Nat} (h_st : Kept kf z0 st) :
    Kept kf z0 (State.latch st who off staged word) := by
  unfold State.latch
  with_reducible repeat' first
    | assumption
    | (extract_lets +onlyGivenNames x; refine Kept.cut kf z0 x ?_ (fun hx => ?_) <;> [subst x; clear_value x])
    | apply State.unlatch_kept
    | fail_if_no_progress (refine Kept.upd ?_)

theorem State.latchedEffect_kept {st : State} {off : Nat} (h_st : Kept kf z0 st) (hregs : ¬kf.regs)
    (hfields : ¬kf.fields) :
    Kept kf z0 (State.latchedEffect st off) := by
  unfold State.latchedEffect
  with_reducible repeat' first
    | assumption
    | (extract_lets +onlyGivenNames x; clear_value x)
    | apply State.add_kept
    | apply State.setField_kept
    | apply Kept.ite

theorem State.read32_kept {st : State} {who : Who} {off : Nat} (h_st : Kept kf z0 st) (hregs : ¬kf.regs)
    (hfields : ¬kf.fields) (hisl : ¬kf.isl) :
    Kept kf z0 (State.read32 st who off) := by
  unfold State.read32
  with_reducible repeat' first
    | assumption
    | (extract_lets +onlyGivenNames x; clear_value x)
    | apply State.accErrAt_kept
    | apply State.answer_kept
    | apply State.draw_kept
    | apply State.islUser_kept
    | apply State.latch_kept
    | apply State.latchedEffect_kept
    | apply State.unlatch_kept
    | apply hF
    | apply Kept.ite
    | intro _
    | dsimp only
    | fail_if_no_progress (refine Kept.upd ?_)
    | split

theorem State.write32_kept {st : State} {who : Who} {off value : Nat} (h_st : Kept kf z0 st) (hregs : ¬kf.regs)
    (hcar : ¬kf.car) (hmesh : ¬kf.mesh) (hcores : ¬kf.cores) (hfields : ¬kf.fields) (hisl : ¬kf.isl)
    (hkvl : ¬kf.kvl) (hleases : ¬kf.leases) (hmem : ¬kf.mem) (hsnp : ¬kf.snp) :
    Kept kf z0 (State.write32 st who off value) := by
  unfold State.write32
  with_reducible repeat' first
    | assumption
    | (extract_lets +onlyGivenNames x; clear_value x)
    | apply State.accErrAt_kept
    | apply State.latch_kept
    | apply State.unlatch_kept
    | apply State.writeReg_kept
    | apply Kept.ite
    | dsimp only
    | split

theorem State.write64_kept {st : State} {who : Who} {off value : Nat} (h_st : Kept kf z0 st) (hregs : ¬kf.regs)
    (hcar : ¬kf.car) (hmesh : ¬kf.mesh) (hcores : ¬kf.cores) (hfields : ¬kf.fields) (hisl : ¬kf.isl)
    (hkvl : ¬kf.kvl) (hleases : ¬kf.leases) (hmem : ¬kf.mem) (hsnp : ¬kf.snp) :
    Kept kf z0 (State.write64 st who off value) := by
  unfold State.write64
  with_reducible repeat' first
    | assumption
    | (extract_lets +onlyGivenNames x; clear_value x)
    | apply State.accErrAt_kept
    | apply State.write32_kept
    | apply State.writeReg_kept
    | apply Kept.ite
    | split

theorem State.writeAccess_kept {st : State} {who : Who} {off size value : Nat} (h_st : Kept kf z0 st)
    (hregs : ¬kf.regs) (hcar : ¬kf.car) (hmesh : ¬kf.mesh) (hcores : ¬kf.cores) (hfields : ¬kf.fields)
    (hisl : ¬kf.isl) (hkvl : ¬kf.kvl) (hleases : ¬kf.leases) (hmem : ¬kf.mem) (hsnp : ¬kf.snp) :
    Kept kf z0 (State.writeAccess st who off size value) := by
  unfold State.writeAccess
  with_reducible repeat' first
    | assumption
    | apply State.write32_kept
    | apply State.write64_kept
    | apply Kept.ite

theorem execRegisterWrite_kept {who : Who} {off size value : Nat} {st : State} (h_st : Kept kf z0 st)
    (hregs : ¬kf.regs) (hcar : ¬kf.car) (hmesh : ¬kf.mesh) (hcores : ¬kf.cores) (hfields : ¬kf.fields)
    (hisl : ¬kf.isl) (hkvl : ¬kf.kvl) (hleases : ¬kf.leases) (hmem : ¬kf.mem) (hnow : ¬kf.now) (hsnp : ¬kf.snp) :
    KeptOut kf z0 (execRegisterWrite who off size value st) := by
  unfold execRegisterWrite
  with_reducible repeat' first
    | assumption
    | apply State.narrowStore_kept
    | apply State.writeAccess_kept
    | apply Kept.ite
    | apply KeptOut.next
    | apply KeptOut.ite
    | dsimp only
    | fail_if_no_progress (refine Kept.upd ?_)
    | split

theorem State.readHalves_kept {st : State} {who : Who} {off : Nat} (h_st : Kept kf z0 st) (hregs : ¬kf.regs)
    (hfields : ¬kf.fields) (hisl : ¬kf.isl) :
    Kept kf z0 (State.readHalves st who off) := by
  unfold State.readHalves
  with_reducible repeat' first
    | assumption
    | (extract_lets +onlyGivenNames x; first
        | (refine Kept.cut kf z0 x ?_ (fun hx => ?_) <;> [subst x; clear_value x])
        | (refine Kept.cut kf z0 x.1 ?_ (fun hx => ?_) <;> [subst x; clear_value x])
        | (refine Kept.cut kf z0 x.2 ?_ (fun hx => ?_) <;> [subst x; clear_value x])
        | (refine Kept.cut kf z0 x.2.2 ?_ (fun hx => ?_) <;> [subst x; clear_value x])
        | (refine Kept.cutF kf z0 x ?_ (fun hF => ?_) <;> [subst x; clear_value x])
        | (refine Kept.cutF₁ kf z0 x ?_ (fun hF => ?_) <;> [subst x; clear_value x])
        | (refine Kept.cutF₂ kf z0 x ?_ (fun hF => ?_) <;> [subst x; clear_value x])
        | (refine Kept.cutP kf z0 x ?_ (fun hF => ?_) <;> [subst x; clear_value x])
        | (refine Kept.cutA kf z0 x ?_ (fun hF => ?_) <;> [subst x; clear_value x])
        | (have : x.fuses = x.fuses := (by rfl); clear this; subst x))
    | apply State.read32_kept
    | apply hF
    | apply Kept.ite
    | intro _
    | dsimp only
    | fail_if_no_progress (refine Kept.upd ?_)

theorem State.read64_kept {st : State} {who : Who} {off : Nat} (h_st : Kept kf z0 st) (hregs : ¬kf.regs)
    (hcores : ¬kf.cores) (hfields : ¬kf.fields) (hisl : ¬kf.isl) :
    Kept kf z0 (State.read64 st who off) := by
  unfold State.read64
  with_reducible repeat' first
    | assumption
    | (extract_lets +onlyGivenNames x; clear_value x)
    | apply State.accErrAt_kept
    | apply State.answer_kept
    | apply State.draw_kept
    | apply State.latchedEffect_kept
    | apply State.leaseHiTake_kept
    | apply State.readHalves_kept
    | apply State.retireTake_kept
    | apply hF
    | apply Kept.ite
    | intro _
    | dsimp only
    | fail_if_no_progress (refine Kept.upd ?_)
    | split

theorem State.readAccess_kept {st : State} {who : Who} {off size : Nat} (h_st : Kept kf z0 st)
    (hregs : ¬kf.regs) (hcores : ¬kf.cores) (hfields : ¬kf.fields) (hisl : ¬kf.isl) :
    Kept kf z0 (State.readAccess st who off size) := by
  unfold State.readAccess
  with_reducible repeat' first
    | assumption
    | apply State.read32_kept
    | apply State.read64_kept
    | apply Kept.ite
    | dsimp only
    | fail_if_no_progress (refine Kept.upd ?_)

theorem execLowWordRead_kept {who : Who} {off size : Nat} {st : State} (h_st : Kept kf z0 st) (hregs : ¬kf.regs)
    (hcar : ¬kf.car) (hmesh : ¬kf.mesh) (hcores : ¬kf.cores) (hfields : ¬kf.fields) (hisl : ¬kf.isl)
    (hmem : ¬kf.mem) (hnow : ¬kf.now) :
    KeptOut kf z0 (execLowWordRead who off size st) := by
  unfold execLowWordRead
  with_reducible repeat' first
    | assumption
    | apply State.narrowLoad_kept
    | apply State.readAccess_kept
    | apply Kept.ite
    | apply KeptOut.next
    | apply KeptOut.ite
    | dsimp only
    | fail_if_no_progress (refine Kept.upd ?_)
    | split

theorem execLowWordWrite_kept {who : Who} {off value : Nat} {st : State} (h_st : Kept kf z0 st) (hregs : ¬kf.regs)
    (hcar : ¬kf.car) (hmesh : ¬kf.mesh) (hcores : ¬kf.cores) (hfields : ¬kf.fields) (hisl : ¬kf.isl)
    (hkvl : ¬kf.kvl) (hleases : ¬kf.leases) (hmem : ¬kf.mem) (hsnp : ¬kf.snp) :
    KeptOut kf z0 (execLowWordWrite who off value st) := by
  unfold execLowWordWrite
  with_reducible repeat' first
    | assumption
    | apply State.write32_kept
    | apply Kept.ite
    | apply KeptOut.next

theorem execHighWordWrite_kept {who : Who} {off value : Nat} {st : State} (h_st : Kept kf z0 st) (hregs : ¬kf.regs)
    (hcar : ¬kf.car) (hmesh : ¬kf.mesh) (hcores : ¬kf.cores) (hfields : ¬kf.fields) (hisl : ¬kf.isl)
    (hkvl : ¬kf.kvl) (hleases : ¬kf.leases) (hmem : ¬kf.mem) (hsnp : ¬kf.snp) :
    KeptOut kf z0 (execHighWordWrite who off value st) := by
  unfold execHighWordWrite
  with_reducible repeat' first
    | assumption
    | apply State.write32_kept
    | apply Kept.ite
    | apply KeptOut.next

theorem State.setFlash_kept {st : State} {f : Flash} (h_st : Kept kf z0 st) (hcar : ¬kf.car) (hflash : ¬kf.flash) :
    Kept kf z0 (State.setFlash st f) := by
  unfold State.setFlash
  with_reducible repeat' first
    | assumption
    | (extract_lets +onlyGivenNames x; have : x.fuses = x.fuses := (by rfl); clear this; subst x)
    | fail_if_no_progress (refine Kept.upd ?_)

theorem execClearRetired_kept {it : Item} {st : State} (h_st : Kept kf z0 st) (hcar : ¬kf.car) (hflash : ¬kf.flash) :
    KeptOut kf z0 (execClearRetired it st) := by
  unfold execClearRetired
  with_reducible repeat' first
    | assumption
    | refine fun _ _ (_ : Kept _ _ _) => ?_
    | (extract_lets +onlyGivenNames x; clear_value x)
    | apply State.endItem_kept
    | apply State.onItem_kept
    | apply State.setFlash_kept
    | apply Kept.ite

theorem State.putSlot_kept {st : State} {s : Nat} {i : Option Image} (h_st : Kept kf z0 st) (hcar : ¬kf.car)
    (hflash : ¬kf.flash) :
    Kept kf z0 (State.putSlot st s i) := by
  unfold State.putSlot
  with_reducible repeat' first
    | assumption
    | (extract_lets +onlyGivenNames x; clear_value x)
    | apply State.setFlash_kept

theorem execStoreImage_kept {it : Item} {img : Image} {flashOk : Bool} {st : State} (h_st : Kept kf z0 st)
    (hcar : ¬kf.car) (hflash : ¬kf.flash) :
    KeptOut kf z0 (execStoreImage it img flashOk st) := by
  unfold execStoreImage
  with_reducible repeat' first
    | assumption
    | refine fun _ _ (_ : Kept _ _ _) => ?_
    | (extract_lets +onlyGivenNames x; clear_value x)
    | apply State.endItem_kept
    | apply State.onItemIf_kept
    | apply State.putSlot_kept
    | apply Kept.ite

theorem execSetBoot_kept {it : Item} {flashOk : Bool} {st : State} (h_st : Kept kf z0 st) (hcar : ¬kf.car)
    (hflash : ¬kf.flash) :
    KeptOut kf z0 (execSetBoot it flashOk st) := by
  unfold execSetBoot
  with_reducible repeat' first
    | assumption
    | refine fun _ _ (_ : Kept _ _ _) => ?_
    | (extract_lets +onlyGivenNames x; first
        | (refine Kept.cut kf z0 x ?_ (fun hx => ?_) <;> [subst x; clear_value x])
        | clear_value x)
    | apply State.endItem_kept
    | apply State.onItem_kept
    | apply State.setFlash_kept
    | apply Kept.ite

theorem execStoreFirmware_kept {it : Item} {img : FwImage} {flashOk : Bool} {st : State} (h_st : Kept kf z0 st)
    (hcar : ¬kf.car) (hflash : ¬kf.flash) :
    KeptOut kf z0 (execStoreFirmware it img flashOk st) := by
  unfold execStoreFirmware
  with_reducible repeat' first
    | assumption
    | refine fun _ (_ : Kept _ _ _) => ?_
    | refine fun _ _ (_ : Kept _ _ _) => ?_
    | refine fun _ _ _ (_ : Kept _ _ _) => ?_
    | (extract_lets +onlyGivenNames x; clear_value x)
    | apply State.endItem_kept
    | apply State.onItemIf_kept
    | apply State.setFlash_kept
    | apply hF
    | apply Kept.ite

theorem State.setFuses_kept {kf : Facets} {z0 st : State} {f : Fuses} (h : Kept kf z0 st) (hcar : ¬kf.car) (hfuses : ¬kf.fuses)
    (hf : Fuses.Follows st.car.fuses f) : Kept kf z0 (State.setFuses st f) :=
  { h with
    follows := h.follows.trans hf
    canonical := fun w => { h.canonical w with }
    fuses := fun a => absurd a hfuses
    car := fun a => absurd a hcar }

theorem execRevokeKey_kept {kf : Facets} {z0 st : State} {it : Item} {fuseOk : Bool} (h : Kept kf z0 st) (hregs : ¬kf.regs) (hcar : ¬kf.car)
    (hfuses : ¬kf.fuses) :
    KeptOut kf z0 (execRevokeKey it fuseOk st) := by
  unfold execRevokeKey
  refine State.onItem_kept h (fun x s hs => ?_)
  dsimp only
  split
  · exact State.endItem_kept hs
  · rename_i hc
    refine Kept.ite (State.endItem_kept hs) (Kept.ite ?_ (State.endItem_kept hs))
    refine State.endItem_kept (State.wf_kept (State.setFuses_kept hs hcar hfuses ⟨Fuses.le_revoke _ _, fun _ => ?_⟩) hregs)
    exact Fuses.live_of_liveKeys (fun e => hc (by simp [e]))

theorem execRaiseSvn_kept {kf : Facets} {z0 st : State} {it : Item} {fuseOk : Bool} (h : Kept kf z0 st) (hregs : ¬kf.regs) (hcar : ¬kf.car)
    (hfuses : ¬kf.fuses) :
    KeptOut kf z0 (execRaiseSvn it fuseOk st) := by
  unfold execRaiseSvn
  refine State.onItem_kept h (fun x s hs => ?_)
  refine Kept.ite (State.endItem_kept hs) (Kept.ite (State.endItem_kept hs) (Kept.ite ?_ (State.endItem_kept hs)))
  exact State.endItem_kept (State.wf_kept (State.setFuses_kept hs hcar hfuses ⟨Fuses.le_raise _ _ _, fun k => k⟩) hregs)

theorem execModuleReset_kept {it : Item} {st : State} (h_st : Kept kf z0 st) (hregs : ¬kf.regs) (hcar : ¬kf.car)
    (hbrs : ¬kf.brs) (hmesh : ¬kf.mesh) (hcores : ¬kf.cores) (hfields : ¬kf.fields) (hflash : ¬kf.flash)
    (hisl : ¬kf.isl) (hkvl : ¬kf.kvl) (hleases : ¬kf.leases) (hmem : ¬kf.mem) (hnow : ¬kf.now) (hsnp : ¬kf.snp) :
    KeptOut kf z0 (execModuleReset it st) := by
  unfold execModuleReset
  with_reducible repeat' first
    | assumption
    | refine fun _ _ (_ : Kept _ _ _) => ?_
    | apply State.moduleReset_kept
    | apply State.onItem_kept

end Sys2Proof.Machine
end

