-- ==== Sys2Proof/Laws/Registers.lean ====
section
/-! SUPPORT. Reading and writing registers: what a read gives after a write of the same register, of another one and of a
field of bits, and the bits that a field write changes and leaves. -/

namespace Sys2Proof.Machine

set_option Elab.async false

/-! ## Bits of a word -/

theorem maskOf_getLsbD (hi lo i : Nat) (h : lo ≤ hi) : (maskOf hi lo).getLsbD i = decide (lo ≤ i ∧ i ≤ hi ∧ i < 64) := by
  unfold maskOf
  simp only [BitVec.getLsbD_shiftLeft, BitVec.getLsbD_ofNat, Nat.testBit_two_pow_sub_one]
  rw [Bool.eq_iff_iff]
  simp only [Bool.and_eq_true, decide_eq_true_eq, Bool.not_eq_true', decide_eq_false_iff_not]
  omega

theorem withBits_getLsbD (v : Word) (hi lo n i : Nat) (h : lo ≤ hi) :
    (withBits v hi lo n).getLsbD i = if lo ≤ i ∧ i ≤ hi ∧ i < 64 then n.testBit (i - lo) else v.getLsbD i := by
  unfold withBits
  simp only [BitVec.getLsbD_or, BitVec.getLsbD_and, BitVec.getLsbD_not, maskOf_getLsbD _ _ _ h, BitVec.getLsbD_shiftLeft,
    BitVec.getLsbD_ofNat]
  by_cases c : lo ≤ i ∧ i ≤ hi ∧ i < 64
  · have d : i - lo < 64 := by omega
    have e : ¬i < lo := by omega
    simp [c, d, e]
  · rw [if_neg c, decide_eq_false c]
    by_cases d : i < 64
    · simp [d]
    · simp [d, BitVec.getLsbD_of_ge v i (by omega)]

theorem bitsOf_testBit (v : Word) (hi lo i : Nat) :
    (bitsOf v hi lo).testBit i = (decide (i < hi + 1 - lo) && v.getLsbD (lo + i)) := by
  unfold bitsOf
  rw [Nat.testBit_mod_two_pow]
  simp [← BitVec.testBit_toNat, Nat.testBit_shiftRight]

/-- A field of bits reads as it was written, cut to its width. -/
theorem bitsOf_withBits (v : Word) {hi lo : Nat} (n : Nat) (h : lo ≤ hi) (w : hi < 64) :
    bitsOf (withBits v hi lo n) hi lo = n % 2 ^ (hi + 1 - lo) := by
  refine Nat.eq_of_testBit_eq fun i => ?_
  rw [bitsOf_testBit, withBits_getLsbD _ _ _ _ _ h, Nat.testBit_mod_two_pow]
  by_cases c : i < hi + 1 - lo
  · rw [if_pos (by omega)]
    simp
  · simp [c]

/-- A field beside the one written reads as before. -/
theorem bitsOf_withBits_ne (v : Word) {hi lo hi' lo' : Nat} (n : Nat) (h : lo ≤ hi) (d : hi < lo' ∨ hi' < lo) :
    bitsOf (withBits v hi lo n) hi' lo' = bitsOf v hi' lo' := by
  refine Nat.eq_of_testBit_eq fun i => ?_
  rw [bitsOf_testBit, bitsOf_testBit, withBits_getLsbD _ _ _ _ _ h]
  by_cases c : i < hi' + 1 - lo'
  · rw [if_neg (by omega)]
  · simp [c]

/-! ## Registers -/

variable {s : State} {off j : Nat} {v : Word}

theorem State.rd_wr_ne (h : j ≠ off) : (s.wr off v).rd j = s.rd j := tget_tput_ne _ h

/-- A register reads as it was written. -/
theorem State.rd_wr (w : regsWf s.regs) : (s.wr off v).rd off = v := (tget_tput (d := Reg.resetOf) v w).trans (if_pos rfl)

theorem State.regsWf_wr (w : regsWf s.regs) : regsWf (s.wr off v).regs := tableWf_tput _ w

theorem State.rd_wf_ne {hi lo n : Nat} (h : j ≠ off) : (s.wf off hi lo n).rd j = s.rd j := State.rd_wr_ne h

theorem State.rd_wf {hi lo n : Nat} (w : regsWf s.regs) : (s.wf off hi lo n).rd off = withBits (s.rd off) hi lo n :=
  State.rd_wr w

theorem State.regsWf_wf {hi lo n : Nat} (w : regsWf s.regs) : regsWf (s.wf off hi lo n).regs := State.regsWf_wr w

theorem State.rf_wf {hi lo n : Nat} (w : regsWf s.regs) (h : lo ≤ hi) (k : hi < 64) :
    (s.wf off hi lo n).rf off hi lo = n % 2 ^ (hi + 1 - lo) := by
  unfold State.rf
  rw [State.rd_wf w, bitsOf_withBits _ _ h k]

theorem State.rb_wf {hi lo n b : Nat} (w : regsWf s.regs) (h : lo ≤ hi) :
    (s.wf off hi lo n).rb off b = if lo ≤ b ∧ b ≤ hi ∧ b < 64 then n.testBit (b - lo) else s.rb off b := by
  unfold State.rb
  rw [State.rd_wf w, withBits_getLsbD _ _ _ _ _ h]

theorem State.rb_setb {b : Nat} (w : regsWf s.regs) (h : b < 64) : (s.setb off b).rb off b = true := by
  unfold State.setb
  rw [State.rb_wf w (Nat.le_refl _)]
  simp [h]

theorem State.rb_clrb {b : Nat} (w : regsWf s.regs) (h : b < 64) : (s.clrb off b).rb off b = false := by
  unfold State.clrb
  rw [State.rb_wf w (Nat.le_refl _)]
  simp [h]

theorem State.rn_wn {n : Nat} (w : regsWf s.regs) : (s.wn off n).rn off = n % 2 ^ 64 := by
  unfold State.rn State.wn
  rw [State.rd_wr w, BitVec.toNat_ofNat]

/-! ## Bytes of a number (R2) -/

theorem leBytes_length (n v : Nat) : (leBytes n v).length = n := by
  induction n generalizing v with
  | zero => rfl
  | succ n ih => simp [leBytes, ih]

theorem leNat_leBytes (n v : Nat) : leNat (leBytes n v) = v % 256 ^ n := by
  induction n generalizing v with
  | zero => simp [leBytes, leNat, Nat.mod_one]
  | succ n ih =>
    have e : (256 : Nat) ^ (n + 1) = 256 * 256 ^ n := by rw [Nat.pow_succ, Nat.mul_comm]
    have b : (2 : Nat) ^ 8 = 256 := rfl
    simp only [leBytes, leNat, ih, BitVec.toNat_ofNat, e, b]
    rw [Nat.mod_mul]

/-! ## The stores -/

theorem State.mem8_setMem8_ne {a b : Nat} {x : Byte} (h : b ≠ a) : (s.setMem8 a x).mem8 b = s.mem8 b := tget_tput_ne _ h

theorem State.mem8_setMem8 {a : Nat} {x : Byte} (w : memoryWf s.mem) : (s.setMem8 a x).mem8 a = x :=
  (tget_tput (d := fun _ => (0 : Byte)) x w).trans (if_pos rfl)

/-! ## Tables of units -/

theorem State.field_setField {fn : Nat} {f : FieldSt} (w : tableWf (fun _ => ({} : FieldSt)) s.fields = true) :
    (s.setField fn f).field fn = f := (tget_tput (d := fun _ => ({} : FieldSt)) f w).trans (if_pos rfl)

theorem State.field_setField_ne {fn k : Nat} {f : FieldSt} (h : k ≠ fn) : (s.setField fn f).field k = s.field k :=
  tget_tput_ne _ h

theorem State.core_setCore {fn k : Nat} {c : CoreSt} (w : tableWf (fun _ => ({} : CoreSt)) s.cores = true) :
    (s.setCore fn k c).core fn k = c := (tget_tput (d := fun _ => ({} : CoreSt)) c w).trans (if_pos rfl)

theorem State.lease_setLease {i : Nat} {l : Lease} (w : tableWf (fun _ => ({} : Lease)) s.leases = true) :
    (s.setLease i l).lease i = l := (tget_tput (d := fun _ => ({} : Lease)) l w).trans (if_pos rfl)

end Sys2Proof.Machine
end

