-- ==== Sys2Proof/Laws/State.lean ====
section
/-! SUPPORT. The fields of the state after each of the shared updates: the field that the update writes, and every other one
left as it was. -/

namespace Sys2Proof.Machine

set_option Elab.async false

variable (st : State)

section
variable (off : Nat) (v : Word)

@[simp] theorem State.wr_pending : (st.wr off v).pending = st.pending := rfl
@[simp] theorem State.wr_now : (st.wr off v).now = st.now := rfl
@[simp] theorem State.wr_clock : (st.wr off v).clock = st.clock := rfl
@[simp] theorem State.wr_fresh : (st.wr off v).fresh = st.fresh := rfl
@[simp] theorem State.wr_reply : (st.wr off v).reply = st.reply := rfl
@[simp] theorem State.wr_regs : (st.wr off v).regs =
    tput (Reg.resetOf off) st.regs off v := rfl
@[simp] theorem State.wr_latches : (st.wr off v).latches = st.latches := rfl
@[simp] theorem State.wr_mem : (st.wr off v).mem = st.mem := rfl
@[simp] theorem State.wr_poison : (st.wr off v).poison = st.poison := rfl
@[simp] theorem State.wr_flipped : (st.wr off v).flipped = st.flipped := rfl
@[simp] theorem State.wr_fields : (st.wr off v).fields = st.fields := rfl
@[simp] theorem State.wr_cores : (st.wr off v).cores = st.cores := rfl
@[simp] theorem State.wr_kvl : (st.wr off v).kvl = st.kvl := rfl
@[simp] theorem State.wr_snp : (st.wr off v).snp = st.snp := rfl
@[simp] theorem State.wr_isl : (st.wr off v).isl = st.isl := rfl
@[simp] theorem State.wr_leases : (st.wr off v).leases = st.leases := rfl
@[simp] theorem State.wr_mesh : (st.wr off v).mesh = st.mesh := rfl
@[simp] theorem State.wr_host : (st.wr off v).host = st.host := rfl
@[simp] theorem State.wr_car : (st.wr off v).car = st.car := rfl
@[simp] theorem State.wr_brs : (st.wr off v).brs = st.brs := rfl
@[simp] theorem State.wr_out : (st.wr off v).out = st.out := rfl

end

section
variable (fn : Nat) (f : FieldSt)

@[simp] theorem State.setField_pending : (st.setField fn f).pending = st.pending := rfl
@[simp] theorem State.setField_now : (st.setField fn f).now = st.now := rfl
@[simp] theorem State.setField_clock : (st.setField fn f).clock = st.clock := rfl
@[simp] theorem State.setField_fresh : (st.setField fn f).fresh = st.fresh := rfl
@[simp] theorem State.setField_reply : (st.setField fn f).reply = st.reply := rfl
@[simp] theorem State.setField_regs : (st.setField fn f).regs = st.regs := rfl
@[simp] theorem State.setField_latches : (st.setField fn f).latches = st.latches := rfl
@[simp] theorem State.setField_mem : (st.setField fn f).mem = st.mem := rfl
@[simp] theorem State.setField_poison : (st.setField fn f).poison = st.poison := rfl
@[simp] theorem State.setField_flipped : (st.setField fn f).flipped = st.flipped := rfl
@[simp] theorem State.setField_fields : (st.setField fn f).fields =
    tput {} st.fields fn f := rfl
@[simp] theorem State.setField_cores : (st.setField fn f).cores = st.cores := rfl
@[simp] theorem State.setField_kvl : (st.setField fn f).kvl = st.kvl := rfl
@[simp] theorem State.setField_snp : (st.setField fn f).snp = st.snp := rfl
@[simp] theorem State.setField_isl : (st.setField fn f).isl = st.isl := rfl
@[simp] theorem State.setField_leases : (st.setField fn f).leases = st.leases := rfl
@[simp] theorem State.setField_mesh : (st.setField fn f).mesh = st.mesh := rfl
@[simp] theorem State.setField_host : (st.setField fn f).host = st.host := rfl
@[simp] theorem State.setField_car : (st.setField fn f).car = st.car := rfl
@[simp] theorem State.setField_brs : (st.setField fn f).brs = st.brs := rfl
@[simp] theorem State.setField_out : (st.setField fn f).out = st.out := rfl

end

section
variable (fn s : Nat) (c : CoreSt)

@[simp] theorem State.setCore_pending : (st.setCore fn s c).pending = st.pending := rfl
@[simp] theorem State.setCore_now : (st.setCore fn s c).now = st.now := rfl
@[simp] theorem State.setCore_clock : (st.setCore fn s c).clock = st.clock := rfl
@[simp] theorem State.setCore_fresh : (st.setCore fn s c).fresh = st.fresh := rfl
@[simp] theorem State.setCore_reply : (st.setCore fn s c).reply = st.reply := rfl
@[simp] theorem State.setCore_regs : (st.setCore fn s c).regs = st.regs := rfl
@[simp] theorem State.setCore_latches : (st.setCore fn s c).latches = st.latches := rfl
@[simp] theorem State.setCore_mem : (st.setCore fn s c).mem = st.mem := rfl
@[simp] theorem State.setCore_poison : (st.setCore fn s c).poison = st.poison := rfl
@[simp] theorem State.setCore_flipped : (st.setCore fn s c).flipped = st.flipped := rfl
@[simp] theorem State.setCore_fields : (st.setCore fn s c).fields = st.fields := rfl
@[simp] theorem State.setCore_cores : (st.setCore fn s c).cores =
    tput {} st.cores (fn * 4 + s) c := rfl
@[simp] theorem State.setCore_kvl : (st.setCore fn s c).kvl = st.kvl := rfl
@[simp] theorem State.setCore_snp : (st.setCore fn s c).snp = st.snp := rfl
@[simp] theorem State.setCore_isl : (st.setCore fn s c).isl = st.isl := rfl
@[simp] theorem State.setCore_leases : (st.setCore fn s c).leases = st.leases := rfl
@[simp] theorem State.setCore_mesh : (st.setCore fn s c).mesh = st.mesh := rfl
@[simp] theorem State.setCore_host : (st.setCore fn s c).host = st.host := rfl
@[simp] theorem State.setCore_car : (st.setCore fn s c).car = st.car := rfl
@[simp] theorem State.setCore_brs : (st.setCore fn s c).brs = st.brs := rfl
@[simp] theorem State.setCore_out : (st.setCore fn s c).out = st.out := rfl

end

section
variable (i : Nat) (l : Lease)

@[simp] theorem State.setLease_pending : (st.setLease i l).pending = st.pending := rfl
@[simp] theorem State.setLease_now : (st.setLease i l).now = st.now := rfl
@[simp] theorem State.setLease_clock : (st.setLease i l).clock = st.clock := rfl
@[simp] theorem State.setLease_fresh : (st.setLease i l).fresh = st.fresh := rfl
@[simp] theorem State.setLease_reply : (st.setLease i l).reply = st.reply := rfl
@[simp] theorem State.setLease_regs : (st.setLease i l).regs = st.regs := rfl
@[simp] theorem State.setLease_latches : (st.setLease i l).latches = st.latches := rfl
@[simp] theorem State.setLease_mem : (st.setLease i l).mem = st.mem := rfl
@[simp] theorem State.setLease_poison : (st.setLease i l).poison = st.poison := rfl
@[simp] theorem State.setLease_flipped : (st.setLease i l).flipped = st.flipped := rfl
@[simp] theorem State.setLease_fields : (st.setLease i l).fields = st.fields := rfl
@[simp] theorem State.setLease_cores : (st.setLease i l).cores = st.cores := rfl
@[simp] theorem State.setLease_kvl : (st.setLease i l).kvl = st.kvl := rfl
@[simp] theorem State.setLease_snp : (st.setLease i l).snp = st.snp := rfl
@[simp] theorem State.setLease_isl : (st.setLease i l).isl = st.isl := rfl
@[simp] theorem State.setLease_leases : (st.setLease i l).leases =
    tput {} st.leases i l := rfl
@[simp] theorem State.setLease_mesh : (st.setLease i l).mesh = st.mesh := rfl
@[simp] theorem State.setLease_host : (st.setLease i l).host = st.host := rfl
@[simp] theorem State.setLease_car : (st.setLease i l).car = st.car := rfl
@[simp] theorem State.setLease_brs : (st.setLease i l).brs = st.brs := rfl
@[simp] theorem State.setLease_out : (st.setLease i l).out = st.out := rfl

end

section
variable (p : Nat) (x : PartSt)

@[simp] theorem State.setPart_pending : (st.setPart p x).pending = st.pending := rfl
@[simp] theorem State.setPart_now : (st.setPart p x).now = st.now := rfl
@[simp] theorem State.setPart_clock : (st.setPart p x).clock = st.clock := rfl
@[simp] theorem State.setPart_fresh : (st.setPart p x).fresh = st.fresh := rfl
@[simp] theorem State.setPart_reply : (st.setPart p x).reply = st.reply := rfl
@[simp] theorem State.setPart_regs : (st.setPart p x).regs = st.regs := rfl
@[simp] theorem State.setPart_latches : (st.setPart p x).latches = st.latches := rfl
@[simp] theorem State.setPart_mem : (st.setPart p x).mem = st.mem := rfl
@[simp] theorem State.setPart_poison : (st.setPart p x).poison = st.poison := rfl
@[simp] theorem State.setPart_flipped : (st.setPart p x).flipped = st.flipped := rfl
@[simp] theorem State.setPart_fields : (st.setPart p x).fields = st.fields := rfl
@[simp] theorem State.setPart_cores : (st.setPart p x).cores = st.cores := rfl
@[simp] theorem State.setPart_kvl : (st.setPart p x).kvl = st.kvl := rfl
@[simp] theorem State.setPart_snp : (st.setPart p x).snp = st.snp := rfl
@[simp] theorem State.setPart_isl : (st.setPart p x).isl = st.isl := rfl
@[simp] theorem State.setPart_leases : (st.setPart p x).leases = st.leases := rfl
@[simp] theorem State.setPart_mesh : (st.setPart p x).mesh = st.mesh := rfl
@[simp] theorem State.setPart_host : (st.setPart p x).host = st.host := rfl
@[simp] theorem State.setPart_car : (st.setPart p x).car = st.car := rfl
@[simp] theorem State.setPart_brs : (st.setPart p x).brs =
    { st.brs with parts := tput {} st.brs.parts p x } := rfl
@[simp] theorem State.setPart_out : (st.setPart p x).out = st.out := rfl

end

section
variable (q : Nat) (x : QueueSt)

@[simp] theorem State.setQueue_pending : (st.setQueue q x).pending = st.pending := rfl
@[simp] theorem State.setQueue_now : (st.setQueue q x).now = st.now := rfl
@[simp] theorem State.setQueue_clock : (st.setQueue q x).clock = st.clock := rfl
@[simp] theorem State.setQueue_fresh : (st.setQueue q x).fresh = st.fresh := rfl
@[simp] theorem State.setQueue_reply : (st.setQueue q x).reply = st.reply := rfl
@[simp] theorem State.setQueue_regs : (st.setQueue q x).regs = st.regs := rfl
@[simp] theorem State.setQueue_latches : (st.setQueue q x).latches = st.latches := rfl
@[simp] theorem State.setQueue_mem : (st.setQueue q x).mem = st.mem := rfl
@[simp] theorem State.setQueue_poison : (st.setQueue q x).poison = st.poison := rfl
@[simp] theorem State.setQueue_flipped : (st.setQueue q x).flipped = st.flipped := rfl
@[simp] theorem State.setQueue_fields : (st.setQueue q x).fields = st.fields := rfl
@[simp] theorem State.setQueue_cores : (st.setQueue q x).cores = st.cores := rfl
@[simp] theorem State.setQueue_kvl : (st.setQueue q x).kvl = st.kvl := rfl
@[simp] theorem State.setQueue_snp : (st.setQueue q x).snp = st.snp := rfl
@[simp] theorem State.setQueue_isl : (st.setQueue q x).isl = st.isl := rfl
@[simp] theorem State.setQueue_leases : (st.setQueue q x).leases = st.leases := rfl
@[simp] theorem State.setQueue_mesh : (st.setQueue q x).mesh = st.mesh := rfl
@[simp] theorem State.setQueue_host : (st.setQueue q x).host =
    { st.host with queues := tput {} st.host.queues q x } := rfl
@[simp] theorem State.setQueue_car : (st.setQueue q x).car = st.car := rfl
@[simp] theorem State.setQueue_brs : (st.setQueue q x).brs = st.brs := rfl
@[simp] theorem State.setQueue_out : (st.setQueue q x).out = st.out := rfl

end

section
variable (a : Nat) (b : Byte)

@[simp] theorem State.setMem8_pending : (st.setMem8 a b).pending = st.pending := rfl
@[simp] theorem State.setMem8_now : (st.setMem8 a b).now = st.now := rfl
@[simp] theorem State.setMem8_clock : (st.setMem8 a b).clock = st.clock := rfl
@[simp] theorem State.setMem8_fresh : (st.setMem8 a b).fresh = st.fresh := rfl
@[simp] theorem State.setMem8_reply : (st.setMem8 a b).reply = st.reply := rfl
@[simp] theorem State.setMem8_regs : (st.setMem8 a b).regs = st.regs := rfl
@[simp] theorem State.setMem8_latches : (st.setMem8 a b).latches = st.latches := rfl
@[simp] theorem State.setMem8_mem : (st.setMem8 a b).mem =
    tput 0 st.mem a b := rfl
@[simp] theorem State.setMem8_poison : (st.setMem8 a b).poison = st.poison := rfl
@[simp] theorem State.setMem8_flipped : (st.setMem8 a b).flipped = st.flipped := rfl
@[simp] theorem State.setMem8_fields : (st.setMem8 a b).fields = st.fields := rfl
@[simp] theorem State.setMem8_cores : (st.setMem8 a b).cores = st.cores := rfl
@[simp] theorem State.setMem8_kvl : (st.setMem8 a b).kvl = st.kvl := rfl
@[simp] theorem State.setMem8_snp : (st.setMem8 a b).snp = st.snp := rfl
@[simp] theorem State.setMem8_isl : (st.setMem8 a b).isl = st.isl := rfl
@[simp] theorem State.setMem8_leases : (st.setMem8 a b).leases = st.leases := rfl
@[simp] theorem State.setMem8_mesh : (st.setMem8 a b).mesh = st.mesh := rfl
@[simp] theorem State.setMem8_host : (st.setMem8 a b).host = st.host := rfl
@[simp] theorem State.setMem8_car : (st.setMem8 a b).car = st.car := rfl
@[simp] theorem State.setMem8_brs : (st.setMem8 a b).brs = st.brs := rfl
@[simp] theorem State.setMem8_out : (st.setMem8 a b).out = st.out := rfl

end

section
variable (o : Out)

@[simp] theorem State.emit_pending : (st.emit o).pending = st.pending := rfl
@[simp] theorem State.emit_now : (st.emit o).now = st.now := rfl
@[simp] theorem State.emit_clock : (st.emit o).clock = st.clock := rfl
@[simp] theorem State.emit_fresh : (st.emit o).fresh = st.fresh := rfl
@[simp] theorem State.emit_reply : (st.emit o).reply = st.reply := rfl
@[simp] theorem State.emit_regs : (st.emit o).regs = st.regs := rfl
@[simp] theorem State.emit_latches : (st.emit o).latches = st.latches := rfl
@[simp] theorem State.emit_mem : (st.emit o).mem = st.mem := rfl
@[simp] theorem State.emit_poison : (st.emit o).poison = st.poison := rfl
@[simp] theorem State.emit_flipped : (st.emit o).flipped = st.flipped := rfl
@[simp] theorem State.emit_fields : (st.emit o).fields = st.fields := rfl
@[simp] theorem State.emit_cores : (st.emit o).cores = st.cores := rfl
@[simp] theorem State.emit_kvl : (st.emit o).kvl = st.kvl := rfl
@[simp] theorem State.emit_snp : (st.emit o).snp = st.snp := rfl
@[simp] theorem State.emit_isl : (st.emit o).isl = st.isl := rfl
@[simp] theorem State.emit_leases : (st.emit o).leases = st.leases := rfl
@[simp] theorem State.emit_mesh : (st.emit o).mesh = st.mesh := rfl
@[simp] theorem State.emit_host : (st.emit o).host = st.host := rfl
@[simp] theorem State.emit_car : (st.emit o).car = st.car := rfl
@[simp] theorem State.emit_brs : (st.emit o).brs = st.brs := rfl
@[simp] theorem State.emit_out : (st.emit o).out =
    st.out ++ [o] := rfl

end

section
variable (n : Nat)

@[simp] theorem State.answer_pending : (st.answer n).pending = st.pending := rfl
@[simp] theorem State.answer_now : (st.answer n).now = st.now := rfl
@[simp] theorem State.answer_clock : (st.answer n).clock = st.clock := rfl
@[simp] theorem State.answer_fresh : (st.answer n).fresh = st.fresh := rfl
@[simp] theorem State.answer_reply : (st.answer n).reply =
    some (BitVec.ofNat 64 n) := rfl
@[simp] theorem State.answer_regs : (st.answer n).regs = st.regs := rfl
@[simp] theorem State.answer_latches : (st.answer n).latches = st.latches := rfl
@[simp] theorem State.answer_mem : (st.answer n).mem = st.mem := rfl
@[simp] theorem State.answer_poison : (st.answer n).poison = st.poison := rfl
@[simp] theorem State.answer_flipped : (st.answer n).flipped = st.flipped := rfl
@[simp] theorem State.answer_fields : (st.answer n).fields = st.fields := rfl
@[simp] theorem State.answer_cores : (st.answer n).cores = st.cores := rfl
@[simp] theorem State.answer_kvl : (st.answer n).kvl = st.kvl := rfl
@[simp] theorem State.answer_snp : (st.answer n).snp = st.snp := rfl
@[simp] theorem State.answer_isl : (st.answer n).isl = st.isl := rfl
@[simp] theorem State.answer_leases : (st.answer n).leases = st.leases := rfl
@[simp] theorem State.answer_mesh : (st.answer n).mesh = st.mesh := rfl
@[simp] theorem State.answer_host : (st.answer n).host = st.host := rfl
@[simp] theorem State.answer_car : (st.answer n).car = st.car := rfl
@[simp] theorem State.answer_brs : (st.answer n).brs = st.brs := rfl
@[simp] theorem State.answer_out : (st.answer n).out = st.out := rfl

end

section
variable (p : Nat) (x : KvlSt)

@[simp] theorem State.setKvl_pending : (st.setKvl p x).pending = st.pending := rfl
@[simp] theorem State.setKvl_now : (st.setKvl p x).now = st.now := rfl
@[simp] theorem State.setKvl_clock : (st.setKvl p x).clock = st.clock := rfl
@[simp] theorem State.setKvl_fresh : (st.setKvl p x).fresh = st.fresh := rfl
@[simp] theorem State.setKvl_reply : (st.setKvl p x).reply = st.reply := rfl
@[simp] theorem State.setKvl_regs : (st.setKvl p x).regs = st.regs := rfl
@[simp] theorem State.setKvl_latches : (st.setKvl p x).latches = st.latches := rfl
@[simp] theorem State.setKvl_mem : (st.setKvl p x).mem = st.mem := rfl
@[simp] theorem State.setKvl_poison : (st.setKvl p x).poison = st.poison := rfl
@[simp] theorem State.setKvl_flipped : (st.setKvl p x).flipped = st.flipped := rfl
@[simp] theorem State.setKvl_fields : (st.setKvl p x).fields = st.fields := rfl
@[simp] theorem State.setKvl_cores : (st.setKvl p x).cores = st.cores := rfl
@[simp] theorem State.setKvl_kvl : (st.setKvl p x).kvl =
    tput {} st.kvl p x := rfl
@[simp] theorem State.setKvl_snp : (st.setKvl p x).snp = st.snp := rfl
@[simp] theorem State.setKvl_isl : (st.setKvl p x).isl = st.isl := rfl
@[simp] theorem State.setKvl_leases : (st.setKvl p x).leases = st.leases := rfl
@[simp] theorem State.setKvl_mesh : (st.setKvl p x).mesh = st.mesh := rfl
@[simp] theorem State.setKvl_host : (st.setKvl p x).host = st.host := rfl
@[simp] theorem State.setKvl_car : (st.setKvl p x).car = st.car := rfl
@[simp] theorem State.setKvl_brs : (st.setKvl p x).brs = st.brs := rfl
@[simp] theorem State.setKvl_out : (st.setKvl p x).out = st.out := rfl

end

section
variable (n : Nat) (x : SnpSt)

@[simp] theorem State.setSnp_pending : (st.setSnp n x).pending = st.pending := rfl
@[simp] theorem State.setSnp_now : (st.setSnp n x).now = st.now := rfl
@[simp] theorem State.setSnp_clock : (st.setSnp n x).clock = st.clock := rfl
@[simp] theorem State.setSnp_fresh : (st.setSnp n x).fresh = st.fresh := rfl
@[simp] theorem State.setSnp_reply : (st.setSnp n x).reply = st.reply := rfl
@[simp] theorem State.setSnp_regs : (st.setSnp n x).regs = st.regs := rfl
@[simp] theorem State.setSnp_latches : (st.setSnp n x).latches = st.latches := rfl
@[simp] theorem State.setSnp_mem : (st.setSnp n x).mem = st.mem := rfl
@[simp] theorem State.setSnp_poison : (st.setSnp n x).poison = st.poison := rfl
@[simp] theorem State.setSnp_flipped : (st.setSnp n x).flipped = st.flipped := rfl
@[simp] theorem State.setSnp_fields : (st.setSnp n x).fields = st.fields := rfl
@[simp] theorem State.setSnp_cores : (st.setSnp n x).cores = st.cores := rfl
@[simp] theorem State.setSnp_kvl : (st.setSnp n x).kvl = st.kvl := rfl
@[simp] theorem State.setSnp_snp : (st.setSnp n x).snp =
    tput {} st.snp n x := rfl
@[simp] theorem State.setSnp_isl : (st.setSnp n x).isl = st.isl := rfl
@[simp] theorem State.setSnp_leases : (st.setSnp n x).leases = st.leases := rfl
@[simp] theorem State.setSnp_mesh : (st.setSnp n x).mesh = st.mesh := rfl
@[simp] theorem State.setSnp_host : (st.setSnp n x).host = st.host := rfl
@[simp] theorem State.setSnp_car : (st.setSnp n x).car = st.car := rfl
@[simp] theorem State.setSnp_brs : (st.setSnp n x).brs = st.brs := rfl
@[simp] theorem State.setSnp_out : (st.setSnp n x).out = st.out := rfl

end

section
variable (f : Fuses)

@[simp] theorem State.setFuses_pending : (st.setFuses f).pending = st.pending := rfl
@[simp] theorem State.setFuses_now : (st.setFuses f).now = st.now := rfl
@[simp] theorem State.setFuses_clock : (st.setFuses f).clock = st.clock := rfl
@[simp] theorem State.setFuses_fresh : (st.setFuses f).fresh = st.fresh := rfl
@[simp] theorem State.setFuses_reply : (st.setFuses f).reply = st.reply := rfl
@[simp] theorem State.setFuses_regs : (st.setFuses f).regs = st.regs := rfl
@[simp] theorem State.setFuses_latches : (st.setFuses f).latches = st.latches := rfl
@[simp] theorem State.setFuses_mem : (st.setFuses f).mem = st.mem := rfl
@[simp] theorem State.setFuses_poison : (st.setFuses f).poison = st.poison := rfl
@[simp] theorem State.setFuses_flipped : (st.setFuses f).flipped = st.flipped := rfl
@[simp] theorem State.setFuses_fields : (st.setFuses f).fields = st.fields := rfl
@[simp] theorem State.setFuses_cores : (st.setFuses f).cores = st.cores := rfl
@[simp] theorem State.setFuses_kvl : (st.setFuses f).kvl = st.kvl := rfl
@[simp] theorem State.setFuses_snp : (st.setFuses f).snp = st.snp := rfl
@[simp] theorem State.setFuses_isl : (st.setFuses f).isl = st.isl := rfl
@[simp] theorem State.setFuses_leases : (st.setFuses f).leases = st.leases := rfl
@[simp] theorem State.setFuses_mesh : (st.setFuses f).mesh = st.mesh := rfl
@[simp] theorem State.setFuses_host : (st.setFuses f).host = st.host := rfl
@[simp] theorem State.setFuses_car : (st.setFuses f).car =
    { st.car with fuses := f } := rfl
@[simp] theorem State.setFuses_brs : (st.setFuses f).brs = st.brs := rfl
@[simp] theorem State.setFuses_out : (st.setFuses f).out = st.out := rfl

end

section
variable (f : Flash)

@[simp] theorem State.setFlash_pending : (st.setFlash f).pending = st.pending := rfl
@[simp] theorem State.setFlash_now : (st.setFlash f).now = st.now := rfl
@[simp] theorem State.setFlash_clock : (st.setFlash f).clock = st.clock := rfl
@[simp] theorem State.setFlash_fresh : (st.setFlash f).fresh = st.fresh := rfl
@[simp] theorem State.setFlash_reply : (st.setFlash f).reply = st.reply := rfl
@[simp] theorem State.setFlash_regs : (st.setFlash f).regs = st.regs := rfl
@[simp] theorem State.setFlash_latches : (st.setFlash f).latches = st.latches := rfl
@[simp] theorem State.setFlash_mem : (st.setFlash f).mem = st.mem := rfl
@[simp] theorem State.setFlash_poison : (st.setFlash f).poison = st.poison := rfl
@[simp] theorem State.setFlash_flipped : (st.setFlash f).flipped = st.flipped := rfl
@[simp] theorem State.setFlash_fields : (st.setFlash f).fields = st.fields := rfl
@[simp] theorem State.setFlash_cores : (st.setFlash f).cores = st.cores := rfl
@[simp] theorem State.setFlash_kvl : (st.setFlash f).kvl = st.kvl := rfl
@[simp] theorem State.setFlash_snp : (st.setFlash f).snp = st.snp := rfl
@[simp] theorem State.setFlash_isl : (st.setFlash f).isl = st.isl := rfl
@[simp] theorem State.setFlash_leases : (st.setFlash f).leases = st.leases := rfl
@[simp] theorem State.setFlash_mesh : (st.setFlash f).mesh = st.mesh := rfl
@[simp] theorem State.setFlash_host : (st.setFlash f).host = st.host := rfl
@[simp] theorem State.setFlash_car : (st.setFlash f).car =
    { st.car with flash := f } := rfl
@[simp] theorem State.setFlash_brs : (st.setFlash f).brs = st.brs := rfl
@[simp] theorem State.setFlash_out : (st.setFlash f).out = st.out := rfl

end

section
variable (num : Nat) (f : Started → Started)

@[simp] theorem State.modItem_pending : (st.modItem num f).pending = st.pending := rfl
@[simp] theorem State.modItem_now : (st.modItem num f).now = st.now := rfl
@[simp] theorem State.modItem_clock : (st.modItem num f).clock = st.clock := rfl
@[simp] theorem State.modItem_fresh : (st.modItem num f).fresh = st.fresh := rfl
@[simp] theorem State.modItem_reply : (st.modItem num f).reply = st.reply := rfl
@[simp] theorem State.modItem_regs : (st.modItem num f).regs = st.regs := rfl
@[simp] theorem State.modItem_latches : (st.modItem num f).latches = st.latches := rfl
@[simp] theorem State.modItem_mem : (st.modItem num f).mem = st.mem := rfl
@[simp] theorem State.modItem_poison : (st.modItem num f).poison = st.poison := rfl
@[simp] theorem State.modItem_flipped : (st.modItem num f).flipped = st.flipped := rfl
@[simp] theorem State.modItem_fields : (st.modItem num f).fields = st.fields := rfl
@[simp] theorem State.modItem_cores : (st.modItem num f).cores = st.cores := rfl
@[simp] theorem State.modItem_kvl : (st.modItem num f).kvl = st.kvl := rfl
@[simp] theorem State.modItem_snp : (st.modItem num f).snp = st.snp := rfl
@[simp] theorem State.modItem_isl : (st.modItem num f).isl = st.isl := rfl
@[simp] theorem State.modItem_leases : (st.modItem num f).leases = st.leases := rfl
@[simp] theorem State.modItem_mesh : (st.modItem num f).mesh = st.mesh := rfl
@[simp] theorem State.modItem_host : (st.modItem num f).host =
    { st.host with started := st.host.started.map (fun x => if x.num = num then f x else x) } := rfl
@[simp] theorem State.modItem_car : (st.modItem num f).car = st.car := rfl
@[simp] theorem State.modItem_brs : (st.modItem num f).brs = st.brs := rfl
@[simp] theorem State.modItem_out : (st.modItem num f).out = st.out := rfl

end

section
variable (x : Sent)

@[simp] theorem State.track_pending : (st.track x).pending = st.pending := rfl
@[simp] theorem State.track_now : (st.track x).now = st.now := rfl
@[simp] theorem State.track_clock : (st.track x).clock = st.clock := rfl
@[simp] theorem State.track_fresh : (st.track x).fresh = st.fresh := rfl
@[simp] theorem State.track_reply : (st.track x).reply = st.reply := rfl
@[simp] theorem State.track_regs : (st.track x).regs = st.regs := rfl
@[simp] theorem State.track_latches : (st.track x).latches = st.latches := rfl
@[simp] theorem State.track_mem : (st.track x).mem = st.mem := rfl
@[simp] theorem State.track_poison : (st.track x).poison = st.poison := rfl
@[simp] theorem State.track_flipped : (st.track x).flipped = st.flipped := rfl
@[simp] theorem State.track_fields : (st.track x).fields = st.fields := rfl
@[simp] theorem State.track_cores : (st.track x).cores = st.cores := rfl
@[simp] theorem State.track_kvl : (st.track x).kvl = st.kvl := rfl
@[simp] theorem State.track_snp : (st.track x).snp = st.snp := rfl
@[simp] theorem State.track_isl : (st.track x).isl = st.isl := rfl
@[simp] theorem State.track_leases : (st.track x).leases = st.leases := rfl
@[simp] theorem State.track_mesh : (st.track x).mesh =
    { st.mesh with nextTag := (x.tag + 1) % 65536, sent := st.mesh.sent ++ [x] } := rfl
@[simp] theorem State.track_host : (st.track x).host = st.host := rfl
@[simp] theorem State.track_car : (st.track x).car = st.car := rfl
@[simp] theorem State.track_brs : (st.track x).brs = st.brs := rfl
@[simp] theorem State.track_out : (st.track x).out = st.out := rfl

end

section
variable (fn s : Nat) (present : Bool)

@[simp] theorem State.freshIsl_pending : (st.freshIsl fn s present).pending = st.pending := rfl
@[simp] theorem State.freshIsl_now : (st.freshIsl fn s present).now = st.now := rfl
@[simp] theorem State.freshIsl_clock : (st.freshIsl fn s present).clock = st.clock := rfl
@[simp] theorem State.freshIsl_fresh : (st.freshIsl fn s present).fresh = st.fresh := rfl
@[simp] theorem State.freshIsl_reply : (st.freshIsl fn s present).reply = st.reply := rfl
@[simp] theorem State.freshIsl_regs : (st.freshIsl fn s present).regs = st.regs := rfl
@[simp] theorem State.freshIsl_latches : (st.freshIsl fn s present).latches = st.latches := rfl
@[simp] theorem State.freshIsl_mem : (st.freshIsl fn s present).mem = st.mem := rfl
@[simp] theorem State.freshIsl_poison : (st.freshIsl fn s present).poison = st.poison := rfl
@[simp] theorem State.freshIsl_flipped : (st.freshIsl fn s present).flipped = st.flipped := rfl
@[simp] theorem State.freshIsl_fields : (st.freshIsl fn s present).fields = st.fields := rfl
@[simp] theorem State.freshIsl_cores : (st.freshIsl fn s present).cores = st.cores := rfl
@[simp] theorem State.freshIsl_kvl : (st.freshIsl fn s present).kvl = st.kvl := rfl
@[simp] theorem State.freshIsl_snp : (st.freshIsl fn s present).snp = st.snp := rfl
@[simp] theorem State.freshIsl_isl : (st.freshIsl fn s present).isl =
    tput {} st.isl (fn * 4 + s) (if present then { rstLow := false } else {}) := rfl
@[simp] theorem State.freshIsl_leases : (st.freshIsl fn s present).leases = st.leases := rfl
@[simp] theorem State.freshIsl_mesh : (st.freshIsl fn s present).mesh = st.mesh := rfl
@[simp] theorem State.freshIsl_host : (st.freshIsl fn s present).host = st.host := rfl
@[simp] theorem State.freshIsl_car : (st.freshIsl fn s present).car = st.car := rfl
@[simp] theorem State.freshIsl_brs : (st.freshIsl fn s present).brs = st.brs := rfl
@[simp] theorem State.freshIsl_out : (st.freshIsl fn s present).out = st.out := rfl

end

section
variable (tag : Nat)

@[simp] theorem State.dropSent_pending : (st.dropSent tag).pending = st.pending := rfl
@[simp] theorem State.dropSent_now : (st.dropSent tag).now = st.now := rfl
@[simp] theorem State.dropSent_clock : (st.dropSent tag).clock = st.clock := rfl
@[simp] theorem State.dropSent_fresh : (st.dropSent tag).fresh = st.fresh := rfl
@[simp] theorem State.dropSent_reply : (st.dropSent tag).reply = st.reply := rfl
@[simp] theorem State.dropSent_regs : (st.dropSent tag).regs = st.regs := rfl
@[simp] theorem State.dropSent_latches : (st.dropSent tag).latches = st.latches := rfl
@[simp] theorem State.dropSent_mem : (st.dropSent tag).mem = st.mem := rfl
@[simp] theorem State.dropSent_poison : (st.dropSent tag).poison = st.poison := rfl
@[simp] theorem State.dropSent_flipped : (st.dropSent tag).flipped = st.flipped := rfl
@[simp] theorem State.dropSent_fields : (st.dropSent tag).fields = st.fields := rfl
@[simp] theorem State.dropSent_cores : (st.dropSent tag).cores = st.cores := rfl
@[simp] theorem State.dropSent_kvl : (st.dropSent tag).kvl = st.kvl := rfl
@[simp] theorem State.dropSent_snp : (st.dropSent tag).snp = st.snp := rfl
@[simp] theorem State.dropSent_isl : (st.dropSent tag).isl = st.isl := rfl
@[simp] theorem State.dropSent_leases : (st.dropSent tag).leases = st.leases := rfl
@[simp] theorem State.dropSent_mesh : (st.dropSent tag).mesh =
    { st.mesh with sent := st.mesh.sent.filter (fun x => x.tag ≠ tag) } := rfl
@[simp] theorem State.dropSent_host : (st.dropSent tag).host = st.host := rfl
@[simp] theorem State.dropSent_car : (st.dropSent tag).car = st.car := rfl
@[simp] theorem State.dropSent_brs : (st.dropSent tag).brs = st.brs := rfl
@[simp] theorem State.dropSent_out : (st.dropSent tag).out = st.out := rfl

end

section
variable (off hi lo n : Nat)

@[simp] theorem State.wf_pending : (st.wf off hi lo n).pending = st.pending := rfl
@[simp] theorem State.wf_now : (st.wf off hi lo n).now = st.now := rfl
@[simp] theorem State.wf_clock : (st.wf off hi lo n).clock = st.clock := rfl
@[simp] theorem State.wf_fresh : (st.wf off hi lo n).fresh = st.fresh := rfl
@[simp] theorem State.wf_reply : (st.wf off hi lo n).reply = st.reply := rfl
@[simp] theorem State.wf_latches : (st.wf off hi lo n).latches = st.latches := rfl
@[simp] theorem State.wf_mem : (st.wf off hi lo n).mem = st.mem := rfl
@[simp] theorem State.wf_poison : (st.wf off hi lo n).poison = st.poison := rfl
@[simp] theorem State.wf_flipped : (st.wf off hi lo n).flipped = st.flipped := rfl
@[simp] theorem State.wf_fields : (st.wf off hi lo n).fields = st.fields := rfl
@[simp] theorem State.wf_cores : (st.wf off hi lo n).cores = st.cores := rfl
@[simp] theorem State.wf_kvl : (st.wf off hi lo n).kvl = st.kvl := rfl
@[simp] theorem State.wf_snp : (st.wf off hi lo n).snp = st.snp := rfl
@[simp] theorem State.wf_isl : (st.wf off hi lo n).isl = st.isl := rfl
@[simp] theorem State.wf_leases : (st.wf off hi lo n).leases = st.leases := rfl
@[simp] theorem State.wf_mesh : (st.wf off hi lo n).mesh = st.mesh := rfl
@[simp] theorem State.wf_host : (st.wf off hi lo n).host = st.host := rfl
@[simp] theorem State.wf_car : (st.wf off hi lo n).car = st.car := rfl
@[simp] theorem State.wf_brs : (st.wf off hi lo n).brs = st.brs := rfl
@[simp] theorem State.wf_out : (st.wf off hi lo n).out = st.out := rfl

end

section
variable (off b : Nat)

@[simp] theorem State.setb_pending : (st.setb off b).pending = st.pending := rfl
@[simp] theorem State.setb_now : (st.setb off b).now = st.now := rfl
@[simp] theorem State.setb_clock : (st.setb off b).clock = st.clock := rfl
@[simp] theorem State.setb_fresh : (st.setb off b).fresh = st.fresh := rfl
@[simp] theorem State.setb_reply : (st.setb off b).reply = st.reply := rfl
@[simp] theorem State.setb_latches : (st.setb off b).latches = st.latches := rfl
@[simp] theorem State.setb_mem : (st.setb off b).mem = st.mem := rfl
@[simp] theorem State.setb_poison : (st.setb off b).poison = st.poison := rfl
@[simp] theorem State.setb_flipped : (st.setb off b).flipped = st.flipped := rfl
@[simp] theorem State.setb_fields : (st.setb off b).fields = st.fields := rfl
@[simp] theorem State.setb_cores : (st.setb off b).cores = st.cores := rfl
@[simp] theorem State.setb_kvl : (st.setb off b).kvl = st.kvl := rfl
@[simp] theorem State.setb_snp : (st.setb off b).snp = st.snp := rfl
@[simp] theorem State.setb_isl : (st.setb off b).isl = st.isl := rfl
@[simp] theorem State.setb_leases : (st.setb off b).leases = st.leases := rfl
@[simp] theorem State.setb_mesh : (st.setb off b).mesh = st.mesh := rfl
@[simp] theorem State.setb_host : (st.setb off b).host = st.host := rfl
@[simp] theorem State.setb_car : (st.setb off b).car = st.car := rfl
@[simp] theorem State.setb_brs : (st.setb off b).brs = st.brs := rfl
@[simp] theorem State.setb_out : (st.setb off b).out = st.out := rfl

end

section
variable (off b : Nat)

@[simp] theorem State.clrb_pending : (st.clrb off b).pending = st.pending := rfl
@[simp] theorem State.clrb_now : (st.clrb off b).now = st.now := rfl
@[simp] theorem State.clrb_clock : (st.clrb off b).clock = st.clock := rfl
@[simp] theorem State.clrb_fresh : (st.clrb off b).fresh = st.fresh := rfl
@[simp] theorem State.clrb_reply : (st.clrb off b).reply = st.reply := rfl
@[simp] theorem State.clrb_latches : (st.clrb off b).latches = st.latches := rfl
@[simp] theorem State.clrb_mem : (st.clrb off b).mem = st.mem := rfl
@[simp] theorem State.clrb_poison : (st.clrb off b).poison = st.poison := rfl
@[simp] theorem State.clrb_flipped : (st.clrb off b).flipped = st.flipped := rfl
@[simp] theorem State.clrb_fields : (st.clrb off b).fields = st.fields := rfl
@[simp] theorem State.clrb_cores : (st.clrb off b).cores = st.cores := rfl
@[simp] theorem State.clrb_kvl : (st.clrb off b).kvl = st.kvl := rfl
@[simp] theorem State.clrb_snp : (st.clrb off b).snp = st.snp := rfl
@[simp] theorem State.clrb_isl : (st.clrb off b).isl = st.isl := rfl
@[simp] theorem State.clrb_leases : (st.clrb off b).leases = st.leases := rfl
@[simp] theorem State.clrb_mesh : (st.clrb off b).mesh = st.mesh := rfl
@[simp] theorem State.clrb_host : (st.clrb off b).host = st.host := rfl
@[simp] theorem State.clrb_car : (st.clrb off b).car = st.car := rfl
@[simp] theorem State.clrb_brs : (st.clrb off b).brs = st.brs := rfl
@[simp] theorem State.clrb_out : (st.clrb off b).out = st.out := rfl

end

section
variable (off n : Nat)

@[simp] theorem State.wn_pending : (st.wn off n).pending = st.pending := rfl
@[simp] theorem State.wn_now : (st.wn off n).now = st.now := rfl
@[simp] theorem State.wn_clock : (st.wn off n).clock = st.clock := rfl
@[simp] theorem State.wn_fresh : (st.wn off n).fresh = st.fresh := rfl
@[simp] theorem State.wn_reply : (st.wn off n).reply = st.reply := rfl
@[simp] theorem State.wn_latches : (st.wn off n).latches = st.latches := rfl
@[simp] theorem State.wn_mem : (st.wn off n).mem = st.mem := rfl
@[simp] theorem State.wn_poison : (st.wn off n).poison = st.poison := rfl
@[simp] theorem State.wn_flipped : (st.wn off n).flipped = st.flipped := rfl
@[simp] theorem State.wn_fields : (st.wn off n).fields = st.fields := rfl
@[simp] theorem State.wn_cores : (st.wn off n).cores = st.cores := rfl
@[simp] theorem State.wn_kvl : (st.wn off n).kvl = st.kvl := rfl
@[simp] theorem State.wn_snp : (st.wn off n).snp = st.snp := rfl
@[simp] theorem State.wn_isl : (st.wn off n).isl = st.isl := rfl
@[simp] theorem State.wn_leases : (st.wn off n).leases = st.leases := rfl
@[simp] theorem State.wn_mesh : (st.wn off n).mesh = st.mesh := rfl
@[simp] theorem State.wn_host : (st.wn off n).host = st.host := rfl
@[simp] theorem State.wn_car : (st.wn off n).car = st.car := rfl
@[simp] theorem State.wn_brs : (st.wn off n).brs = st.brs := rfl
@[simp] theorem State.wn_out : (st.wn off n).out = st.out := rfl

end

section
variable (off hi lo n : Nat)

@[simp] theorem State.add_pending : (st.add off hi lo n).pending = st.pending := rfl
@[simp] theorem State.add_now : (st.add off hi lo n).now = st.now := rfl
@[simp] theorem State.add_clock : (st.add off hi lo n).clock = st.clock := rfl
@[simp] theorem State.add_fresh : (st.add off hi lo n).fresh = st.fresh := rfl
@[simp] theorem State.add_reply : (st.add off hi lo n).reply = st.reply := rfl
@[simp] theorem State.add_latches : (st.add off hi lo n).latches = st.latches := rfl
@[simp] theorem State.add_mem : (st.add off hi lo n).mem = st.mem := rfl
@[simp] theorem State.add_poison : (st.add off hi lo n).poison = st.poison := rfl
@[simp] theorem State.add_flipped : (st.add off hi lo n).flipped = st.flipped := rfl
@[simp] theorem State.add_fields : (st.add off hi lo n).fields = st.fields := rfl
@[simp] theorem State.add_cores : (st.add off hi lo n).cores = st.cores := rfl
@[simp] theorem State.add_kvl : (st.add off hi lo n).kvl = st.kvl := rfl
@[simp] theorem State.add_snp : (st.add off hi lo n).snp = st.snp := rfl
@[simp] theorem State.add_isl : (st.add off hi lo n).isl = st.isl := rfl
@[simp] theorem State.add_leases : (st.add off hi lo n).leases = st.leases := rfl
@[simp] theorem State.add_mesh : (st.add off hi lo n).mesh = st.mesh := rfl
@[simp] theorem State.add_host : (st.add off hi lo n).host = st.host := rfl
@[simp] theorem State.add_car : (st.add off hi lo n).car = st.car := rfl
@[simp] theorem State.add_brs : (st.add off hi lo n).brs = st.brs := rfl
@[simp] theorem State.add_out : (st.add off hi lo n).out = st.out := rfl

end

section
variable (off hi lo n : Nat)

@[simp] theorem State.addSat_pending : (st.addSat off hi lo n).pending = st.pending := rfl
@[simp] theorem State.addSat_now : (st.addSat off hi lo n).now = st.now := rfl
@[simp] theorem State.addSat_clock : (st.addSat off hi lo n).clock = st.clock := rfl
@[simp] theorem State.addSat_fresh : (st.addSat off hi lo n).fresh = st.fresh := rfl
@[simp] theorem State.addSat_reply : (st.addSat off hi lo n).reply = st.reply := rfl
@[simp] theorem State.addSat_latches : (st.addSat off hi lo n).latches = st.latches := rfl
@[simp] theorem State.addSat_mem : (st.addSat off hi lo n).mem = st.mem := rfl
@[simp] theorem State.addSat_poison : (st.addSat off hi lo n).poison = st.poison := rfl
@[simp] theorem State.addSat_flipped : (st.addSat off hi lo n).flipped = st.flipped := rfl
@[simp] theorem State.addSat_fields : (st.addSat off hi lo n).fields = st.fields := rfl
@[simp] theorem State.addSat_cores : (st.addSat off hi lo n).cores = st.cores := rfl
@[simp] theorem State.addSat_kvl : (st.addSat off hi lo n).kvl = st.kvl := rfl
@[simp] theorem State.addSat_snp : (st.addSat off hi lo n).snp = st.snp := rfl
@[simp] theorem State.addSat_isl : (st.addSat off hi lo n).isl = st.isl := rfl
@[simp] theorem State.addSat_leases : (st.addSat off hi lo n).leases = st.leases := rfl
@[simp] theorem State.addSat_mesh : (st.addSat off hi lo n).mesh = st.mesh := rfl
@[simp] theorem State.addSat_host : (st.addSat off hi lo n).host = st.host := rfl
@[simp] theorem State.addSat_car : (st.addSat off hi lo n).car = st.car := rfl
@[simp] theorem State.addSat_brs : (st.addSat off hi lo n).brs = st.brs := rfl
@[simp] theorem State.addSat_out : (st.addSat off hi lo n).out = st.out := rfl

end

end Sys2Proof.Machine
end

