-- ==== Sys2Proof/WellFormed.lean ====
section
/-! DEFINITION. Which commands are well formed: operands within the ranges the spec gives their numbers. Nothing refuses an
ill-formed command; every meaning is total (log 34). -/

namespace Sys2Proof

/-- A party that exists (R16, R444): VFs 1 to 16, tellers 0 to 3, islands of slots 0 to 3. -/
def Who.wf : Who → Bool
  | .pf0 | .bursar | .smbus => true
  | .vf n => decide (1 ≤ n ∧ n ≤ 16)
  | .teller fn t => Config.sitePresent fn && decide (t < 4)
  | .island fn s => Config.sitePresent fn && decide (s < 4)

/-- A queue item: whole slots of 64 bytes, at most 16, of a work or management queue (R492, R493). -/
def Item.wf (it : Item) : Bool :=
  decide (it.queue < 4112 ∧ 0 < it.bytes.length ∧ it.bytes.length % 64 = 0 ∧ it.bytes.length ≤ 1024)

/-- A mesh message: a kind of four bits and at most 32 whole data flits of 64 bytes (R376, R377). -/
def Msg.wf (m : Msg) : Bool :=
  decide (m.kind < 16 ∧ m.data.length % 64 = 0 ∧ m.data.length ≤ 2048 ∧ m.dst < 2 ^ 48 ∧ m.srcFn < 256)

/-- A stage of a core: rows 0 to 31, columns 0 to 31 and the checksum column (R204). -/
def Stage.wf : Stage → Bool
  | .gen r | .row r => decide (r < 32)
  | .tree c | .accum c => decide (c < 33)
  | _ => true

/-- Whether an integer fits a signed field of `w` bits. -/
def signedIn (w : Nat) (z : Int) : Bool := decide (-(2 ^ (w - 1) : Int) ≤ z ∧ z < 2 ^ (w - 1))

/-- A reading that FLD_RAIL_SENSE can hold (R622). -/
def RailReading.wf (r : RailReading) : Bool :=
  decide (r.volt < 2 ^ 16 ∧ r.curr < 2 ^ 16 ∧ r.power < 2 ^ 16) && signedIn 16 r.tj

/-- Whether the operands of a command lie in their ranges. -/
def Instr.wf : Instr → Bool
  | .registerWrite who _ _ value => who.wf && decide (value < 2 ^ 64)
  | .lowWordRead who _ _ => who.wf
  | .lowWordWrite who _ value => who.wf && decide (value < 2 ^ 32)
  | .highWordWrite who _ value => who.wf && decide (value < 2 ^ 32)
  | .powerUp straps _ => decide (straps < 16)
  | .sequencingStep => true
  | .timebaseJoin fn => Config.sitePresent fn
  | .timebaseJoinFailure fn => Config.sitePresent fn
  | .switchOffStep => true
  | .entrySample vin iin => decide (vin < 2 ^ 16) && decide (iin < 2 ^ 16)
  | .emergencyPowerDown => true
  | .carrierTrip => true
  | .tripRecovery => true
  | .refClockLost => true
  | .refClockRestored => true
  | .linkSyncExchange fn offset => Config.sitePresent fn && signedIn 32 offset
  | .lockLoss fn => Config.sitePresent fn
  | .recouple it _ => it.wf
  | .captureEdge fn input _ => Config.sitePresent fn && decide (input < 8)
  | .captureRead who fn input => who.wf && decide (fn < 100) && decide (input < 8)
  | .beat fn s stage => Config.sitePresent fn && decide (s < 4) && stage.wf
  | .beatmonWindowEnd fn _ => Config.sitePresent fn
  | .beatmonCtlWrite who fn value => who.wf && decide (fn < 100) && decide (value < 2 ^ 32)
  | .paceStep fn r => Config.sitePresent fn && r.wf
  | .paceMarkArrival fn m => Config.sitePresent fn && m.wf
  | .pacePolicyWrite who fn _ value => who.wf && decide (fn < 100) && decide (value < 2 ^ 64)
  | .partPolicyWrite who p value => who.wf && decide (p < 16) && decide (value < 2 ^ 32)
  | .thermalTrip fn tj => Config.sitePresent fn && signedIn 16 tj
  | .paceFault fn => Config.sitePresent fn
  | .chaffGap fn s feeder => Config.sitePresent fn && decide (s < 4) && decide (feeder < 96)
  | .rampDownStart fn s feeder => Config.sitePresent fn && decide (s < 4) && decide (feeder < 96)
  | .rampEntryAdvance fn s feeder => Config.sitePresent fn && decide (s < 4) && decide (feeder < 96)
  | .rampUpStart fn s feeder => Config.sitePresent fn && decide (s < 4) && decide (feeder < 96)
  | .plimitWrite who fn value => who.wf && decide (fn < 100) && decide (value < 2 ^ 32)
  | .chaffCtlWrite who fn n value => who.wf && decide (fn < 100) && decide (n < 4) && decide (value < 2 ^ 32)
  | .retainDrainTimeout p => decide (p < 16)
  | .partStart it => it.wf
  | .partStop it => it.wf
  | .partRetain it => it.wf
  | .partWake it => it.wf
  | .partReset it => it.wf
  | .loadSlot it => it.wf
  | .loadBitstream it _ => it.wf
  | .loadPartial it _ => it.wf
  | .fieldFramesWrite fn failure => Config.sitePresent fn && decide (failure < 256)
  | .transitFieldWrite fn failure => Config.sitePresent fn && decide (failure < 256)
  | .scrubFrame fn _ _ => Config.sitePresent fn
  | .cfgRepairComplete fn _ => Config.sitePresent fn
  | .nop fn s _ => Config.sitePresent fn && decide (s < 4)
  | .loadW fn s _ => Config.sitePresent fn && decide (s < 4)
  | .run fn s _ => Config.sitePresent fn && decide (s < 4)
  | .mint fn s _ => Config.sitePresent fn && decide (s < 4)
  | .mv fn s _ => Config.sitePresent fn && decide (s < 4)
  | .push fn s _ => Config.sitePresent fn && decide (s < 4)
  | .paceMark fn s _ => Config.sitePresent fn && decide (s < 4)
  | .rampUp fn s _ => Config.sitePresent fn && decide (s < 4)
  | .signal fn s _ => Config.sitePresent fn && decide (s < 4)
  | .wait fn s _ => Config.sitePresent fn && decide (s < 4)
  | .commandIssue fn s => Config.sitePresent fn && decide (s < 4)
  | .latchWindow fn s => Config.sitePresent fn && decide (s < 4)
  | .escapeTableLoad fn s => Config.sitePresent fn && decide (s < 4)
  | .commandRetirement fn s cls => Config.sitePresent fn && decide (s < 4) && decide (cls < 6)
  | .waitTimeout fn s => Config.sitePresent fn && decide (s < 4)
  | .flush who fn s => who.wf && decide (fn < 100) && decide (s < 4)
  | .resume who fn s => who.wf && decide (fn < 100) && decide (s < 4)
  | .retireRead who fn s => who.wf && decide (fn < 100) && decide (s < 4)
  | .groupGate fn s group => Config.sitePresent fn && decide (s < 4) && decide (group < 64)
  | .gleanClear who fn s => who.wf && decide (fn < 100) && decide (s < 4)
  | .gleanBinRead who fn s => who.wf && decide (fn < 100) && decide (s < 4)
  | .csDiag who fn s => who.wf && decide (fn < 100) && decide (s < 4)
  | .csClear who fn s => who.wf && decide (fn < 100) && decide (s < 4)
  | .columnRetirement fn s => Config.sitePresent fn && decide (s < 4)
  | .tellerWatchdogCheck fn beats stuck =>
    Config.sitePresent fn && decide (beats.length ≤ 4) && stuck.all (fun t => decide (t < 3))
  | .housekeeperHang fn => Config.sitePresent fn
  | .housekeeperHeartbeat fn => Config.sitePresent fn
  | .bursarStrobe _ => true
  | .anchorFailover _ => true
  | .watchdogModuleReset => true
  | .leaseRevoke i => decide (i < 4096)
  | .leaseHiRead who => who.wf
  | .mirrorResync => true
  | .cacheShareChange who fn s value => who.wf && decide (fn < 100) && decide (s < 4) && decide (value < 2 ^ 32)
  | .patrolRead fn => Config.sitePresent fn
  | .clearConflicts who fn s => who.wf && decide (fn < 100) && decide (s < 4)
  | .messageRoute _ => true
  | .linkReplay fn port => Config.sitePresent fn && decide (port < 4)
  | .linkFailure fn port => Config.sitePresent fn && decide (port < 4)
  | .routeCommit => true
  | .routeSwitch => true
  | .routeDrainTimeout => true
  | .routeDrainDone => true
  | .deposit m => m.wf
  | .ack m => m.wf
  | .nak m => m.wf
  | .grant m => m.wf
  | .close m => m.wf
  | .scrip m => m.wf
  | .pushMessage fn s => Config.sitePresent fn && decide (s < 4)
  | .ackTimeout tag => decide (tag < 2 ^ 16)
  | .linkReset who port => who.wf && decide (port < 8)
  | .signalDetected port => decide (port < 8)
  | .levelLock port => decide (port < 8)
  | .codewordLock port laneMap polarity => decide (port < 8) && decide (laneMap < 256) && decide (polarity < 16)
  | .trainTimeout port => decide (port < 8)
  | .resetStateEnd port _ => decide (port < 8)
  | .lossOfSignal port => decide (port < 8)
  | .codewordLockLoss port _ => decide (port < 8)
  | .idle port _ => decide (port < 8)
  | .lack port _ => decide (port < 8)
  | .lnak port _ => decide (port < 8)
  | .credit port _ _ => decide (port < 8)
  | .ident port flags _ _ _ _ _ => decide (port < 8) && decide (flags < 256)
  | .resetUnit port cause => decide (port < 8) && decide (cause < 256)
  | .replay port _ => decide (port < 8)
  | .kvlFrame port _ _ _ m _ _ => decide (port < 8) && m.wf
  | .lackTimer port => decide (port < 8)
  | .replayTimeout port => decide (port < 8)
  | .lnakRetry port => decide (port < 8)
  | .bar2Write n _ data => decide (1 ≤ n ∧ n ≤ 16) && decide (data.length ≤ 4096)
  | .bar2Read n _ _ => decide (1 ≤ n ∧ n ≤ 16)
  | .doorbell who _ _ value => who.wf && decide (value < 2 ^ 64)
  | .doorbellForward n => decide (1 ≤ n ∧ n ≤ 16)
  | .vfFlr n => decide (1 ≤ n ∧ n ≤ 16)
  | .pf0Flr => true
  | .perst => true
  | .hostLinkDown => true
  | .hostLinkUp _ _ funcs _ _ _ => funcs.all (fun e => decide (e.1 ≤ 16))
  | .registerReadTimeout who _ => who.wf
  | .msixPendingSend func _ _ => decide (func ≤ 16)
  | .poisonedTlp _ tag => decide (tag < 2 ^ 16)
  | .itemStart queue => decide (queue < 4112)
  | .itemComplete _ => true
  | .haltResponse fn s => Config.sitePresent fn && decide (s < 4)
  | .itemWaitTimeout queue => decide (queue < 4112)
  | .itemNop it => it.wf
  | .core it => it.wf
  | .copyOut it => it.wf
  | .fetch it => it.wf
  | .winOpen it => it.wf
  | .winClose it => it.wf
  | .scripReturn it => it.wf
  | .leaseGranule it => it.wf
  | .objectSet it => it.wf
  | .clearRetired it => it.wf
  | .storeImage it _ _ => it.wf
  | .setBoot it _ => it.wf
  | .storeFirmware it _ _ => it.wf
  | .revokeKey it _ => it.wf
  | .raiseSvn it _ => it.wf
  | .moduleReset it => it.wf
  | .queueFlush who queue => who.wf && decide (queue < 4112)
  | .queueEnable who _ value => who.wf && decide (value < 2 ^ 32)
  | .contextResume who p c => who.wf && decide (p < 16) && decide (c < 64)
  | .cqHeadWrite who ctx value => who.wf && decide (ctx < 4112) && decide (value < 2 ^ 32)
  | .eventHeadWrite who func value => who.wf && decide (func ≤ 16) && decide (value < 2 ^ 32)
  | .eventRouteCommit who func => who.wf && decide (func ≤ 16)
  | .tsignal m => m.wf
  | .tack m => m.wf
  | .twait m => m.wf
  | .twake m => m.wf
  | .tallyValueWrite who i value => who.wf && decide (i < 1024) && decide (value < 2 ^ 64)
  | .tallyStatWrite who i value => who.wf && decide (i < 1024) && decide (value < 2 ^ 64)
  | .snpFrame port _ dataIn _ => decide (port < 8) && dataIn.all (fun x => decide (x < 2 ^ 64))
  | .snpRecordClose port r => decide (port < 8) && decide (r < 2)
  | .snpStart who port => who.wf && decide (port < 8)
  | .snpStop who port => who.wf && decide (port < 8)
  | .snpFlush who port => who.wf && decide (port < 8)
  | .snpClockLoss port cause => decide (port < 8) && decide (cause < 256)
  | .snpZcTimeout port slot => decide (port < 8) && decide (slot < 32)
  | .snpOgainWrite who port slot value => who.wf && decide (port < 8) && decide (slot < 32) && decide (value < 2 ^ 32)
  | .snpCfgWrite who port value => who.wf && decide (port < 8) && decide (value < 2 ^ 64)
  | .snpOrouteWrite who port r value => who.wf && decide (port < 8) && decide (r < 2) && decide (value < 2 ^ 64)
  | .islUserAccess who fn s i _ value => who.wf && decide (fn < 100) && decide (s < 4) && decide (i < 256) && decide (value < 2 ^ 32)
  | .islRegTimeout fn s _ => Config.sitePresent fn && decide (s < 4)
  | .islandAttn fn s => Config.sitePresent fn && decide (s < 4)
  | .pfInWord fn s word => Config.sitePresent fn && decide (s < 4) && word.all (fun x => decide (x < 2 ^ 64))
  | .ssReq fn s word => Config.sitePresent fn && decide (s < 4) && word.all (fun x => decide (x < 2 ^ 64))
  | .utxRxWord lane _ => decide (lane < 32)
  | .islandReset who fn s _ => who.wf && decide (fn < 100) && decide (s < 4)
  | .tapFlush who fn s => who.wf && decide (fn < 100) && decide (s < 4)
  | .rstN => true
  | .tapReset => true
  | .extest _ => true
  | .idcode => true
  | .samplePreload _ _ => true
  | .highz => true
  | .clamp => true
  | .extestPulse _ => true
  | .extestTrain _ => true
  | .bypass => true
  | .smbIdent => true
  | .smbEntry => true
  | .smbStatus => true
  | .smbTemp => true
  | .regOffset _ => true
  | .regRead => true
  | .alertAck => true
  | .alertResponse => true
  | .pmbusPoll fn _ _ => Config.sitePresent fn
  | .gpioWrite who value => who.wf && decide (value < 2 ^ 32)
  | .rstNRelease => true
  | .completionTlp tag _ _ data => decide (tag < 2 ^ 16) && decide (data.length ≤ 4096)
  | .snpIrouteWrite who port r value => who.wf && decide (port < 8) && decide (r < 2) && decide (value < 2 ^ 64)
  | .islRegRsp fn s word => Config.sitePresent fn && decide (s < 4) && word.all (fun x => decide (x < 2 ^ 64))
  | .utxTxWord lane _ => decide (lane < 32)
  | .identTimer port => decide (port < 8)
  | .trainBackoffEnd port => decide (port < 8)
  | .windowLeaseRelease _ _ => true
  | .kvlEnableWrite who port => who.wf && decide (port < 8)

end Sys2Proof
end

