-- ==== Sys2Proof/Tests/Slice0.lean ====
section
/-! SUPPORT. The model's own tests: ill-formed operands refused, worked examples of the spec, and for every statement a concrete
state and operands that meet its hypotheses. -/

namespace Sys2Proof.Tests

set_option Elab.async false

open Machine

/-- A field that is FULL, joined and owned by partition 0. -/
def W.field : FieldSt := { power := .full, joined := true, hkUp := true, listed := true, part := 0, routes := true }

/-- A public key: the base point of the curve, whose private key is 1. -/
def W.pub : List Byte := beBytes 48 ecG.x ++ beBytes 48 ecG.y

/-- The signature block, under that key with nonce 1, of a message whose SHA-384 is `hash` (FIPS 186: r is the base point's X, s
is hash plus r). The hashes here were worked out with a SHA-384 from outside the model. -/
def W.sign (hash : Nat) : List Byte :=
  W.pub ++ beBytes 48 (ecG.x % ecN) ++ beBytes 48 ((hash + ecG.x) % ecN)

/-- SHA-384 of the public key. -/
def W.pubHash : List Byte := beBytes 48
  0xa19d4db171b582eb8052b0cfe555e17894aa22d1c8a9770950697dd8f796d2fa4bf0a56ad80006b7ea08e1191f814b65

/-- Configuration space of a function that may issue requests. -/
def W.func : FuncCfg := { FuncCfg.init with busMaster := true, msixEnable := true }

/-- A machine in service: anchor F44 and standby F55, partition 0 ON with fields 44, 45 and 55, a core in slot 0 of F44 and
F45, the host link up. -/
def W.up : State :=
  let s : State := { State.reset with
    clock := true, now := 1000000, fields := [(44, W.field), (45, W.field), (55, W.field)],
    car := { State.reset.car with
      entryUp := true, railsOn := true, regulator := [44, 45, 55],
      fuses := { State.reset.car.fuses with keyDigest := [(0, W.pubHash)], fwDigest := W.pubHash } },
    brs := { State.reset.brs with running := true, carve := [(44 * 12 + 11, 0)], fields := [(44, 0, 0xFF), (45, 0, 0xFF)],
                                  parts := [(0, { defined := true, contexts := 4, queues := 4, blocks := 1 })] },
    host := { State.reset.host with linkUp := true, perst := false, funcs := [(0, W.func), (1, W.func)], vfEnable := true,
                                    numVfs := 1 } }
  let s := (s.wn Reg.AXB_FIELD_OK_LO (2 ^ 64 - 1)).wn Reg.AXB_FIELD_OK_HI (2 ^ 20 - 1)
  let s := (s.wn Reg.AXB_GRADE (44 * 2 ^ 16 + 55 * 2 ^ 24)).wf (Reg.PWR_PART_STATE 0) 2 0 2
  let s := ((s.setb Reg.AXB_CFG_STATUS 8).setb Reg.HST_READY 0).wn Reg.AXB_REVISION 0x01010106
  let core (s : State) (fn : Nat) : State :=
    (s.wn (Reg.GZC_SHAPE fn 0) (2 ^ 31 + 16 + 16 * 2 ^ 8 + 256 * 2 ^ 32)).wn (Reg.GZC_SHAPE2 fn 0) (1024 * 2 ^ 48 + 2)
  let tel (s : State) (fn : Nat) : State :=
    (s.wf (Reg.FLD_TELLER_STATUS fn 0) 34 32 2).wf (Reg.TBS_STATUS fn) 2 0 2
  tel (tel (tel (core (core s 44) 45) 44) 45) 55

/-- The command answers a next state that passes the test `f`. -/
def W.answers (o : Host.Outcome State Fault Refusal) (f : State → Bool) : Bool :=
  match o with
  | .next t => f t
  | _ => false

/-- A work item of queue 1 of partition 0 with nothing but its opcode. -/
def W.bare (op : Nat) : Item := { queue := 1, pos := 0, epoch := 0, bytes := BitVec.ofNat 8 op :: List.replicate 63 0 }

/-- `it` with bytes written from `off` on. -/
def W.put (it : Item) (off : Nat) (bs : List Nat) : Item :=
  { it with bytes := it.bytes.take off ++ bs.map (BitVec.ofNat 8) ++ it.bytes.drop (off + bs.length) }

/-- The same item in management queue 0. -/
def W.mgmt (it : Item) : Item := { it with queue := 4096 }

/-- An item started in slot 0 of F44. -/
def W.started (it : Item) : Started := { num := 1, item := it, fn := 44, slot := 0 }

def W.item (it : Item) : State := { W.up with host := { W.up.host with started := [W.started it] } }

def W.withWindow (s : State) (key w : Nat) (x : Window) : State := s.setWindow key w x

def W.withObject (s : State) (i : Nat) (o : Obj) : State := s.setObj 0 i o

/-- The bytes that pieces at rising offsets make up, those that are not 0. -/
def W.laid (l : List (Nat × List Nat)) : List (Nat × Byte) :=
  l.flatMap (fun e => (e.2.zipIdx.filter (fun b => b.1 ≠ 0)).map (fun b => (e.1 + b.2, BitVec.ofNat 8 b.1)))

/-- SHA-384 of the empty string (FIPS 180-4). -/
def W.emptyHash : List Byte := beBytes 48
  0x38b060a751ac96384cd9327eb1b1e36a21fdb71114be07434c0cc7bf63f6e1da274edebfe76f65fbd51ad2f14898b95b

/-- The header of an image of `n` sections whose signature stands at `sig`, for partition `part` on build `base`. -/
def W.header (n sig kind part base : Nat) : List (Nat × List Nat) :=
  let d (w v : Nat) : List Nat := (List.range w).map (fun k => v / 256 ^ k % 256)
  [(0, d 4 0x4B425A47), (4, [1]), (6, [kind]), (8, [1]), (0x10, [base]), (0x18, d 4 Config.ident), (0x1C, [5, 1, 1]),
    (0x24, d 2 n), (0x26, [part]), (0x28, [128]), (0x2C, d 4 sig), (0x30, d 8 (sig + 192))]

/-- An image with the given pieces, signed at `sig` over bytes with hash `h`. -/
def W.signed (sig h : Nat) (l : List (Nat × List Nat)) : Image :=
  { size := sig + 192, bytes := W.laid (l ++ [(sig, (W.sign h).map (·.toNat))]) }

/-- The smallest image that passes the header, directory and key checks: one empty FIELDS section, its digest left zero. -/
def W.image : Image :=
  W.signed 256 0xa0f772732052b7150f53e11ab9ca1467954d678dbfcfe4205b5f3ba401e48368a5e087592fcefa171f5f5d29c0925981
    (W.header 1 256 1 0xFF 0 ++ [(128, [1]), (130, [0xFF]), (137, [1])])

/-- The smallest firmware image: an empty body of SERIES 1. -/
def W.firmware : FwImage :=
  { bytes := [0x47, 0x5A, 0x57, 0x46, 1, 0, 0, 0] ++ List.replicate 8 0 ++ W.emptyHash ++ List.replicate 192 0 ++
      W.sign 0x8ea93150e2add63e3ed8f376609c6e9b9ed70f40a1da39a459c7e74e391f13d104e1f2ee055fcf20b6eb2cafdbd6c584 }

/-- Core 0 of F44 changed by `f`. -/
def W.core (f : CoreSt → CoreSt) : State := W.up.setCore 44 0 (f (W.up.core 44 0))

/-- A command of opcode `op`, first in its order. -/
def W.cmd (op : Nat) : Cmd := { num := 1, w := ⟨BitVec.ofNat 64 op, 0, 0, 0⟩ }

/-- A LOAD_W with one escape. -/
def W.escLoad : CmdWords := ⟨1, BitVec.ofNat 64 (2 ^ 54), BitVec.ofNat 64 (2 ^ 48 + nearBase 44 0), 0⟩

/-- A frozen vector of an incomplete RUN. -/
def W.frozen : Frozen := { complete := false, index := 0, num := 1, run := (W.cmd 2).w, load := (W.cmd 1).w, xbar := [], acc := [] }

/-- `m` arrived at its unit. -/
def W.arrived (s : State) (m : Msg) : State := { s with mesh := { s.mesh with arrived := [m] } }

/-- `x` waiting for its answer. -/
def W.sent (s : State) (x : Sent) : State := { s with mesh := { s.mesh with sent := [x] } }

/-- A PUSH of 64 bytes from core 0 of F44 to core 0 of F45. -/
def W.push : Cmd :=
  { num := 1, w := ⟨5, BitVec.ofNat 64 (nearBase 44 0), BitVec.ofNat 64 (nearBase 45 0), 64⟩ }

/-- A route commit in phase `p`. -/
def W.commit (s : State) (p : Nat) : State :=
  { s with mesh := { s.mesh with commit := some { phase := p, gen := 1, tSwitch := 1000040 } } }

/-- Kevenlink port 7 and sensor port 7, owned by partition 0, in FULL fields. -/
def W.ports : State :=
  let k := Config.kvlField 7
  let n := Config.snpField 7
  { W.up with
    fields := tput {} (tput {} W.up.fields k W.field) n W.field,
    brs := { W.up.brs with fields := (k, 0, 0xFF) :: (n, 0, 0xFF) :: W.up.brs.fields, kvlOwned := [(7, 0, 0)], snpOwned := [7] } }

/-- Kevenlink port 7 in state `n`. -/
def W.kvl (n : Nat) (x : KvlSt) : State := (W.ports.setKvl 7 x).wf (Reg.KVL_STATUS (Config.kvlField 7)) 2 0 n

/-- Sensor port 7 in state `n`. -/
def W.snp (n : Nat) (x : SnpSt) : State := (W.ports.setSnp 7 x).wf (snpReg Reg.SNP_STATUS 7) 2 0 n

/-- An island with all its ports in slot 0 of the field of user transceiver group 7, out of reset. -/
def W.isl (x : IslSt) : State :=
  let fn := Config.utxField 7
  let s := { W.ports with
    fields := tput {} W.ports.fields fn W.field,
    brs := { W.ports.brs with
      fields := (fn, 0, 0xFF) :: W.ports.brs.fields, utxOwned := [7], islFreq := [(fn, 500)],
      islCfg := [(fn * 4, { present := true, attach := 7, regs := 256, utx := 7 })] } }
  s.setIsl fn 0 { x with rstLow := false }

/-- Sensor port 7 in STOPPED with settings that a START accepts. -/
def W.snpOk : State :=
  let s := (W.snp 0 {}).wn (snpReg Reg.SNP_CFG 7) (16 * 2 ^ 20 + 4 * 2 ^ 32)
  { s with leases := [(0, { (s.lease 0) with kind := 5, resource := 7, state := 1, hkind := 3, holder := 0 })] }

/-- Management queue 1, enabled, with one NOP item read from the host. -/
def W.ready : State :=
  let s := W.up.setb (qCfg 4097) 31
  let s := s.wf (qTail 4097) 31 0 1
  s.setQueue 4097 { s.queue 4097 with slots := [(0, List.replicate 64 0)], asked := 1 }

def W.readyItem : Item := { queue := 4097, pos := 0, epoch := 0, bytes := List.replicate 64 0 }

/-- A PARTIAL image for partition 0 on build 1, with an empty LEDGER section. -/
def W.part : Image :=
  W.signed 256 0x6d76c8891b3c6fb63259fb54466e3d987a528d9f10cef069e31194f2e12b60836f848373d79204f8d3d771e7115343de
    (W.header 1 256 2 0 1 ++ [(128, [9]), (130, [0xFF]), (137, [1]), (144, W.emptyHash.map (·.toNat))])

/-- A FULL image of eight empty module sections, their digests left zero: enough for a REBIND. -/
def W.whole : Image :=
  W.signed 640 0x9865a410d4c4e44ec4c27809089b4a232e64f8f2c2398360e0ea22307964247d68831217969920d7ee4b70f5c15c8920
    (W.header 8 640 1 0xFF 0 ++ (([1, 2, 3, 4, 5, 6, 8, 9].zipIdx).flatMap (fun e =>
      [(128 + 64 * e.2, [e.1]), (130 + 64 * e.2, [0xFF]), (136 + 64 * e.2, [0x80, 2])])))

def W.toLoad : ToLoad := { fn := 45, part2 := false }

/-! ## Well-formedness: an ill-formed term for each check, which the check refuses -/

theorem test_wf_accepts : ([.lowWordRead .pf0 0 4, .lowWordWrite (.vf 16) 0 (2 ^ 32 - 1), .powerUp 15 true, .beat 44 3 (.tree 32),
    .beat 2 0 (.row 31), .chaffGap 44 0 95, .groupGate 97 0 63, .leaseRevoke 4095, .ackTimeout 65535, .signalDetected 7,
    .deposit { kind := 1, data := List.replicate 2048 0 }, .itemNop { queue := 4111, pos := 0, epoch := 0, bytes := List.replicate 1024 0 },
    .utxRxWord 31 0, .tallyValueWrite .pf0 1023 0, .snpZcTimeout 7 31, .eventHeadWrite .pf0 16 0] : List Instr).all Instr.wf = true := by
  decide +kernel

theorem test_wf_refuses_parties : ([.lowWordRead (.vf 0) 0 4, .lowWordRead (.vf 17) 0 4, .lowWordRead (.teller 44 4) 0 4,
    .lowWordRead (.teller 0 0) 0 4, .lowWordRead (.island 44 4) 0 4, .bar2Write 17 0 [], .vfFlr 0, .eventHeadWrite .pf0 17 0,
    .msixPendingSend 17 0 FuncCfg.init, .hostLinkUp 5 16 [(17, FuncCfg.init)] true 16 24] : List Instr).any Instr.wf = false := by
  decide +kernel

theorem test_wf_refuses_units : ([.timebaseJoin 0, .timebaseJoin 99, .scrubFrame 100 0 false, .captureRead .pf0 100 0,
    .captureEdge 44 8 false, .nop 44 4 ⟨0, 0, 0, 0⟩, .commandRetirement 44 0 6, .groupGate 44 0 64, .chaffGap 44 0 96,
    .retainDrainTimeout 16, .linkReplay 44 4, .signalDetected 8, .snpRecordClose 0 2, .snpZcTimeout 0 32, .utxRxWord 32 0,
    .leaseRevoke 4096, .contextResume .pf0 0 64, .cqHeadWrite .pf0 4112 0, .tallyValueWrite .pf0 1024 0, .itemStart 4112,
    .islUserAccess .pf0 44 0 256 false 0, .chaffCtlWrite .pf0 44 4 0, .partPolicyWrite .pf0 16 0,
    .tellerWatchdogCheck 44 [0, 0, 0, 0, 0] []] : List Instr).any Instr.wf = false := by
  decide +kernel

theorem test_wf_refuses_stages : ([.beat 44 0 (.gen 32), .beat 44 0 (.row 32), .beat 44 0 (.tree 33), .beat 44 0 (.accum 33),
    .beat 44 4 .mint] : List Instr).any Instr.wf = false := by decide +kernel

theorem test_wf_refuses_values : ([.registerWrite .pf0 0 8 (2 ^ 64), .lowWordWrite .pf0 0 (2 ^ 32), .powerUp 16 true,
    .entrySample 65536 0, .linkSyncExchange 44 (2 ^ 31), .thermalTrip 44 (-(2 ^ 15) - 1), .paceStep 44 ⟨65536, 0, 0, 0⟩,
    .fieldFramesWrite 44 256, .ackTimeout 65536, .poisonedTlp true 65536, .codewordLock 0 256 0, .codewordLock 0 0 16,
    .ident 0 256 0 0 0 0 0, .resetUnit 0 256, .snpClockLoss 0 256, .snpFrame 0 0 [2 ^ 64] 0, .pfInWord 44 0 [2 ^ 64]] : List Instr).any
    Instr.wf = false := by decide +kernel

theorem test_wf_refuses_messages : ([.deposit { kind := 16 }, .ack { kind := 2, data := [0] }, .nak { kind := 3, dst := 2 ^ 48 },
    .grant { kind := 4, srcFn := 256 }, .deposit { kind := 1, data := List.replicate 2112 0 }] : List Instr).any Instr.wf = false := by
  decide +kernel

theorem test_wf_refuses_items : ([.itemNop { queue := 4112, pos := 0, epoch := 0, bytes := List.replicate 64 0 },
    .core { queue := 0, pos := 0, epoch := 0, bytes := [] }, .fetch { queue := 0, pos := 0, epoch := 0, bytes := List.replicate 65 0 },
    .winOpen { queue := 0, pos := 0, epoch := 0, bytes := List.replicate 1088 0 }, .bar2Write 1 0 (List.replicate 4097 0)] : List Instr).any
    Instr.wf = false := by decide +kernel

/-! ## Worked examples of the spec -/

/-- 00, example of R6 and R7: the window of F44 and the near scratchpad of its slot 2. -/
theorem test_addresses : Reg.win 44 = 0x01B00000 ∧ nearBase 44 2 = 0x2C0100800000 := by decide

/-- 00, R9: two offsets that address nothing. -/
theorem test_no_such_address : W.up.addressable (44 * 2 ^ 40 + 0x0C000000) = false ∧
    W.up.addressable (44 * 2 ^ 40 + 0x800040000) = false := by decide +kernel

/-- 11, rounding examples of R264. -/
theorem test_rnd : [rnd (45875 * 2 ^ 18) 19, rnd (-45875 * 2 ^ 18) 19, rnd 7 2, rnd 5 2, rnd (-6) 2, rnd (-5) 3, rnd 3 (-2)] =
    [22938, -22938, 2, 1, -2, -1, 12] := by decide +kernel

/-- 11, worked example: the MINT of RN-23 layer 9. -/
theorem test_mint_words : let w : CmdWords := ⟨0xFA01120101300103, 0x0003004002000000, 0, 0⟩
    w.op = 3 ∧ w.notify = true ∧ w.tag = 0x130 ∧ w.bank = 1 ∧ w.curve = 2 ∧ w.curveEn = true ∧ w.outFmt = 1 ∧
      sext 8 w.outExp = -6 ∧ w.mintFirst = 0 ∧ w.entries = 512 ∧ w.rscBase = 64 ∧ w.rscEn = true ∧ w.glean = true ∧
      w.thresh = false ∧ w.remote = false := by decide +kernel

/-- Curve 2 of the same example: a leaky rectifier of slope 1/8. -/
def W.curve : List Nat := [0x3001F00000800000, 0xA400000000000000] ++
  (List.range 62).map (fun i => 0xA400000000000000 + (8388546 + i) * (2 ^ 24 + 1))

/-- 11, worked example: columns 3, 7 and 5 of entry 37, with the histogram bins of R276. -/
theorem test_mint_entry : [265216, -259072, 3000000].map (fun e =>
      let m := mintValue e (some 0xFFFFF4000010B333) (-6) (-9) (some W.curve)
      (m.sh, m.y, clampI (fmtLo 1) (fmtHi 1) m.y, gleanBin m)) =
    [(19, 22938, 22938, 46), (19, -2867, -2867, 46), (19, 262230, 32767, 50)] := by decide +kernel

/-- 11, worked example: the thresh pass suggests -2, and column 3 then mints to 1,434. -/
theorem test_suggest : suggest 0xFA 1 19 = (0xFE, false) ∧
    (mintValue 265216 (some 0xFFFFF4000010B333) (-2) (-9) (some W.curve)).y = 1434 := by decide +kernel

/-- 07, worked example: the RUN of an RN-23 tile. -/
theorem test_run_words : let w : CmdWords := ⟨0x0005000101230002, 0x0000FFFF0000FFFF, 0x0000000002000000, 0x00002E0100400000⟩
    w.op = 2 ∧ w.tag = 0x123 ∧ w.bank = 1 ∧ w.accum = false ∧ w.descIx = 5 ∧ w.rowMask = 0xFFFF ∧ w.runCols = 0xFFFF ∧
      w.runFirst = 0 ∧ w.tokens = 512 ∧ w.kBase = 0 ∧ w.abase = nearBase 46 1 ∧
      (⟨0x0000093701240008, 0, 0, 0⟩ : CmdWords).mark = 9 ∧ (⟨0x0000093701240008, 0, 0, 0⟩ : CmdWords).frame = 0x37 := by
  decide +kernel

/-- 10, worked example: the side-list entry of weight (168, 3), and the row pitch of an INT4 tile of 16 columns. -/
theorem test_escape_entry : parseEsc 16 none 0x00FFFC18003000A8 = ({ k := 168, n := 3, v := -1000, rel := false }, true) ∧
    rowPitch 16 1 = 768 := by decide +kernel

/-- 04, worked example: thermal caps at 95, 93 and 92 degrees. -/
theorem test_thermal_cap : thermalCap 50 20 (95 * 16) = 18 ∧ thermalCap 18 18 (93 * 16) = 18 ∧ thermalCap 18 18 (92 * 16) = 19 := by
  decide +kernel

/-- 20, R513 at the ends of its four ranges. -/
theorem test_tally_ranges : [0, 1, 2 ^ 47 - 1, 2 ^ 47, 2 ^ 48 - 2 ^ 32 - 1, 2 ^ 48 - 2 ^ 32, 2 ^ 48 - 1].map
    (fun v => (W.up.tallySignal 5 v).2) = [0, 0, 0, 2, 2, 1, 1] := by decide +kernel

/-- 21, R539: AXB_IDENT. 06, R179: an unloaded slice map. 04: the default chaff window and DENSITY. -/
theorem test_reset_values : State.reset.rn Reg.AXB_IDENT = 0x5A708401 ∧ State.reset.rn (Reg.FLD_SLICE_MAP 44 15) = 0xFF00FF00FF00FF00 := by
  decide +kernel

/-- FIPS 180-4: SHA-384 of "abc". -/
theorem test_sha384 : beNat (sha384 [0x61, 0x62, 0x63]) =
    0xcb00753f45a35e8bb5a03d699ac65007272c32ab0eded1631a8b605a43ff5bed8086072ba1e7cc2358baeca134c825a7 := by decide +kernel

/-- RFC 6979, A.2.6: the signature of "sample" on P-384 with SHA-384 verifies, and not of another message. -/
theorem test_ecdsa : ["sample", "test"].map (fun m => ecdsaOk
    0xEC3A4E415B4E19A4568618029F427FA5DA9A8BC4AE92E02E06AAE5286B300C64DEF8F0EA9055866064A254515480BC13
    0x8015D9B72D7D57244EA8EF9AC0C621896708A59367F9DFB9F54CA84B3F1C9DB1288B231C3AE0D4FE7344FD2533264720
    (beNat (sha384 (m.toList.map (fun c => BitVec.ofNat 8 c.toNat))))
    0x94EDBB92A5ECB8AAD4736E56C691916B3F88140666CE9FA73D64C4EA95AD133C81A648152E44ACF96E36DD1E80FABE46
    0x99EF4AEB15F178CEA1FE40DB2603138F130E740A19624526203B6351D0A3A94FA329C145786E679E7B82C71A38628AC8) = [true, false] := by
  decide +kernel

/-- The GCM specification, test case 14: AES-256 of one zero block. -/
theorem test_gcm : gcmOpen (List.replicate 32 0) (List.replicate 12 0) [] (beBytes 16 0xcea7403d4d606b6e074ec5d3baf39d18)
    (beBytes 16 0xd0d1c8a799996bf0265b98b5d48ab919) = some (List.replicate 16 0) := by decide +kernel

/-- 14, R331 and R340: the banks of a near line and of the weight line of the worked example. -/
theorem test_banks : bulkBank 0x2E0005123400 = 20 ∧ nearBank (nearBase 44 2 + 128 * 35) = 3 ∧ nearBankRow (nearBase 44 2 + 128 * 35) = 2 := by
  decide

/-- 15, R362: the channel of a deposit and of a control message. -/
theorem test_channels : ({ kind := 1, srcUnit := 2, window := 3 } : Msg).channel = 1 ∧ ({ kind := 5, srcUnit := 6, window := 3 } : Msg).channel = 2 := by
  decide

/-- 14, R332 and R335: a teller reads back the word that it wrote to its near scratchpad; another teller's slot is not its own. -/
theorem test_narrow : W.answers (exec (.registerWrite (.teller 44 0) (nearBase 44 0 + 8) 8 0x0102) W.up) (fun t =>
    W.answers (exec (.lowWordRead (.teller 44 0) (nearBase 44 0 + 8) 8) t) (fun u => u.reply == some 0x0102) &&
    W.answers (exec (.lowWordRead (.teller 44 1) (nearBase 44 0 + 8) 8) t) (fun u => u.reply == none)) = true := by decide +kernel

/-- 00, R2: numbers are little-endian. -/
theorem test_little_endian : leBytes 4 0x0A0B0C0D = [0x0D, 0x0C, 0x0B, 0x0A] ∧ leNat [0x0D, 0x0C, 0x0B, 0x0A] = 0x0A0B0C0D := by
  decide

/-- The queue is first in, first out: a step runs the front command with the rest waiting. -/
theorem test_step_fifo : W.answers (step { W.up with pending := [.idcode, .bypass] }) (fun t => t.pending == [.bypass]) = true := by
  decide +kernel

/-- No word spells a command, so the fetch word changes nothing. -/
theorem test_no_words : decodeTableWord 32 0 = none ∧ (State.reset.withFetchWord 32 0).pending = [] := by decide

/-! ## Every statement's hypotheses are met -/

theorem test_meets_WorkItemsComplete_1 : (let it := W.bare 0x00
    let s := W.item it
    let x := W.started it
    s.openItem it 0x00 = some x) := by
  decide +kernel

theorem test_meets_WorkItemsComplete_2 : (let it := W.put (W.bare 0x05) 0x20 [63]
    let s := W.item it
    let x := W.started it
    s.openItem it 0x05 = some x ∧ it.u 0x20 1 < 64 ∧ (s.window (ownerKey x.fn x.slot) (it.u 0x20 1)).state ≠ 2) := by
  decide +kernel

theorem test_meets_WorkItemsComplete_3 : (let it := W.put (W.put (W.bare 0x06) 0x20 [63]) 0x24 [2]
    let s := W.withWindow (W.item it) (ownerKey 44 0) 63 { state := 1, mode := 1, outstanding := 2 }
    let x := W.started it
    s.openItem it 0x06 = some x ∧ it.u 0x20 1 < 64 ∧ (s.window (ownerKey x.fn x.slot) (it.u 0x20 1)).state = 1 ∧
      (s.window (ownerKey x.fn x.slot) (it.u 0x20 1)).mode ≠ 0 ∧
      it.u 0x24 4 ≤ (s.window (ownerKey x.fn x.slot) (it.u 0x20 1)).outstanding) := by
  decide +kernel

theorem test_meets_WorkItemsComplete_4 : (let it := W.put (W.bare 0x25) 0x20 [44, 11, 0]
    let s := W.item it
    let x := W.started it
    s.openItem it 0x25 = some x ∧ s.owner (it.u 0x20 1) = it.part ∧ it.u 0x21 1 < 12 ∧
      s.brs.carve.any (fun e => e.1 = it.u 0x20 1 * 12 + it.u 0x21 1) = true ∧
      it.u 0x22 1 < 4 ∧ s.present (it.u 0x20 1) (it.u 0x22 1) = true) := by
  decide +kernel

theorem test_meets_WorkItemsComplete_5 : (let it := W.put (W.bare 0x26) 0x20 [63]
    let s := W.item it
    let x := W.started it
    s.openItem it 0x26 = some x ∧ it.u 0x20 1 < 64 ∧ it.u 0x24 4 = 0) := by
  decide +kernel

theorem test_meets_WorkItemsComplete_6 : (let it := W.put (W.put (W.put (W.bare 0x26) 0x20 [63, 44, 0]) 0x24 [64]) 0x2C [1, 44]
    let s := W.item it
    let x := W.started it
    s.openItem it 0x26 = some x ∧ it.u 0x20 1 < 64 ∧ it.u 0x24 4 ≠ 0 ∧ s.owner (it.u 0x21 1) = it.part ∧ it.u 0x22 1 < 4 ∧
      s.present (it.u 0x21 1) (it.u 0x22 1) = true ∧ it.u 0x28 8 % 64 = 0 ∧ it.u 0x24 4 % 64 = 0 ∧
      s.ownRange (it.u 0x21 1) (it.u 0x22 1) (it.u 0x28 8) (it.u 0x24 4) = true ∧ isNear (it.u 0x28 8) = true) := by
  decide +kernel

theorem test_meets_TransferItemsRun_1 : (let it := W.put (W.bare 0x01) 0x28 [1]
    let s := W.item it
    let x := W.started it
    s.openItem it 0x01 = some x ∧ s.canSubmit x it.cmdCount = true) := by
  decide +kernel

theorem test_meets_TransferItemsRun_2 : (let it := W.put (W.bare 0x02) 0x38 [64]
    let s := W.withObject (W.item it) 0 { base := nearBase 44 0, size := 64, fn := 44, slot := 0, state := 1 }
    let x := W.started it
    s.openItem it 0x02 = some x ∧ s.canSubmit x 1 = true ∧ s.objRange x (it.u 0x20 2) (it.u 0x28 8) (it.u 0x38 4) = some (nearBase 44 0) ∧
      s.freeCopy it.part = some 0 ∧ s.freeGrant (coreHolder x.fn x.slot) = some 0) := by
  decide +kernel

theorem test_meets_TransferItemsRun_3 : (let it := W.bare 0x03
    let s := W.item it
    let x := W.started it
    s.openItem it 0x03 = some x) := by
  decide +kernel

theorem test_meets_TransferItemsRun_4 : (let it := W.put (W.put (W.put (W.bare 0x04) 0x20 [63, 0, 1, 0]) 0x24 [128]) 0x2A [3, 0, 0, 44]
    let s := W.withObject (W.item it) 0 { base := nearBase 44 0, size := 128, fn := 44, slot := 0, state := 1 }
    let x := W.started it
    s.openItem it 0x04 = some x ∧ s.leases.any (fun l => l.2.state = 2 && l.2.hkind = 5 && l.2.holder = it.u 0x2C 2) = false ∧
      s.objRange x (it.u 0x28 2) (it.u 0x30 8) (it.u 0x24 4) = some (nearBase 44 0) ∧ it.u 0x20 1 < 64 ∧
      windowForm (nearBase 44 0) (it.u 0x24 4) (it.u 0x22 2) (it.u 0x21 1) = true ∧
      s.ownRange x.fn x.slot (nearBase 44 0) (it.u 0x24 4) = true ∧ isNear (nearBase 44 0) = true ∧
      s.holderAllowed it.part (it.u 0x2A 1) (it.u 0x2C 2) = true ∧
      ((s.begun x).openWindow x.fn x.slot (it.u 0x20 1) (nearBase 44 0) (it.u 0x24 4) (it.u 0x22 2) (it.u 0x21 1) (it.u 0x2A 1)
        (it.u 0x2C 2) (it.u 0x38 8)).2 = true) := by
  decide +kernel

theorem test_meets_PartitionCommandsRun_1 : (let it := W.mgmt (W.bare 0x42)
    let s := (W.item it).wf (Reg.PWR_PART_STATE 0) 2 0 0
    let x := W.started it
    let p := targetPart it
    s.openItem it (if it.managed then 0x42 else 0x100) = some x ∧ p < 16 ∧ (s.part p).defined = true ∧ s.brs.testMode = false ∧ s.partMoving p = false ∧ s.partState p = 0 ∧ s.hotFields p = false ∧ s.rb Reg.AXB_CFG_STATUS 8 = true) := by
  decide +kernel

theorem test_meets_PartitionCommandsRun_2 : (let it := W.mgmt (W.bare 0x43)
    let s := W.item it
    let x := W.started it
    let p := targetPart it
    s.openItem it (if it.managed then 0x43 else 0x20) = some x ∧ p < 16 ∧ (s.part p).defined = true ∧ s.partState p ≠ 0 ∧ s.partState p ≠ 4) := by
  decide +kernel

theorem test_meets_PartitionCommandsRun_3 : (let it := W.mgmt (W.bare 0x46)
    let s := W.item it
    let x := W.started it
    let p := targetPart it
    s.openItem it (if it.managed then 0x46 else 0x23) = some x ∧ p < 16 ∧ (s.part p).defined = true ∧ s.partState p ≠ 0 ∧ s.partState p ≠ 4) := by
  decide +kernel

theorem test_meets_PartitionCommandsRun_4 : (let it := { W.bare 0x21 with queue := 0 }
    let s := W.item it
    let x := W.started it
    let p := targetPart it
    s.openItem it (if it.managed then 0x44 else 0x21) = some x ∧ p < 16 ∧ (s.part p).defined = true ∧ s.partMoving p = false ∧ s.partState p = 2) := by
  decide +kernel

theorem test_meets_PartitionCommandsRun_5 : (let it := W.mgmt (W.bare 0x45)
    let s := (W.item it).wf (Reg.PWR_PART_STATE 0) 2 0 3
    let x := W.started it
    let p := targetPart it
    s.openItem it (if it.managed then 0x45 else 0x22) = some x ∧ p < 16 ∧ (s.part p).defined = true ∧ s.partMoving p = false ∧ s.partState p = 3) := by
  decide +kernel

theorem test_meets_PartitionCommandsRun_6 : (let s := W.up.setPart 0 { W.up.part 0 with drainAt := some 1000050 }
    (s.part 0).drainAt = some 1000050 ∧ ((s.until 1000050).part 0).drainAt ≠ none) := by
  decide +kernel

theorem test_meets_RepeatedStopStands : ∀ op ∈ [0x43, 0x46, 0x42, 0x45, 0x44],
    (let it := W.mgmt (W.bare op)
     let s := (W.item it).wf (Reg.PWR_PART_STATE 0) 2 0 4
     targetPart it < 16 ∧ (s.part (targetPart it)).defined = true ∧ s.partState (targetPart it) = 4 ∧
       s.brs.testMode = false ∧ s.openItem it op = some (W.started it)) := by
  decide +kernel

theorem test_meets_MaintenanceCommandsRun_1 : (let it := W.mgmt (W.bare 0x48)
    let s := W.item it
    let x := W.started it
    s.openItem it 0x48 = some x ∧ s.rf Reg.AXB_REVISION 7 0 ≠ 5) := by
  decide +kernel

theorem test_meets_MaintenanceCommandsRun_2 : (let it := W.put (W.mgmt (W.bare 0x4A)) 0x20 [1, 3, 15]
    let s := (W.item it).setFlash { W.up.car.flash with slots := [(3, W.image)] }
    let x := W.started it
    s.openItem it 0x4A = some x ∧ it.u 0x20 1 ≤ 1 ∧ it.u 0x21 1 ≤ 3 ∧ it.u 0x22 1 = 0xF ∧ s.car.flash.slots.any (fun e => e.1 = it.u 0x21 1) = true) := by
  decide +kernel

theorem test_meets_MaintenanceCommandsRun_3 : (let it := W.put (W.mgmt (W.bare 0x4B)) 0x30 [0xC0, 1]
    let s := W.item it
    let x := W.started it
    s.openItem it 0x4B = some x ∧ s.canDma 0 = true ∧ s.brs.recovery = false ∧ s.rf Reg.AXB_BOOT_STATUS 0 0 = 0 ∧
      s.car.fuses.seriesOf (some W.firmware) ≠ 0 ∧ W.firmware.bytes.length ≤ it.u 0x30 8) := by
  decide +kernel

theorem test_meets_MaintenanceCommandsRun_4 : (let it := W.put (W.put (W.mgmt (W.bare 0x49)) 0x20 [3]) 0x30 [0, 0, 0, 0x7F]
    let s := W.item it
    let x := W.started it
    s.openItem it 0x49 = some x ∧ s.canDma 0 = true ∧ it.u 0x20 1 ≤ 3 ∧ s.activeSlot (it.u 0x20 1) = false ∧ W.image.size ≤ it.u 0x30 8 ∧
      it.u 0x30 8 ≤ 0x7F000000 ∧ firstErr [s.headerErr W.image, s.dirErr W.image, s.keyErr W.image] = none) := by
  decide +kernel

theorem test_meets_MaintenanceCommandsRun_5 : (let it := W.put (W.mgmt (W.bare 0x47)) 0x20 [45]
    let s := (W.item it).wf (Reg.TBS_STATUS 45) 2 0 3
    let x := W.started it
    s.openItem it 0x47 = some x ∧ Config.sitePresent (it.u 0x20 1) = true ∧ x.item = it ∧ s.brs.indep = false ∧ s.powered (it.u 0x20 1) = true ∧
      s.tbsState (it.u 0x20 1) = 3 ∧ (List.range 4).any (fun p => s.portUp (it.u 0x20 1) p &&
        (Config.neighbour (it.u 0x20 1) p).any (fun n => s.tbsState n = 2 || n = s.anchor)) = true) := by
  decide +kernel

theorem test_meets_MaintenanceCommandsRun_6 : (let it := W.mgmt (W.bare 0x4E)
    let s := W.item it
    let x := W.started it
    s.openItem it 0x4E = some x) := by
  decide +kernel

theorem test_meets_FuseCommandsBlow_1 : (let it := W.put (W.mgmt (W.bare 0x4C)) 0x20 [3, 3]
    let s := W.item it
    let x := W.started it
    s.openItem it 0x4C = some x ∧ it.u 0x20 1 ≤ 3 ∧ it.u 0x21 1 = it.u 0x20 1 ∧ (s.car.fuses.revoke (it.u 0x20 1)).liveKeys ≠ [] ∧ s.loading = false) := by
  decide +kernel

theorem test_meets_FuseCommandsBlow_2 : (let it := W.put (W.mgmt (W.bare 0x4D)) 0x20 [3, 63]
    let s := W.item it
    let x := W.started it
    s.openItem it 0x4D = some x ∧ it.u 0x20 1 ≤ 3 ∧ tget 0 s.car.fuses.svn (it.u 0x20 1) < it.u 0x21 1 ∧ it.u 0x21 1 ≤ 63 ∧ s.loading = false) := by
  decide +kernel

theorem test_meets_LoadCommandsRun_1 : (let it := W.put (W.mgmt (W.bare 0x40)) 0x20 [3]
     let s := ((W.item it).setFlash { W.up.car.flash with slots := [(3, W.image)] }).wf (Reg.PWR_PART_STATE 0) 2 0 0
     s.openItem it 0x40 = some (W.started it) ∧ s.brs.testMode = false ∧ it.u 0x20 1 ≤ 3 ∧
       s.car.flash.slots.find? (fun e => e.1 = it.u 0x20 1) = some (3, W.image) ∧ s.loading = false ∧
       (∀ p < 16, s.partState p = 0)) := by
  decide +kernel

/-- A started LOAD_BITSTREAM, REBIND as `r` says, with every partition OFF and build 1 active. -/
def W.loading (r : Nat) : State :=
  ((W.item (W.put (W.put (W.mgmt (W.bare 0x41)) 0x30 [0, 0, 1]) 0x20 [r])).wf (Reg.PWR_PART_STATE 0) 2 0 0).wn Reg.AXB_CFG_BUILD 1

theorem test_meets_LoadCommandsRun_2 : (let it := W.put (W.put (W.mgmt (W.bare 0x41)) 0x30 [0, 0, 1]) 0x20 [0]
     let s := W.loading 0
     s.openItem it 0x41 = some (W.started it) ∧ s.brs.testMode = false ∧ s.canDma 0 = true ∧ W.part.size ≤ it.u 0x30 8 ∧
       s.loading = false ∧ it.u 0x20 1 % 2 = 0 ∧ (∀ p < 16, s.partState p = 0)) := by
  decide +kernel

theorem test_meets_LoadCommandsRun_2_partial : imgKind W.part = 2 ∧ imgPart W.part = 0 ∧ (W.loading 0).partialErr W.part none = none ∧
    imgKind W.image ≠ 2 := by
  decide +kernel

theorem test_meets_LoadCommandsRun_2_rebind : firstErr [(W.loading 1).headerErr W.whole, (W.loading 1).dirErr W.whole, setErr W.whole,
      (W.loading 1).keyErr W.whole] = none ∧ imgKind W.whole = 1 ∧ imgBuild W.whole = (W.loading 1).rn Reg.AXB_CFG_BUILD ∧
    (W.loading 1).rn Reg.AXB_CFG_BUILD ≠ 0 ∧ W.whole.size = 832 := by
  decide +kernel

theorem test_meets_LoadCommandsRun_3 : (let it := W.put ({ W.bare 0x24 with queue := 0 }) 0x30 [0, 0, 1]
     let s := ((W.item it).wf (Reg.PWR_PART_STATE 0) 2 0 3).wn Reg.AXB_CFG_BUILD 1
     s.openItem it 0x24 = some (W.started it) ∧ s.canDma (it.part + 1) = true ∧ W.part.size ≤ it.u 0x30 8 ∧ s.loading = false ∧
       it.part = 0 ∧ s.partState 0 = 3 ∧ s.partialErr W.part (some 0) = none) := by
  decide +kernel

theorem test_meets_LoadCommandsRun_4 : (let s : State := { W.up with brs := { W.up.brs with toLoad := [W.toLoad] } }
     s.brs.toLoad.any (fun t => t.fn = 45) = true ∧ s.isFull 45 = true ∧ s.rb Reg.AXB_CFG_STATUS 8 = true) := by
  decide +kernel

theorem test_meets_LoadCommandsRun_5 : (let s := W.up.setField 46 { W.field with part := 0xFF, power := .base }
     (s.field 46).listed = true ∧ (s.field 46).part = 0xFF ∧ (s.field 46).power = .base ∧ (s.field 46).joined = true ∧
       s.rb (Reg.FLD_CFG_STATUS 46) 31 = false ∧ s.rb Reg.AXB_CFG_STATUS 8 = true) := by
  decide +kernel

theorem test_meets_CoreCommandsSubmit : W.up.slotReason (.teller 44 0) 44 0 = none ∧
    ((W.core (fun c => { c with intake := List.replicate 31 (W.cmd 2) })).core 44 0).intake.length < 32 ∧
    32 ≤ ((W.core (fun c => { c with intake := List.replicate 32 (W.cmd 2) })).core 44 0).intake.length ∧
    ((W.core (fun c => { c with flushAt := some 1000001 })).core 44 0).flushAt ≠ none := by
  decide +kernel

theorem test_meets_CommandIssueRuns : (let s := W.core (fun c => { c with intake := [W.cmd 0] })
     s.halted 44 0 = false ∧ (s.core 44 0).flushAt = none ∧ (s.core 44 0).held = false ∧
      (s.core 44 0).unrepairable = false ∧ (s.core 44 0).shareAt = none ∧ s.rb (Reg.GZC_CS_STATUS 44 0) 30 = false ∧
      s.isFull 44 = true ∧ s.present 44 0 = true ∧ (s.intakeCheck 44 0 (W.cmd 0).w).1 = none) ∧
    (let s := W.core (fun c => { c with intake := [W.cmd 6], retire := List.replicate 63 0 })
     (s.intakeCheck 44 0 (W.cmd 6).w).1 = some (0x01, 6) ∧ (s.core 44 0).retire.length < 64) := by
  decide +kernel

theorem test_meets_RetirementRuns_1 : (let s := W.core (fun c => { c with push := [{ W.cmd 0x105 with tail := true }], retire := List.replicate 63 0 })
     s.isFull 44 = true ∧ (s.core 44 0).flushAt = none ∧ (s.core 44 0).queue 3 = [{ W.cmd 0x105 with tail := true }] ∧
      (W.cmd 0x105).w.notify = true ∧ (s.core 44 0).retire.length < 64) := by
  decide +kernel

theorem test_meets_RetirementRuns_2 : (let s := W.core (fun c => { c with ctrl := [{ W.cmd 0x0B with sent := 1, expiry := some 1000500 }] })
     (s.core 44 0).ctrl = [{ W.cmd 0x0B with sent := 1, expiry := some 1000500 }]) := by
  decide +kernel

theorem test_meets_RetirementRuns_3 : W.up.slotReason (.teller 44 0) 44 0 = none ∧ W.up.slotReason .pf0 44 0 = none ∧ Who.pf0 ≠ .teller 44 0 ∧
    (W.up.core 44 0).retire = [] ∧ ((W.core (fun c => { c with retire := [7] })).core 44 0).retire = [7] := by
  decide +kernel

theorem test_meets_BeatsAdvanceOneStage_1 : (let s := W.core (fun c => { c with mv := [W.cmd 4] })
     s.isFull 44 = true ∧ s.present 44 0 = true ∧ (s.core 44 0).flushAt = none ∧ (s.core 44 0).held = false ∧
       (s.core 44 0).hasReal 32 = true) ∧
    (W.up.core 44 0).hasReal 32 = false ∧ (W.up.core 44 0).hasReal 31 = false ∧
    ((W.core (fun c => c.setRow 31 { q := [.token 1 0 []] })).core 44 0).hasReal 31 = true ∧
    (let s := W.isl { outq := [[7]], pmq := [{ fin := none, cls := 1, words := [7] }] }
     let fn := Config.utxField 7
     let s := s.wf (Reg.GZC_SHAPE fn 0) 31 31 1
     s.isFull fn = true ∧ s.present fn 0 = true ∧ (s.core fn 0).flushAt = none ∧ (s.core fn 0).held = false ∧
       (s.island fn 0).outq = [[7]] ∧ (s.island fn 0).pmq = [{ fin := none, cls := 1, words := [7] }] ∧ (s.island fn 0).rstLow = false) := by
  decide +kernel

theorem test_meets_BeatsAdvanceOneStage_2 : (let v : Minted := { num := 1, addr := nearBase 44 0, remote := false, bytes := [(0, 1), (1, 2)] }
     let s := W.core (fun c => { c with drain := some v, mint := [{ W.cmd 3 with conv := true }] })
     s.isFull 44 = true ∧ s.present 44 0 = true ∧ (s.core 44 0).flushAt = none ∧ (s.core 44 0).held = false ∧
       (s.core 44 0).drain = some v ∧ (s.core 44 0).mint.find? (fun y => y.num = v.num) = some { W.cmd 3 with conv := true }) := by
  decide +kernel

theorem test_meets_BeatsAdvanceOneStage_3 : (let x := W.cmd 1
     let s := W.core (fun c => (List.range 16).foldl (fun c r => c.setRow r { q := [.marker 1] }) { c with feed := [x] })
     tableWf (fun _ => ({} : CoreSt)) s.cores = true ∧ (s.core 44 0).feed.find? (fun y => y.w.op = 1 && !y.tail) = some x ∧
       x.status = 0 ∧ x.gate ≤ s.now ∧ s.rows 44 0 = 16 ∧ (∀ r < 16, (s.core 44 0).atMark x r = true) ∧
       scaleBad (x.head.getD []) = none) := by
  decide +kernel

theorem test_meets_BeatsAdvanceOneStage_4 : (let x : Cmd := { num := 1, w := W.escLoad }
     let s := W.core (fun c => { c with feed := [x] })
     s.isFull 44 = true ∧ (s.core 44 0).lw = 0 ∧ (s.core 44 0).old = [] ∧ (s.core 44 0).escs = [] ∧ (s.core 44 0).feed = [x] ∧ x.w.op = 1 ∧
       x.w.esc = true ∧ x.w.escCount ≠ 0) := by
  decide +kernel

theorem test_meets_RampAndChaffRun_1 : ∀ f ∈ [0, 15, 32, 95], (let s := (W.core (fun c => c.setRamp f { phase := 0, hist := [true] })).wf (Reg.GZC_SHAPE 44 0) 23 16 64
     s.isFull 44 = true ∧ s.present 44 0 = true ∧ ((s.core 44 0).ramp f).phase = 0 ∧ ((s.core 44 0).ramp f).hist ≠ [] ∧
       (s.core 44 0).hasReal f = false ∧ (s.core 44 0).loadHead f = false ∧ s.feederQuiet 44 0 f = false) := by
  decide +kernel

theorem test_meets_RampAndChaffRun_2 : ((W.core (fun c => c.setRamp 95 { phase := 1 })).core 44 0).ramp 95 = { phase := 1 } := by
  decide +kernel

theorem test_meets_RampAndChaffRun_3 : ((W.core (fun c => c.setRamp 0 { phase := 2 })).core 44 0).ramp 0 = { phase := 2 } ∧
    ((W.core (fun c => c.setRamp 95 { phase := 4 })).core 44 0).ramp 95 = { phase := 4 } := by
  decide +kernel

theorem test_meets_RampAndChaffRun_4 : (let s := W.core (fun c => (c.setRamp 31 { phase := 2 }).setRow 31 { q := [.token 1 0 []] })
     (s.core 44 0).hasReal 31 = true ∧ ((s.core 44 0).ramp 31).phase = 2) ∧
    (let s := W.core (fun c => ({ c with mv := [W.cmd 4] }).setRamp 95 { phase := 3, entry := 1 })
     (s.core 44 0).hasReal 95 = true ∧ ((s.core 44 0).ramp 95).phase = 3 ∧ ((s.core 44 0).ramp 95).entry ≠ 0) := by
  decide +kernel

theorem test_meets_RampAndChaffRun_5 : (let s := W.core (fun c => { c with quiet := [(7, 5, some 3), (63, 6, none)] })
     (s.core 44 0).quiet.find? (fun e => e.1 = 7) = some (7, 5, some 3) ∧
       (s.core 44 0).quiet.find? (fun e => e.1 = 63) = some (63, 6, none) ∧ s.isFull 44 = true) := by
  decide +kernel

theorem test_meets_CoreControlsRun_1 : W.up.slotReason (.teller 44 3) 44 0 = none ∧ Who.tellerOf (.teller 44 3) 44 0 = true ∧
    (W.up.core 44 0).flushAt = none ∧ (W.up.core 44 0).ctrl.find? (fun x => x.w.op = 0x0B && x.sent = 1) = none := by
  decide +kernel

theorem test_meets_CoreControlsRun_2 : (let s := W.up.setb (Reg.GZC_STATUS 44 0) 2
     s.slotReason (.teller 44 0) 44 0 = none ∧ Who.tellerOf (.teller 44 0) 44 0 = true ∧ s.halted 44 0 = true ∧
       (s.core 44 0).flushAt = none ∧ (s.core 44 0).unrepairable = false) := by
  decide +kernel

theorem test_meets_CoreControlsRun_3 : W.up.slotReason (.vf 1) 44 0 = none ∧ W.up.tellerOrOwner (.vf 1) 44 0 = true ∧
    ((W.core (fun c => { c with clearing := true })).core 44 0).clearing = true ∧
    ((W.core (fun c => { c with clearing := true })).core 44 0).gleaning = false ∧
    regsWf W.up.regs ∧ tableWf (fun _ => ({} : CoreSt)) W.up.cores = true := by
  decide +kernel

theorem test_meets_CoreControlsRun_4 : W.up.slotReason .pf0 44 0 = none := by
  decide +kernel

theorem test_meets_CoreControlsRun_5 : (let s := (W.core (fun c => { c with frozen := some W.frozen })).setb (Reg.GZC_CS_STATUS 44 0) 31
     s.slotReason (.teller 44 3) 44 0 = none ∧ (s.core 44 0).frozen = some W.frozen ∧ (s.core 44 0).idle = true ∧
       (s.core 44 0).flushAt = none ∧ s.rb (Reg.GZC_CS_STATUS 44 0) 31 = true ∧ s.rb (Reg.GZC_CS_STATUS 44 0) 29 = false) := by
  decide +kernel

theorem test_meets_CoreControlsRun_6 : regsWf W.up.regs ∧ tableWf (fun _ => ({} : CoreSt)) W.up.cores = true ∧ W.up.slotReason (.teller 44 3) 44 0 = none := by
  decide +kernel

theorem test_meets_CoreControlsRun_7 : (let s := (W.core (fun c => { c with frozen := some W.frozen })).setb (Reg.GZC_CS_STATUS 44 0) 29
     s.isFull 44 = true ∧ s.present 44 0 = true ∧ (s.field 44).hkUp = true ∧ (s.core 44 0).unrepairable = false ∧
       (s.core 44 0).flushAt = none ∧ (s.core 44 0).frozen = some W.frozen ∧ s.rb (Reg.GZC_CS_STATUS 44 0) 29 = true) ∧
    (let s := W.up.setb (Reg.GZC_MV_STATUS 44 0) 31
     (s.core 44 0).frozen = none ∧ s.rb (Reg.GZC_MV_STATUS 44 0) 31 = true) := by
  decide +kernel

/-- A message for F`d`, its head at F44 and its flits in `l`. -/
def W.flight (d part hops : Nat) (l : List Span) : Flight :=
  { msg := { kind := 5, part := part, dst := unitDst d 1 }, loc := 44, inp := 4, lane := 0, hops := hops, here := 1, trail := l }

def W.flying (f : Flight) : State := { W.up with mesh := { W.up.mesh with flights := [f] } }

/-- Flits of a message left behind at F54, whose link is down, and at F45, whose link is up. -/
def W.behind (fn : Nat) : List Span := [{ fn := fn, inp := 4, lane := 0, n := 1 }]

theorem test_meets_MessageHops :
    (let f := { W.flight 44 0 0 (W.behind 54) with inp := 2 }
     (W.flying f).mesh.flights[0]? = some f ∧ f.links (W.flying f).portUp = false) ∧
    ((W.flight 44 0 41 []).links W.up.portUp = true ∧ 40 < (W.flight 44 0 41 []).hops) ∧
    (let f := W.flight 44 0 40 []
     let s := W.flying f
     f.hops ≤ 40 ∧ s.pickPort f.loc f.inp f.msg = 4 ∧ s.leads 0 f = true ∧ f.links (fun fn q => !s.linkPaused fn q) = true ∧
       f.msg.kind ≠ 1) ∧
    (let f := { W.flight 44 0 40 [] with msg := { kind := 1, dst := 2 ^ 40 * 0xE0 } }
     let s : State := { W.flying f with host := { W.up.host with linkUp := false } }
     f.msg.kind = 1 ∧ s.depositHeld f.msg = true) ∧
    (let f := W.flight 43 0 40 []
     let s := W.flying f
     s.pickPort f.loc f.inp f.msg ≠ 4 ∧ s.portUp f.loc (s.pickPort f.loc f.inp f.msg) = false) ∧
    (let f := W.flight 45 0xFE 0 []
     let s := W.flying f
     let p := s.pickPort f.loc f.inp f.msg
     p ≠ 4 ∧ s.portUp f.loc p = true ∧ s.linkPaused f.loc p = false ∧ s.leads 0 f = true ∧
       (s.nextSpan f).any (fun b => s.mayCross 0 f b && s.turn f.loc p f.msg.channel b.lane) = true ∧
       (s.setField 45 { W.field with retrainUntil := s.now + 1 }).linkPaused f.loc p = true) ∧
    (let f := W.flight 45 3 0 []
     let s := W.flying f
     let p := s.pickPort f.loc f.inp f.msg
     p ≠ 4 ∧ s.portUp f.loc p = true ∧ s.linkPaused f.loc p = false ∧ s.leads 0 f = true ∧ s.nextSpan f = none) := by
  decide +kernel

theorem test_meets_AnswersEndTheirDeposit_1 : (let m : Msg := { kind := 2, tag := 3, status := 6 }
     let x : Sent := { holder := coreHolder 44 0, grant := 63, tag := 3, units := 1, time := 5, dst := 0, job := .record 7 1 0 }
     let s := W.sent (W.arrived W.up m) x
     s.atDest m = true ∧ s.sentOf m.tag = some x ∧ x.grant < 64) := by
  decide +kernel

theorem test_meets_AnswersEndTheirDeposit_2 : (let m : Msg := { kind := 3, tag := 3, status := 6 }
     let x : Sent := { holder := coreHolder 44 0, grant := 63, tag := 3, units := 1, time := 5, dst := 0, job := .record 7 1 0 }
     let s := W.sent (W.arrived W.up m) x
     s.atDest m = true ∧ s.sentOf m.tag = some x ∧ x.grant < 64) := by
  decide +kernel

theorem test_meets_AnswersEndTheirDeposit_3 : (let x : Sent := { holder := coreHolder 44 0, grant := 63, tag := 3, units := 1, time := 5, dst := 0, job := .push 44 0 1 }
     (W.sent W.up x).sentOf 3 = some x ∧ x.grant < 64) := by
  decide +kernel

theorem test_meets_AnswersEndTheirDeposit_4 : W.up.portUp 44 0 = true ∨ W.up.portUp 44 1 = true ∨ W.up.portUp 44 2 = true ∨ W.up.portUp 44 3 = true := by
  decide +kernel

theorem test_meets_DepositsAreStoredAndAnswered_1 : (let m : Msg := { kind := 1, dst := nearBase 44 0, len := 1, data := List.replicate 64 7 }
     let s := W.arrived W.up m
     s.atDest m = true ∧ s.depositHeld m = false ∧ addrFn m.dst = 44 ∧ isNear m.dst = true) := by
  decide +kernel

theorem test_meets_DepositsAreStoredAndAnswered_2 : (let x : Window := { base := nearBase 44 0, size := 128, scrip := 2, mode := 1, state := 1, gen := 1, hkind := 1, holder := 45 * 256 }
     let s := W.withWindow W.up (ownerKey 44 0) 63 x
     let m : Msg := { kind := 1, dst := nearBase 44 0, srcFn := 45, srcUnit := 0, len := 1, wgen := 1, window := 63 }
     let g : Msg := { m with wgen := 2 }
     x = s.window (ownerKey 44 0) 63 ∧ isNear m.dst = true ∧ s.depositFault x m = none ∧ s.depositFault x g ≠ none ∧
       (List.range 64).find? (fun i => (s.window (ownerKey 44 0) i).state ≠ 0 &&
         inRange (s.window (ownerKey 44 0) i).base (s.window (ownerKey 44 0) i).size m.dst (64 * m.len) &&
         s.isHolder (s.window (ownerKey 44 0) i) m) = some 63) := by
  decide +kernel

theorem test_meets_GrantMessagesRun_1 : (let m : Msg := { kind := 4, dst := unitDst 44 3, a := nearBase 45 0, b := 64, c := 1 }
     let s := W.arrived W.up m
     s.atDest m = true ∧ m.dstUnit = 3 ∧ m.dstFn = 44 ∧ s.sentOf m.tag = none ∧
       (List.range (grantCount (coreHolder 44 3))).find? (fun i => (s.grantOf (coreHolder 44 3) i).state = 0) = some 0) := by
  decide +kernel

theorem test_meets_GrantMessagesRun_2 : (let m : Msg := { kind := 5, dst := unitDst 44 3 }
     (W.arrived W.up m).atDest m = true ∧ m.dstUnit = 3) := by
  decide +kernel

theorem test_meets_GrantMessagesRun_3 : (let m : Msg := { kind := 6, dst := unitDst 44 3 }
     (W.arrived W.up m).atDest m = true ∧ m.dstUnit = 3) := by
  decide +kernel

theorem test_meets_GrantMessagesRun_4 : ((W.withWindow W.up (ownerKey 44 3) 63 { closing := true }).window (ownerKey 44 3) 63).closing = true := by
  decide +kernel

theorem test_meets_GrantMessagesRun_5 : (let x := W.push
     let h := coreHolder 44 0
     let s := (W.core (fun c => { c with push := [x] })).setGrant h 63
       { base := nearBase 45 0, size := 64, scrip := 1, total := 1, state := 1, ownerFn := 45 }
     let n := min (min (x.w.length - x.sent) (2048 - x.sent % 2048)) (64 * (s.grantOf h 63).total)
     (s.core 44 0).push = [x] ∧ s.isFull 44 = true ∧ (s.core 44 0).flushAt = none ∧ x.sent < x.w.length ∧ x.w.dst % 64 = 0 ∧
       s.pushGrant 44 0 x = some 63 ∧ n ≠ 0 ∧ n / 64 ≤ (s.grantOf h 63).scrip ∧
       (s.coreRead 44 0 (x.w.src + x.sent) n).2.1 = none) := by
  decide +kernel

theorem test_meets_RouteGenerationsRun_1 : (let s : State := { W.up with mesh := { W.up.mesh with owed := true } }
     s.mesh.owed = true ∧ s.mesh.commit = none ∧ s.brs.running = true ∧ s.brs.fields ≠ []) := by
  decide +kernel

theorem test_meets_RouteGenerationsRun_2 : (W.commit W.up 1).mesh.commit = some { phase := 1, gen := 1, tSwitch := 1000040 } := by
  decide +kernel

theorem test_meets_RouteGenerationsRun_3 : (W.commit W.up 2).mesh.commit = some { phase := 2, gen := 1, tSwitch := 1000040 } := by
  decide +kernel

theorem test_meets_RouteGenerationsRun_4 : (W.commit W.up 2).mesh.commit = some { phase := 2, gen := 1, tSwitch := 1000040 } ∧ (W.commit W.up 2).mesh.flights = [] := by
  decide +kernel

theorem test_meets_RouteGenerationsRun_5 : ∃ p ∈ [0, 1, 2, 3], Config.neighbour 44 p = some 45 ∧ W.up.portUp 44 p = true := by
  decide +kernel

theorem test_meets_SignalsAdvanceTallies_1 : W.up.tally 1023 = 0 ∧ sext 48 (0 + 2 ^ 48 - 0) = 0 ∧ 0 < sext 48 (1 + 2 ^ 48 - 0) ∧
    -(2 ^ 32) ≤ sext 48 ((2 ^ 48 - 2 ^ 32) + 2 ^ 48 - 0) ∧ sext 48 ((2 ^ 48 - 1) + 2 ^ 48 - 0) < 0 ∧
    sext 48 ((2 ^ 48 - 2 ^ 32 - 1) + 2 ^ 48 - 0) < -(2 ^ 32) := by
  decide +kernel

theorem test_meets_TallyCommandsRun_1 : (let m : Msg := { kind := 0x0C, dst := unitDst 44 8, a := 1023, b := 1 }
     (W.arrived W.up m).atDest m = true ∧ m.dstUnit = 8 ∧ m.dstFn = W.up.anchor) := by
  decide +kernel

theorem test_meets_TallyCommandsRun_2 : (let m : Msg := { kind := 0x0D, tag := 3, status := 3 }
     let x : Sent := { holder := coreHolder 44 0, grant := 64, tag := 3, units := 0, time := 5, dst := 0, job := .signal 44 0 1 }
     let s := W.sent (W.arrived W.up m) x
     s.atDest m = true ∧ s.sentOf m.tag = some x) := by
  decide +kernel

theorem test_meets_TallyCommandsRun_3 : (let m : Msg := { kind := 0x0E, b := 1 }
     (W.arrived W.up m).atDest m = true ∧ m.b % 2 = 1) ∧
    (let m : Msg := { kind := 0x0E, part := 15 }
     m.b % 2 ≠ 1 ∧ W.up.blockOwner (m.a % 1024 / 32) ≠ m.part) ∧
    (let m : Msg := { kind := 0x0E, part := 16 }
     m.b % 2 ≠ 1 ∧ 16 ≤ m.part) ∧
    (let m : Msg := { kind := 0x0E, part := 0, a := 31, c := 0 }
     W.up.blockOwner (m.a % 1024 / 32) = m.part ∧ reached (W.up.tally 31) m.c = true) ∧
    (let m : Msg := { kind := 0x0E, part := 0, a := 31, c := 1 }
     W.up.blockOwner (m.a % 1024 / 32) = m.part ∧ reached (W.up.tally 31) m.c = false) := by
  decide +kernel

theorem test_meets_TallyCommandsRun_4 : (let m : Msg := { kind := 0x0F, tag := 8192 + 44 * 4 }
     let x : Cmd := { W.cmd 0x0B with sent := 1 }
     let s := W.arrived (W.core (fun c => { c with ctrl := [x] })) m
     s.atDest m = true ∧ (m.tag - 8192) / 4 = 44 ∧ (m.tag - 8192) % 4 = 0 ∧ (s.core 44 0).ctrl = [x] ∧
       x.w.op = 0x0B ∧ x.sent ≠ 0 ∧ x.result = none ∧ x.w.tally = m.a ∧ m.b = 0 ∧ x.expiry = none) := by
  decide +kernel

theorem test_meets_TallyCommandsRun_5 : W.up.tallyReason (.vf 1) 31 = none ∧ W.up.blockOwner 0 ≠ 0xFF := by
  decide +kernel

theorem test_meets_TallyCommandsRun_6 : W.up.tallyReason .pf0 1023 = none ∧ (7 : Nat).testBit 63 = false := by
  decide +kernel

theorem test_meets_KevenlinkTrains_1 : (let t := W.ports.setb (Reg.KVL_CTL (Config.kvlField 7)) 0
     W.ports.kvlReason .pf0 7 = none ∧ t.kvlAllowed 7 = true ∧ t.kvlState 7 = 0) := by
  decide +kernel

theorem test_meets_KevenlinkTrains_2 : (W.kvl 1 {}).kvlState 7 = 1 ∧ ((W.kvl 1 {}).kvlPort 7).backoff = none := by
  decide +kernel

theorem test_meets_KevenlinkTrains_3 : (W.kvl 2 {}).kvlState 7 = 2 ∧ (W.kvl 2 {}).now ≤ ((W.kvl 2 {}).kvlPort 7).since + 2000000 := by
  decide +kernel

theorem test_meets_KevenlinkTrains_4 : (W.kvl 3 { since := 1000000 }).kvlState 7 = 3 ∧ (W.kvl 3 { since := 1000000 }).now ≤ ((W.kvl 3 { since := 1000000 }).kvlPort 7).since + 1000000 := by
  decide +kernel

theorem test_meets_KevenlinkTrains_5 : ∀ n ∈ [2, 3, 4], (W.kvl n {}).kvlState 7 = n := by
  decide +kernel

theorem test_meets_KevenlinkTrains_6 : ((W.kvl 1 { backoff := some 1000010 }).kvlPort 7).backoff = some 1000010 := by
  decide +kernel

theorem test_meets_KevenlinkTrains_7 : (W.kvl 6 {}).kvlState 7 = 6 := by
  decide +kernel

theorem test_meets_KevenlinkIdentifies_1 : (let s := W.kvl 4 { sentSeen := true }
     let t := s.wn (Reg.KVL_PEER_IDENT (Config.kvlField 7)) 0
     let u := t.setKvl 7 { t.kvlPort 7 with seen := true, peerSeen := true, peerCtrl := 0, peerData := 0 }
     s.kvlState 7 = 4 ∧ (u.kvlPort 7).peerSeen = true ∧ (u.kvlPort 7).sentSeen = true ∧ u.kvlState 7 = 4 ∧ t.kvlState 7 = 4) ∧
    (let t := (W.kvl 4 {}).wn (Reg.KVL_PEER_IDENT (Config.kvlField 7)) 0
     ((t.setKvl 7 { t.kvlPort 7 with seen := true }).kvlPort 7).peerSeen = false) := by
  decide +kernel

theorem test_meets_KevenlinkIdentifies_2 : (W.kvl 4 {}).kvlState 7 = 4 := by
  decide +kernel

theorem test_meets_KevenlinkGoesDown_1 : (W.kvl 5 {}).kvlReason .bursar 7 = none ∧ (W.kvl 5 {}).kvlState 7 = 5 := by
  decide +kernel

theorem test_meets_KevenlinkGoesDown_2 : (W.kvl 5 {}).kvlState 7 = 5 := by
  decide +kernel

theorem test_meets_KevenlinkGoesDown_3 : (W.kvl 5 {}).kvlState 7 = 5 ∧ ((W.kvl 5 {}).kvlFec 7 0 3).kvlState 7 = 5 := by
  decide +kernel

theorem test_meets_KevenlinkGoesDown_4 : (W.kvl 5 {}).kvlState 7 = 5 := by
  decide +kernel

theorem test_meets_KevenlinkFramesFlow_1 : (let s := W.kvl 5 { rxNext := 4095 }
     let t := s.kvlFec 7 0 0
     s.kvlState 7 = 5 ∧ (t.kvlPort 7).discard = false ∧ 4095 = (t.kvlPort 7).rxNext ∧
       1 ≤ ((t.kvlPort 7).rxNext + 4096 - 2047) % 4096 ∧ ((t.kvlPort 7).rxNext + 4096 - 2047) % 4096 ≤ 2048) := by
  decide +kernel

theorem test_meets_KevenlinkFramesFlow_2 : (let s := W.kvl 5 { replay := [{ seq := 4095, msg := { kind := 5 } }] }
     s.kvlState 7 = 5 ∧ (s.kvlPort 7).replay.any (fun f => f.seq = 4095) = true) := by
  decide +kernel

theorem test_meets_KevenlinkFramesFlow_3 : (W.kvl 5 {}).kvlState 7 = 5 := by
  decide +kernel

theorem test_meets_KevenlinkFramesFlow_4 : (W.kvl 5 {}).kvlState 7 = 5 := by
  decide +kernel

theorem test_meets_KevenlinkFramesFlow_5 : (W.kvl 5 { discard := true }).kvlState 7 = 5 := by
  decide +kernel

theorem test_meets_KevenlinkFramesFlow_6 : (W.kvl 4 {}).kvlState 7 = 4 := by
  decide +kernel

theorem test_meets_KevenlinkTimersRun_1 : (W.kvl 5 {}).kvlState 7 = 5 := by
  decide +kernel

theorem test_meets_KevenlinkTimersRun_2 : ((W.kvl 5 { replay := [{ seq := 4095, msg := { kind := 5 } }] }).kvlPort 7).replay = [{ seq := 4095, msg := { kind := 5 } }] ∧
    (W.kvl 5 { replay := [{ seq := 4095, msg := { kind := 5 } }] }).kvlState 7 = 5 := by
  decide +kernel

theorem test_meets_KevenlinkTimersRun_3 : ((W.kvl 5 { lnakAt := some 7 }).kvlPort 7).lnakAt = some 7 ∧ (W.kvl 5 { lnakAt := some 7 }).kvlState 7 = 5 := by
  decide +kernel

theorem test_meets_KevenlinkTimersRun_4 : (let f : KvlFrame := { seq := 4095, msg := { kind := 5 } }
     let s := W.kvl 5 { replay := [f] }
     [f] = (s.kvlPort 7).replay.dropWhile (fun f => f.seq ≠ 4095) ∧ f.resends < s.rf (Reg.KVL_CTL (Config.kvlField 7)) 15 8) := by
  decide +kernel

theorem test_meets_SensorControlsRun_1 : (let s := W.snp 0 {}
     s.fieldReason (.vf 1) (Config.snpField 7) = none ∧ s.hostOf (.vf 1) (Config.snpField 7) = true ∧ s.snpState 7 = 0 ∧ s.snpStartErr 7 = some 1) ∧
    (W.snpOk.snpStartErr 7 = none ∧ W.snpOk.snpState 7 = 0) := by
  decide +kernel

theorem test_meets_SensorControlsRun_2 : (let s := W.snp 1 {}
     s.fieldReason (.vf 1) (Config.snpField 7) = none ∧ s.hostOf (.vf 1) (Config.snpField 7) = true ∧ s.snpState 7 = 1) ∧ (let s := W.snp 2 {}
     s.fieldReason (.vf 1) (Config.snpField 7) = none ∧ s.hostOf (.vf 1) (Config.snpField 7) = true ∧ s.snpState 7 = 2) := by
  decide +kernel

theorem test_meets_SensorControlsRun_3 : (let s := W.snp 2 {}
     s.fieldReason (.vf 1) (Config.snpField 7) = none ∧ s.hostOf (.vf 1) (Config.snpField 7) = true) := by
  decide +kernel

theorem test_meets_SensorControlsRun_4 : (let s := W.snp 0 {}
     s.fieldReason (.vf 1) (Config.snpField 7) = none ∧ s.hostOf (.vf 1) (Config.snpField 7) = true ∧ s.snpState 7 = 0) ∧ (W.snp 4 {}).snpState 7 ≠ 0 := by
  decide +kernel

theorem test_meets_SensorControlsRun_5 : (let s := W.snp 2 {}
     s.fieldReason (.vf 1) (Config.snpField 7) = none ∧ s.hostOf (.vf 1) (Config.snpField 7) = true) := by
  decide +kernel

theorem test_meets_SensorControlsRun_6 : (let s := W.snp 0 {}
     s.fieldReason (.vf 1) (Config.snpField 7) = none ∧ s.hostOf (.vf 1) (Config.snpField 7) = true ∧ s.snpState 7 = 0) ∧ ((W.snp 2 {}).snpState 7 ≠ 0 ∧
    ((W.snp 2 {}).rd (snpReg2 Reg.SNP_OROUTE 7 1)).getLsbD 40 = false ∧
    bitsOf ((W.snp 2 {}).rd (snpReg2 Reg.SNP_OROUTE 7 1)) 57 32 ≠ nbits (2 ^ 57) 57 32) := by
  decide +kernel

theorem test_meets_SensorControlsRun_7 : (let s := W.snp 0 {}
     s.fieldReason (.vf 1) (Config.snpField 7) = none ∧ s.hostOf (.vf 1) (Config.snpField 7) = true ∧ ((s.snpPort 7).inp 1).frames = []) := by
  decide +kernel

theorem test_meets_SensorFramesRun_1 : (let s := W.snp 2 { live := true }
     s.isFull (Config.snpField 7) = true ∧ s.snpState 7 ≠ 0 ∧ (s.snpPort 7).live = true) := by
  decide +kernel

theorem test_meets_SensorFramesRun_2 : (let s := W.snp 2 { ins := [(1, { frames := [[1]] })] }
     ((s.snpPort 7).inp 1).frames ≠ [] ∧ ((s.snpPort 7).inp 1).frames.length = routeG ((s.snpPort 7).inp 1).route) := by
  decide +kernel

theorem test_meets_SensorFramesRun_3 : (W.snp 2 {}).snpState 7 ≠ 0 ∧ (W.snp 2 {}).snpState 7 ≠ 4 := by
  decide +kernel

theorem test_meets_SensorFramesRun_4 : (((W.snp 2 { slots := [(31, { pend := some ({}, 1000000) })] }).snpPort 7).slot 31).pend = some ({}, 1000000) := by
  decide +kernel

theorem test_meets_IslandCommandsRun_1 : (let s := W.isl {}
     let fn := Config.utxField 7
     s.fieldReason (.vf 1) fn = none ∧ (s.islCfg fn 0).present = true ∧ s.hostOf (.vf 1) fn = true ∧ 255 < (s.islCfg fn 0).regs ∧ s.islRuns fn 0 = true) := by
  decide +kernel

theorem test_meets_IslandCommandsRun_2 : ((W.isl { reads := [{ who := .pf0, off := 0, time := 5 }] }).island (Config.utxField 7) 0).reads =
      [{ who := .pf0, off := 0, time := 5 }] := by
  decide +kernel

theorem test_meets_IslandCommandsRun_3 : ((W.isl { reads := [{ who := .pf0, off := 0, time := 5 }] }).island (Config.utxField 7) 0).reads.find? (fun r => !r.late) =
      some { who := .pf0, off := 0, time := 5 } := by
  decide +kernel

theorem test_meets_IslandCommandsRun_6 : ((W.isl { writes := [{ who := .pf0, off := 0, time := 5 }] }).island (Config.utxField 7) 0).writes =
      [{ who := .pf0, off := 0, time := 5 }] := by
  decide +kernel

theorem test_meets_IslandCommandsRun_4 : (let s := W.isl {}
     let fn := Config.utxField 7
     s.fieldReason (.vf 1) fn = none ∧ (s.islCfg fn 0).present = true ∧ s.hostOf (.vf 1) fn = true ∧ (s.field fn).stopped 16 = false) := by
  decide +kernel

theorem test_meets_IslandCommandsRun_5 : (let s := W.isl {}
     let fn := Config.utxField 7
     s.fieldReason (.vf 1) fn = none ∧ (s.islCfg fn 0).present = true ∧ s.hostOf (.vf 1) fn = true ∧ (s.island fn 0).rstLow = false ∧ (s.island fn 0).inItem = false) := by
  decide +kernel

theorem test_meets_IslandPortsRun_1 : (let s := W.isl { inq := List.replicate 31 [] }
     let fn := Config.utxField 7
     s.islRuns fn 0 = true ∧ nbit (s.islCfg fn 0).attach 0 = true ∧ (s.island fn 0).resync = false ∧
       (s.island fn 0).inq.length < 32) ∧
    ((W.isl { resync := true }).island (Config.utxField 7) 0).resync = true := by
  decide +kernel

theorem test_meets_IslandPortsRun_2 : (let s := W.isl { ss := List.replicate 15 { op := 0, addr := 0, data := 0, tally := 0 } }
     let fn := Config.utxField 7
     s.islRuns fn 0 = true ∧ nbit (s.islCfg fn 0).attach 2 = true ∧ (s.island fn 0).ss.length < 16) := by
  decide +kernel

theorem test_meets_IslandPortsRun_3 : (let s := W.isl { rxFill := [(3, 64)], rxAt := [(3, 1000000)] }
     let fn := Config.utxField 7
     s.laneIsland 31 = some (fn, 0) ∧ 64 ≤ tget 0 (s.island fn 0).rxFill 3 -
       (s.now - tget 0 (s.island fn 0).rxAt 3) * tget 0 s.brs.islFreq fn / 1000) ∧
    (W.isl {}).laneIsland 31 = some (Config.utxField 7, 0) ∧ tget 0 ((W.isl {}).island (Config.utxField 7) 0).rxFill 3 < 64 := by
  decide +kernel

theorem test_meets_IslandPortsRun_4 : (W.isl {}).laneIsland 28 = some (Config.utxField 7, 0) := by
  decide +kernel

theorem test_meets_IslandPortsRun_5 : (let s := W.isl { attnAt := some 990001, attnX := some 1000000 }
     let fn := Config.utxField 7
     s.islRuns fn 0 = true ∧ (s.island fn 0).upAt + 4 ≤ s.now ∧ ((s.island fn 0).attnCross s.now).isSome = true ∧
       (s.island fn 0).attnAt = some 990001 ∧ s.now < 990001 + 10000) ∧
    ((W.isl {}).island (Config.utxField 7) 0).attnAt = none := by
  decide +kernel

theorem test_meets_StoreControlsRun_1 : (let s := W.up
     s.slotReason (.vf 1) 44 0 = none ∧ s.tellerOrOwner (.vf 1) 44 0 = true ∧ nbits 4 2 0 ≠ s.rf (Reg.STO_NSP_CFG 44 0) 2 0 ∧
       (s.core 44 0).idle = true ∧ s.rb (Reg.STO_NSP_CFG 44 0) 31 = false ∧
       (List.range 64).any (fun w => (s.window (ownerKey 44 0) w).state = 1) = false ∧ 4 < nbits 5 2 0) := by
  decide +kernel

theorem test_meets_StoreControlsRun_2 : regsWf W.up.regs ∧ W.up.slotReason .pf0 44 0 = none ∧ W.up.storeWriter .pf0 44 = true := by
  decide +kernel

theorem test_meets_StoreControlsRun_3 : (let s := (W.up.setb (Reg.STO_PATROL_CTL 44) 31).wf (Reg.STO_PATROL_CTL 44) 5 0 20
     s.isFull 44 = true ∧ s.rb (Reg.STO_PATROL_CTL 44) 31 = true ∧ s.rf (Reg.STO_PATROL_CTL 44) 5 0 ≠ 0) := by
  decide +kernel

theorem test_meets_EntryPowerRuns_1 : State.reset.car.entryUp = false ∧ State.reset.car.trip = false := by
  decide +kernel

theorem test_meets_EntryPowerRuns_2 : W.up.clock = true ∧ (W.up.until (max (W.up.car.tick + 10000) W.up.now)).car.resetWait = none := by
  decide +kernel

theorem test_meets_EntryPowerRuns_3 : (let s : State := { W.up with car := { W.up.car with outSince := some 0, tick := 1000000 } }
     s.brs.running = true ∧ s.car.emergency = false ∧ s.car.outSince = some 0 ∧ 0 + 1000000 ≤ s.car.tick) := by
  decide +kernel

theorem test_meets_EntryPowerRuns_4 : (let s : State := { W.up with car := { W.up.car with tripSince := some 0, tick := 20000 } }
     s.car.tripSince = some 0 ∧ 0 + 20000 ≤ s.car.tick ∧ s.car.trip = false) := by
  decide +kernel

theorem test_meets_EntryPowerRuns_5 : (let s : State := { W.up with car := { W.up.car with inSince := some 0, trip := true, tick := 100000000 } }
     s.car.inSince = some 0 ∧ s.car.trip = true ∧ 0 + 100000000 ≤ s.car.tick) := by
  decide +kernel

theorem test_meets_SequencingRuns_1 : (let s : State := { W.up with brs := { W.up.brs with ons := [{ fn := 46, target := .full, entry := 1, who := 0 }] } }
     s.clock = true ∧ s.car.emergency = false ∧ nextOns s.brs.ons ≠ []) := by
  decide +kernel

theorem test_meets_SequencingRuns_2 : (let s : State := { W.up with brs := { W.up.brs with offs := [{ fn := 45, target := .off, entry := 0, who := 15 }] } }
     s.brs.offs = [{ fn := 45, target := .off, entry := 0, who := 15 }]) := by
  decide +kernel

theorem test_meets_SequencingRuns_3 : (let s := W.up.setField 54 { W.field with joined := false, power := .moving, baseAt := 0 }
     s.joining 54 = true ∧ s.hasParent 54 = true ∧ s.now ≤ (s.field 54).baseAt + 1000000) := by
  decide +kernel

theorem test_meets_SequencingRuns_4 : (W.up.setField 54 { W.field with joined := false, power := .base }).joining 54 = true := by
  decide +kernel

theorem test_meets_TimebaseRuns_1 : W.up.clock = true ∧ W.up.powered W.up.anchor = true ∧ W.up.tbsState W.up.anchor ≠ 4 := by
  decide +kernel

theorem test_meets_TimebaseRuns_2 : (let s := W.up.wf (Reg.TBS_STATUS 44) 2 0 4
     s.clock = true ∧ s.powered s.anchor = true ∧ s.tbsState s.anchor = 4) := by
  decide +kernel

theorem test_meets_TimebaseRuns_3 : (let s := W.up.wf (Reg.TBS_STATUS 45) 2 0 3
     s.powered 45 = true ∧ (s.field 45).joined = true ∧ s.tbsState 45 = 3 ∧ 45 ≠ s.anchor) := by
  decide +kernel

theorem test_meets_TimebaseRuns_4 : W.up.powered 45 = true ∧ (W.up.field 45).joined = true ∧ W.up.tbsState 45 = 2 ∧ W.up.brs.indep = false ∧ 45 ≠ W.up.anchor := by
  decide +kernel

theorem test_meets_CaptureAndBeatmonRun_1 : (let s := (W.up.setb (Reg.TBS_CAPT_CTL 44) 6).setb (Reg.TBS_CAPT_CTL 44) 14
     s.powered 44 = true ∧ (s.field 44).joined = true ∧ s.captSource 44 6 = true ∧ s.rb (Reg.TBS_CAPT_CTL 44) 6 = true ∧
       s.rb (Reg.TBS_CAPT_CTL 44) (8 + 6) = true) := by
  decide +kernel

theorem test_meets_CaptureAndBeatmonRun_2 : W.up.fieldReason (.vf 1) 44 = none := by
  decide +kernel

theorem test_meets_CaptureAndBeatmonRun_3 : (let s := W.up.setb (Reg.FLD_BEATMON_CTL 45) 0
     s.powered 45 = true ∧ (s.field 45).joined = true ∧ s.rb (Reg.FLD_BEATMON_CTL 45) 0 = true) := by
  decide +kernel

theorem test_meets_CaptureAndBeatmonRun_4 : W.up.fieldReason (.vf 1) 44 = none ∧ W.up.rb (Reg.FLD_BEATMON_CTL 44) 0 = true ∧
    (W.up.clrb (Reg.FLD_BEATMON_CTL 44) 0).rb (Reg.FLD_BEATMON_CTL 44) 0 = false := by
  decide +kernel

theorem test_meets_PaceMarksAndStepsRun_1 : (let m : Msg := { kind := 8, dst := unitDst 45 9, a := 255, b := 7, d := 5, c := 1 }
     let s : State := W.arrived (W.up.setField 45 { W.field with mark0 := [(7, 3)] }) m
     let s : State := { s with brs := { s.brs with marks := [(255, [0, 9])] } }
     m.dstUnit = 9 ∧ m.dstFn = 45 ∧ s.atDest m = true ∧ s.isFull 45 = true ∧
       s.rf (Reg.FLD_PWR_STATE 45) 31 24 = m.a ∧ m.c ≠ 0 ∧ (s.field 45).mark0.find? (fun e => e.1 = m.b) = some (7, 3) ∧
       (tget [] s.brs.marks m.a)[m.c]? = some 9) := by
  decide +kernel

theorem test_meets_PaceMarksAndStepsRun_2 : W.up.isFull 45 = true ∧ (W.up.field 45).loopHeld = false := by
  decide +kernel

theorem test_meets_PaceMarksAndStepsRun_3 : W.up.isFull 45 = true ∧ (W.up.field 45).hkUp = true ∧ (W.up.field 45).loopHeld = false := by
  decide +kernel

theorem test_meets_PaceMarksAndStepsRun_4 : W.up.isFull 45 = true ∧ (W.up.field 45).hotSince = none ∧
    (let s := W.up.setField 45 { W.field with hotSince := some 0 }
     s.isFull 45 = true ∧ (s.field 45).hotSince = some 0 ∧ 0 + 1000000 ≤ s.now) ∧
    (let s := W.up.setField 45 { W.field with power := .base, tripped := true }
     s.isFull 45 = false ∧ (s.field 45).tripped = true) := by
  decide +kernel

theorem test_meets_PolicyWritesRun_1 : W.up.fieldReason (.vf 1) 44 = none ∧ policyOk 0x10323232 = true ∧ policyOk 0x10333232 = false ∧
    (∃ v ∈ [0, 1, 2 ^ 32, 2 ^ 32 + 1, 2 ^ 63], slackOk v = true) ∧ (∃ v ∈ [0, 1, 2 ^ 31, 2 ^ 32 - 1, 2 ^ 63], slackOk v = false) := by
  decide +kernel

theorem test_meets_PolicyWritesRun_2 : W.up.brs.recovery = false ∧ (W.up.part 0).defined = true ∧ policyOk 0x10323232 = true ∧ policyOk 0 = false := by
  decide +kernel

theorem test_meets_PolicyWritesRun_3 : W.up.fieldReason .bursar 44 = none ∧ nbits 140 7 0 = 140 ∧ 140 < nbits 141 7 0 := by
  decide +kernel

theorem test_meets_PolicyWritesRun_4 : W.up.fieldReason (.vf 1) 44 = none ∧ nbits 0x1007D0 20 16 = 16 ∧ nbits 0x1007D0 15 0 = 2000 ∧ 2000 < nbits 0x7D1 15 0 := by
  decide +kernel

theorem test_meets_HostAccessesRun_1 : (let s := W.up.setGrant (vfHolder 1) 63 { base := granBase 44 11, size := 64, scrip := 1, total := 1, state := 1 }
     let k := (s.granuleList 1).getD 0 0
     s.vfUp 1 = true ∧ (s.part 0).defined = true ∧ 0 < (s.granuleList 1).length ∧ 64 ≤ 2 ^ s.host.bar2Log ∧
       s.findGrant (vfHolder 1) (granBase (k / 12) (k % 12)) 64 = some 63 ∧ (s.grantOf (vfHolder 1) 63).scrip = 1 ∧
       W.up.findGrant (vfHolder 1) (granBase (k / 12) (k % 12)) 64 = none) := by
  decide +kernel

theorem test_meets_HostAccessesRun_2 : W.up.vfUp 1 = true ∧ (W.up.part 0).defined = true := by
  decide +kernel

theorem test_meets_HostAccessesRun_3 : (let s := W.up.setb (qCfg 3) 31
     s.vfUp 1 = true ∧ (s.part 0).defined = true ∧ s.bar2Pending 1 = false ∧ s.host.heldDb = [] ∧ s.qEnabled 3 = true ∧
       s.qAdmits 3 = true ∧ nbits 1 47 32 = s.qEpoch 3 ∧ s.rb (qStatus 3) 0 = false ∧ s.tailOk 3 (nbits 1 31 0) = true ∧
       (s.setb (qStatus 3) 0).rb (qStatus 3) 0 = true) ∧
    (W.sent W.up { holder := 0, grant := 0, tag := 0, units := 0, time := 0, dst := 0, job := .bar2 1 }).bar2Pending 1 = true := by
  decide +kernel

theorem test_meets_HostAccessesRun_4 : (let s : State := { W.up with host := { W.up.host with heldDb := [(1, 3, 1)] } }
     s.bar2Pending 1 = false ∧ s.host.heldDb.find? (fun x => x.1 = 1) = some (1, 3, 1)) := by
  decide +kernel

theorem test_meets_HostResetsRun_1 : W.up.vfUp 1 = true := by
  decide +kernel

theorem test_meets_HostResetsRun_2 : W.up.host.linkUp = true := by
  decide +kernel

theorem test_meets_HostResetsRun_3 : W.up.host.perst = false := by
  decide +kernel

theorem test_meets_HostResetsRun_4 : W.up.host.linkUp = true := by
  decide +kernel

theorem test_meets_HostResetsRun_5 : (let s : State := { W.up with host := { W.up.host with linkUp := false } }
     s.powered s.anchor = true ∧ s.host.linkUp = false ∧ s.rb Reg.HST_READY 0 = true) := by
  decide +kernel

theorem test_meets_HostTransactionsRun_1 : (let r : DmaRead := { tag := 3, func := 1, addr := 0, len := 64, what := .ring 3 0 1 }
     let s : State := { W.up with host := { W.up.host with reads := [r] } }
     s.readOf 3 = some r ∧ r.len = 64) := by
  decide +kernel

theorem test_meets_HostTransactionsRun_2 : (let r : DmaRead := { tag := 3, func := 1, addr := 0, len := 64, what := .ring 3 0 1 }
     let s : State := { W.up with host := { W.up.host with reads := [r] } }
     s.host.linkUp = true ∧ s.readOf 3 = some r) := by
  decide +kernel

theorem test_meets_HostTransactionsRun_3 : W.up.host.linkUp = true ∧ Reg.win 0 ≤ Reg.win 44 ∧ Reg.win 44 < Reg.win 100 ∧
    W.up.fieldReason .pf0 ((Reg.win 44 - Reg.win 0) / 0x40000) = none := by
  decide +kernel

theorem test_meets_HostTransactionsRun_4 : (let s := W.up.setb (msixPba 1) 15
     s.host.linkUp = true ∧ s.vfUp 1 = true ∧ 15 < vectorsOf 1 ∧ s.rb (msixPba 1) 15 = true) := by
  decide +kernel

theorem test_meets_QueueRegistersRun_1 : W.up.queReason (.vf 1) (keyPart 256 3) = none ∧ W.up.qExists 3 = true ∧ W.up.queReason .pf0 (keyPart 256 4111) = none ∧ W.up.qExists 4111 = true := by
  decide +kernel

theorem test_meets_QueueRegistersRun_2 : (let s := W.up.setb (Reg.QUE_CTX_CFG 0 3) 31
     s.queReason .pf0 (keyPart 256 3) = none ∧ s.qExists 3 = true ∧ (0x80030003 : Nat).testBit 31 = true ∧ s.ctxOn 0 (nbits 0x80030003 21 16) = true ∧ (0x80030003 : Nat).testBit 30 = false) := by
  decide +kernel

theorem test_meets_QueueRegistersRun_3 : (let s := W.up.wf (Reg.QUE_CTX_STATE 0 3) 1 0 2
     s.queReason (.vf 1) (keyPart 64 3) = none ∧ s.ctxExists 3 = true ∧ s.rf (Reg.QUE_CTX_STATE 0 3) 1 0 = 2) := by
  decide +kernel

theorem test_meets_QueueRegistersRun_4 : W.up.queReason (.vf 1) (keyPart 64 3) = none ∧ W.up.ctxExists 3 = true ∧ W.up.queReason .pf0 (keyPart 64 4111) = none ∧ W.up.ctxExists 4111 = true := by
  decide +kernel

theorem test_meets_QueueRegistersRun_5 : W.up.queReason .pf0 16 = none ∧ W.up.queReason (.vf 1) 0 = none := by
  decide +kernel

theorem test_meets_QueueRegistersRun_6 : W.up.queReason (.vf 1) 0 = none ∧
    ((List.range (routesOf 1)).map (fun i => (i, W.up.stagedRoute 1 i))).all (fun e => routeEntryOk 1 e.2) = true ∧
    (let s := W.up.wn (Reg.QUE_EVT_ROUTE 0 0) (2 ^ 62)
     ((List.range (routesOf 1)).map (fun i => (i, s.stagedRoute 1 i))).all (fun e => routeEntryOk 1 e.2) = false) := by
  decide +kernel

theorem test_meets_ItemsStartAndComplete_1 : (let s := W.ready
     s.mayStart 4097 = true ∧ s.isOldest 4097 = true ∧ s.qHeadItem 4097 = .item W.readyItem) := by
  decide +kernel

theorem test_meets_ItemsStartAndComplete_2 : (let s := W.ready.setQueue 4097 { W.ready.queue 4097 with waitSince := some 5 }
     s.qHeadItem 4097 = .item W.readyItem ∧ (s.queue 4097).waitSince = some 5) := by
  decide +kernel

theorem test_meets_ItemsStartAndComplete_3 : (let s := { W.up with host := { W.up.host with started := [{ W.started (W.bare 0) with status := some 0 }] } }
     s.item 1 = some { W.started (W.bare 0) with status := some 0 } ∧ s.completeNext { W.started (W.bare 0) with status := some 0 } = true) := by
  decide +kernel

theorem test_meets_WatchdogsRun_1 : W.up.powered 45 = true ∧ (W.up.field 45).hkUp = true := by
  decide +kernel

theorem test_meets_WatchdogsRun_2 : W.up.isFull 45 = true ∧ (W.up.field 45).hkUp = true := by
  decide +kernel

theorem test_meets_WatchdogsRun_3 : W.up.powered 45 = true ∧ (W.up.field 45).hkUp = true ∧ 45 ≠ W.up.anchor ∧ W.up.brs.running = true := by
  decide +kernel

theorem test_meets_WatchdogsRun_4 : ∀ n ∈ [0x07, 0x0B, 0x30C], (let s := (W.up.setb (Reg.GZC_STATUS 44 0) 2).wf (Reg.GZC_LAST_ERR 44 0) 47 32 n
     s.isFull 44 = true ∧ s.present 44 0 = true ∧ s.tellerRuns 44 0 = true ∧ s.halted 44 0 = true ∧ (s.core 44 0).flushAt = none ∧
       (s.core 44 0).unrepairable = false) := by
  decide +kernel

theorem test_meets_WatchdogsRun_5 : (let s := W.up.wf Reg.AXB_GRADE 31 24 0xFF
     s.brs.running = true ∧ s.clock = true ∧ s.standby = none) := by
  decide +kernel

theorem test_meets_RecoveryRuns_5 : W.up.brs.running = true ∧ W.up.clock = true ∧ W.up.standby = some 55 := by
  decide +kernel

theorem test_meets_RecoveryRuns_6 : W.up.brs.running = true ∧ W.up.standby = some 55 ∧ (W.up.field 55).hkUp = true := by
  decide +kernel

theorem test_meets_PinCommandsRun_5 : W.up.brs.running = true ∧ W.up.clock = true := by
  decide +kernel

theorem test_meets_RecoveryRuns_1 : (let s := (W.up.setb (Reg.FLD_CFG_STATUS 45) 31).setb (Reg.FLD_SCRUB_CTL 45) 31
     let t := s.until ((s.field 45).scrubAt + 1000 * s.rf (Reg.FLD_SCRUB_CTL 45) 9 0)
     s.powered 45 = true ∧ (s.field 45).hkUp = true ∧ s.rb (Reg.FLD_CFG_STATUS 45) 31 = true ∧
       s.rb (Reg.FLD_SCRUB_CTL 45) 31 = true ∧ (t.field 45).frameOwner (scrubFrameAt (t.field 45).scrubNext) = 0xFF ∧ (t.field 45).repair = [] ∧ (t.field 45).stopped 0 = false ∧
       (∀ k < 4, (((t.setField 45 { t.field 45 with scrubAt := t.now }).scrubNext 45).core 45 k).held = false)) := by
  decide +kernel

theorem test_meets_RecoveryRuns_2 : (let s := W.up.setField 45 { W.field with repair := [7, 8] }
     let t := s.setField 45 { s.field 45 with repair := [8] }
     (s.field 45).repair = [7, 8] ∧ s.rb Reg.AXB_CFG_STATUS 8 = true ∧ s.owner 45 < 16 ∧ t.partState (s.owner 45) ≠ 0 ∧
       t.partState (s.owner 45) ≠ 4) ∧
    ((W.up.setField 46 { W.field with part := 0xFF, repair := [7] }).field 46).repair = [7] ∧
    16 ≤ (W.up.setField 46 { W.field with part := 0xFF, repair := [7] }).owner 46 := by
  decide +kernel

theorem test_meets_RecoveryRuns_3 : ((W.up.setLease 4095 { W.up.lease 4095 with state := 2 }).lease 4095).state = 2 := by
  decide +kernel

theorem test_meets_RecoveryRuns_4 : W.up.moduleReason .pf0 = none := by
  decide +kernel

theorem test_meets_RegisterAccessesRun_1 : Who.pf0 ≠ .smbus ∧ W.up.resolve .pf0 (Reg.TLY_VALUE 1023) = (Reg.TLY_VALUE 1023, none) ∧ Reg.TLY_VALUE 1023 + 8 ≤ 0x4000000 ∧
    Reg.TLY_VALUE 1023 % 8 = 0 ∧ W.up.accessReason .pf0 (Reg.TLY_VALUE 1023) true = none ∧
    (Reg.row? (Reg.TLY_VALUE 1023)).any (fun r => r.width = 64) = true := by
  decide +kernel

theorem test_meets_RegisterAccessesRun_2 : W.up.resolve .pf0 Reg.AXB_GPIO = (Reg.AXB_GPIO, none) ∧ Reg.AXB_GPIO + 4 ≤ 0x4000000 ∧ Reg.AXB_GPIO % 4 = 0 ∧
    W.up.accessReason .pf0 Reg.AXB_GPIO true = none ∧
    (Reg.holding Reg.AXB_GPIO).any (fun x => x.1 = Reg.AXB_GPIO && x.2.1.width = 32 && !x.2.2) = true := by
  decide +kernel

theorem test_meets_RegisterAccessesRun_3 : W.up.resolve .pf0 (Reg.TLY_VALUE 1023) = (Reg.TLY_VALUE 1023, none) ∧ Reg.TLY_VALUE 1023 % 4 = 0 ∧
    W.up.accessReason .pf0 (Reg.TLY_VALUE 1023) true = none ∧
    (Reg.holding (Reg.TLY_VALUE 1023)).any (fun x => x.1 = Reg.TLY_VALUE 1023 && x.2.1.width = 64 && !x.2.2) = true := by
  decide +kernel

theorem test_meets_RegisterAccessesRun_4 : W.up.resolve .pf0 (Reg.TLY_VALUE 1023 + 4) = (Reg.TLY_VALUE 1023 + 4, none) ∧ (Reg.TLY_VALUE 1023 + 4) % 4 = 0 ∧
    W.up.accessReason .pf0 (Reg.TLY_VALUE 1023 + 4) true = none ∧
    (Reg.holding (Reg.TLY_VALUE 1023 + 4)).any (fun x => x.1 = Reg.TLY_VALUE 1023 && x.2.1.width = 64 && x.2.2) = true := by
  decide +kernel

theorem test_meets_RegisterAccessesRun_5 : W.up.resolve .pf0 (Reg.TLY_VALUE 1023) = (Reg.TLY_VALUE 1023, none) ∧
    W.up.accessReason .pf0 (Reg.TLY_VALUE 1023) false = none ∧ Reg.TLY_VALUE 1023 < 0x1000000 ∧
    (Reg.row? (Reg.TLY_VALUE 1023)).any (fun r => r.width = 64) = true ∧ Reg.TLY_VALUE 1023 ≠ Reg.AXB_LEASE_HI := by
  decide +kernel

theorem test_meets_RegisterAccessesRun_6 : (let s := W.up.latch .pf0 (Reg.TLY_VALUE 1023) false 7
     s.resolve .pf0 (Reg.TLY_VALUE 1023 + 4) = (Reg.TLY_VALUE 1023 + 4, none) ∧
       s.accessReason .pf0 (Reg.TLY_VALUE 1023 + 4) false = none ∧ Reg.TLY_VALUE 1023 + 4 < 0x1000000 ∧
       s.latchOf .pf0 (Reg.TLY_VALUE 1023) false = some 7) := by
  decide +kernel

theorem test_meets_RegisterAccessesRun_8 : narrowOf .pf0 2 = none ∧ 2 % 4 ≠ 0 ∧ narrowOf (.teller 44 0) (2 ^ 40 - 1) = none := by
  decide +kernel

theorem test_meets_RegisterAccessesRun_9 : W.up.narrowSlot 44 0 (nearBase 44 0 + 8) = some 0 ∧ 2 ^ 40 ≤ nearBase 44 0 + 8 ∧
    W.up.gleanAddr 44 0 (nearBase 44 0 + 8) = false ∧
    ((W.up.narrowWait 44 0 (nearBase 44 0 + 8)).narrowRead 44 0 (nearBase 44 0 + 8)).2.1 = none := by
  decide +kernel

theorem test_meets_JtagInstructionsRun_1 : W.up.car.entryUp = true := by
  decide +kernel

theorem test_meets_JtagInstructionsRun_2 : W.up.car.entryUp = true := by
  decide +kernel

theorem test_meets_JtagInstructionsRun_3 : W.up.car.entryUp = true := by
  decide +kernel

theorem test_meets_JtagInstructionsRun_4 : W.up.car.entryUp = true := by
  decide +kernel

theorem test_meets_JtagInstructionsRun_5 : W.up.car.entryUp = true ∧ W.up.brs.testMode = false ∧
    (let s : State := { W.up with brs := { W.up.brs with testMode := true } }
     s.car.entryUp = true ∧ s.brs.testMode = true) := by
  decide +kernel

theorem test_meets_SmbusCommandsRun_1 : W.up.car.entryUp = true := by
  decide +kernel

theorem test_meets_SmbusCommandsRun_2 : W.up.car.entryUp = true := by
  decide +kernel

theorem test_meets_SmbusCommandsRun_3 : W.up.car.entryUp = true := by
  decide +kernel

theorem test_meets_SmbusCommandsRun_4 : W.up.car.entryUp = true := by
  decide +kernel

theorem test_meets_SmbusCommandsRun_5 : W.up.car.entryUp = true := by
  decide +kernel

theorem test_meets_SmbusCommandsRun_6 : W.up.car.entryUp = true ∧ W.up.car.regOffset % 4 = 0 ∧ W.up.car.regOffset ≤ 0xFFFFFC ∧ W.up.brs.running = true := by
  decide +kernel

theorem test_meets_SmbusCommandsRun_7 : W.up.car.entryUp = true := by
  decide +kernel

theorem test_meets_SmbusCommandsRun_8 : (let s : State := { W.up with car := { W.up.car with alertLow := true } }
     s.car.entryUp = true ∧ s.car.alertLow = true) := by
  decide +kernel

theorem test_meets_PinCommandsRun_1 : W.up.car.rstLow = false := by
  decide +kernel

theorem test_meets_PinCommandsRun_2 : (let s : State := { W.up with car := { W.up.car with rstLow := true } }
     s.car.rstLow = true) := by
  decide +kernel

theorem test_meets_PinCommandsRun_3 : W.up.brs.running = true ∧ Config.sitePresent 45 = true ∧ W.up.usable 45 = true ∧ W.up.car.regulator.contains 45 = true := by
  decide +kernel

theorem test_meets_PinCommandsRun_4 : W.up.moduleReason .bursar = none := by
  decide +kernel

theorem test_meets_EmptyQueueTicks : W.up.pending = [] ∧ W.up.clock = true ∧ State.reset.pending = [] ∧ State.reset.clock = false := by
  decide +kernel

theorem test_meets_CanonicalKept : W.up.Canonical := by
  constructor <;> decide +kernel

theorem test_meets_FusesGoOneWay : W.up.keysLive := by
  unfold State.keysLive
  decide +kernel

theorem test_meets_FusesAndFlashChangeOnlyByTheirCommands_1 : (let it := W.mgmt (W.put (W.bare 0x4D) 0x20 [3, 63])
     W.answers (exec (.raiseSvn it true) (W.item it)) (fun t => decide (t.car.fuses ≠ (W.item it).car.fuses)) = true) := by
  decide +kernel

theorem test_meets_FusesAndFlashChangeOnlyByTheirCommands_2 : (Instr.messageRoute 0).mayWriteFlash = false ∧ (Instr.messageRoute 0).mayChangeCarrier = false ∧
    W.answers (exec (.messageRoute 0) W.up) (fun _ => true) = true := by
  decide +kernel

theorem test_meets_StoresKept_1 : W.answers (exec (.messageRoute 0) W.up) (fun _ => true) = true ∧ (Instr.messageRoute 0).mayStore = false := by
  decide +kernel

theorem test_meets_StoresKept_2 : W.answers (exec (.deposit { kind := 1 }) W.up) (fun _ => true) = true := by
  decide +kernel

theorem test_meets_StoresKept_3 : memoryWf W.up.mem := by
  decide +kernel

theorem test_meets_UnitsKept : W.answers (exec .idcode W.up) (fun _ => true) = true ∧ Instr.idcode.mayPassTime = false ∧
    Instr.idcode.mayWriteRegisters = false ∧ Instr.idcode.mayChangeFields = false ∧ Instr.idcode.mayChangeCores = false ∧
    Instr.idcode.mayChangeLinks = false ∧ Instr.idcode.mayChangeSensors = false ∧ Instr.idcode.mayChangeIslands = false ∧
    Instr.idcode.mayChangeLeases = false ∧ Instr.idcode.mayChangeBursar = false ∧ Instr.idcode.mayChangeMesh = false := by
  decide +kernel

theorem test_meets_WatchdogWithoutStandbyResets : (let s := W.up.wf Reg.AXB_GRADE 31 24 0xFF
     s.brs.running = true ∧ s.clock = true ∧ s.rf Reg.AXB_GRADE 31 24 = 0xFF) := by
  decide +kernel

theorem test_meets_BeatmonWritesTakeEffect_1 : (let s := W.up.setb (Reg.FLD_BEATMON_CTL 44) 0
     s.Canonical ∧ s.fieldReason (.vf 1) 44 = none ∧ s.rb (Reg.FLD_BEATMON_CTL 44) 0 = true) ∧
    W.up.fieldReason (.vf 1) 44 = none := by
  refine ⟨⟨⟨?_, ?_, ?_, ?_, ?_, ?_, ?_, ?_, ?_, ?_⟩, ?_, ?_⟩, ?_⟩ <;> decide +kernel

theorem test_meets_BeatmonWritesTakeEffect_2 : (let s := W.up.setb (Reg.FLD_BEATMON_CTL 45) 0
     s.Canonical ∧ s.powered 45 = true ∧ (s.field 45).joined = true ∧ s.rb (Reg.FLD_BEATMON_CTL 45) 0 = true) := by
  refine ⟨⟨?_, ?_, ?_, ?_, ?_, ?_, ?_, ?_, ?_, ?_⟩, ?_, ?_, ?_⟩ <;> decide +kernel

theorem test_meets_AbsentSlotReadsZero : (let a := Reg.win 44 + 0x20000 + 0x1000 * 3 + 0x18
     W.up.resolve .pf0 a = (a, none) ∧ a + 4 ≤ Who.barSize .pf0 ∧ a % 4 = 0 ∧ W.up.brs.recovery = false ∧
       W.up.fieldReason .pf0 44 = none ∧ (Reg.locate a).isSome = true ∧ W.up.present 44 3 = false) := by
  decide +kernel

theorem test_meets_MsixSendsOrPends : regsWf W.up.regs ∧ (W.up.clrb (msixData 1 15) 32).msixOpen 1 15 = true ∧ (W.up.setb (msixData 1 15) 32).msixOpen 1 15 = false ∧
    regsWf (W.up.clrb (msixData 1 15) 32).regs ∧ regsWf (W.up.setb (msixData 1 15) 32).regs := by
  decide +kernel

end Sys2Proof.Tests
end

/-! SUPPORT. Every command answers a next state that keeps what Safety's lists say it keeps; the step, and the invariant and the
frames that follow. -/

namespace Sys2Proof.Machine

/-- The pieces of state that command `c` leaves as they were: those whose list in Safety does not name it. -/
def leavesOf (c : Instr) : Facets where
  regs := c.mayWriteRegisters = false
  car := c.mayChangeCarrier = false
  brs := c.mayChangeBursar = false
  mesh := c.mayChangeMesh = false
  mem := c.mayStore = false
  fuses := ¬((∃ it ok, c = .revokeKey it ok) ∨ ∃ it ok, c = .raiseSvn it ok)
  flash := c.mayWriteFlash = false
  now := c.mayPassTime = false
  fields := c.mayChangeFields = false
  cores := c.mayChangeCores = false
  kvl := c.mayChangeLinks = false
  snp := c.mayChangeSensors = false
  isl := c.mayChangeIslands = false
  leases := c.mayChangeLeases = false

/-- Every command answers a next state, in which the pieces that it leaves stand as they were. -/
theorem exec_kept (c : Instr) (s : State) : KeptOut (leavesOf c) s (exec c s) := by
  cases c with
  | registerWrite => apply execRegisterWrite_kept (.rfl s) <;> nofun
  | lowWordRead => apply execLowWordRead_kept (.rfl s) <;> nofun
  | lowWordWrite => apply execLowWordWrite_kept (.rfl s) <;> nofun
  | highWordWrite => apply execHighWordWrite_kept (.rfl s) <;> nofun
  | powerUp => apply execPowerUp_kept (.rfl s) <;> nofun
  | sequencingStep => apply execSequencingStep_kept (.rfl s) <;> nofun
  | timebaseJoin => apply execTimebaseJoin_kept (.rfl s) <;> nofun
  | timebaseJoinFailure => apply execTimebaseJoinFailure_kept (.rfl s) <;> nofun
  | switchOffStep => apply execSwitchOffStep_kept (.rfl s) <;> nofun
  | entrySample => apply execEntrySample_kept (.rfl s) <;> nofun
  | emergencyPowerDown => apply execEmergencyPowerDown_kept (.rfl s) <;> nofun
  | carrierTrip => apply execCarrierTrip_kept (.rfl s) <;> nofun
  | tripRecovery => apply execTripRecovery_kept (.rfl s) <;> nofun
  | refClockLost => exact execRefClockLost_kept (.rfl s) nofun nofun
  | refClockRestored => exact execRefClockRestored_kept (.rfl s) nofun nofun
  | linkSyncExchange => apply execLinkSyncExchange_kept (.rfl s) <;> nofun
  | lockLoss => exact execLockLoss_kept (.rfl s) nofun nofun
  | recouple => exact execRecouple_kept (.rfl s) nofun nofun
  | captureEdge => exact execCaptureEdge_kept (.rfl s) nofun nofun
  | captureRead => exact execCaptureRead_kept (.rfl s) nofun nofun
  | beat => exact execBeat_kept (.rfl s) nofun nofun nofun nofun nofun nofun
  | beatmonWindowEnd => apply execBeatmonWindowEnd_kept (.rfl s) <;> nofun
  | beatmonCtlWrite => exact execBeatmonCtlWrite_kept (.rfl s) nofun nofun
  | paceStep => apply execPaceStep_kept (.rfl s) <;> nofun
  | paceMarkArrival => exact execPaceMarkArrival_kept (.rfl s) nofun nofun nofun
  | pacePolicyWrite => exact execPacePolicyWrite_kept (.rfl s) nofun nofun
  | partPolicyWrite => exact execPartPolicyWrite_kept (.rfl s) nofun nofun
  | thermalTrip => apply execThermalTrip_kept (.rfl s) <;> nofun
  | paceFault => apply execPaceFault_kept (.rfl s) <;> nofun
  | chaffGap => exact execChaffGap_kept (.rfl s) nofun
  | rampDownStart => apply execRampDownStart_kept (.rfl s) <;> nofun
  | rampEntryAdvance => apply execRampEntryAdvance_kept (.rfl s) <;> nofun
  | rampUpStart => exact execRampUpStart_kept (.rfl s) nofun
  | plimitWrite => exact execPlimitWrite_kept (.rfl s) nofun
  | chaffCtlWrite => exact execChaffCtlWrite_kept (.rfl s) nofun
  | retainDrainTimeout => apply execRetainDrainTimeout_kept (.rfl s) <;> nofun
  | partStart => exact execPartStart_kept (.rfl s) nofun nofun nofun
  | partStop => apply execPartStop_kept (.rfl s) <;> nofun
  | partRetain => apply execPartRetain_kept (.rfl s) <;> nofun
  | partWake => exact execPartWake_kept (.rfl s) nofun nofun nofun
  | partReset => apply execPartReset_kept (.rfl s) <;> nofun
  | loadSlot => apply execLoadSlot_kept (.rfl s) <;> nofun
  | loadBitstream => apply execLoadBitstream_kept (.rfl s) <;> nofun
  | loadPartial => exact execLoadPartial_kept (.rfl s) nofun nofun nofun
  | fieldFramesWrite => apply execFieldFramesWrite_kept (.rfl s) <;> nofun
  | transitFieldWrite => apply execTransitFieldWrite_kept (.rfl s) <;> nofun
  | scrubFrame => apply execScrubFrame_kept (.rfl s) <;> nofun
  | cfgRepairComplete => apply execCfgRepairComplete_kept (.rfl s) <;> nofun
  | nop => exact execNop_kept (.rfl s) nofun nofun
  | loadW => exact execLoadW_kept (.rfl s) nofun nofun
  | run => exact execRun_kept (.rfl s) nofun nofun
  | mint => exact execMint_kept (.rfl s) nofun nofun
  | mv => exact execMv_kept (.rfl s) nofun nofun
  | push => exact execPush_kept (.rfl s) nofun nofun
  | paceMark => exact execPaceMark_kept (.rfl s) nofun nofun
  | rampUp => exact execRampUp_kept (.rfl s) nofun nofun
  | signal => exact execSignal_kept (.rfl s) nofun nofun
  | wait => exact execWait_kept (.rfl s) nofun nofun
  | commandIssue => exact execCommandIssue_kept (.rfl s) nofun nofun nofun nofun nofun
  | latchWindow => exact execLatchWindow_kept (.rfl s) nofun nofun
  | escapeTableLoad => exact execEscapeTableLoad_kept (.rfl s) nofun nofun
  | commandRetirement => apply execCommandRetirement_kept (.rfl s) <;> nofun
  | waitTimeout => apply execWaitTimeout_kept (.rfl s) <;> nofun
  | flush => exact execFlush_kept (.rfl s) nofun nofun nofun nofun
  | resume => exact execResume_kept (.rfl s) nofun nofun
  | retireRead => exact execRetireRead_kept (.rfl s) nofun nofun
  | groupGate => apply execGroupGate_kept (.rfl s) <;> nofun
  | gleanClear => exact execGleanClear_kept (.rfl s) nofun nofun
  | gleanBinRead => exact execGleanBinRead_kept (.rfl s) nofun
  | csDiag => exact execCsDiag_kept (.rfl s) nofun nofun
  | csClear => exact execCsClear_kept (.rfl s) nofun nofun
  | columnRetirement => apply execColumnRetirement_kept (.rfl s) <;> nofun
  | tellerWatchdogCheck => apply execTellerWatchdogCheck_kept (.rfl s) <;> nofun
  | housekeeperHang => apply execHousekeeperHang_kept (.rfl s) <;> nofun
  | housekeeperHeartbeat => apply execHousekeeperHeartbeat_kept (.rfl s) <;> nofun
  | bursarStrobe => apply execBursarStrobe_kept (.rfl s) <;> nofun
  | anchorFailover => apply execAnchorFailover_kept (.rfl s) <;> nofun
  | watchdogModuleReset => apply execWatchdogModuleReset_kept (.rfl s) <;> nofun
  | leaseRevoke => apply execLeaseRevoke_kept (.rfl s) <;> nofun
  | leaseHiRead => exact execLeaseHiRead_kept (.rfl s) nofun
  | mirrorResync => exact execMirrorResync_kept (.rfl s) nofun
  | cacheShareChange => exact execCacheShareChange_kept (.rfl s) nofun nofun nofun
  | patrolRead => apply execPatrolRead_kept (.rfl s) <;> nofun
  | clearConflicts => exact execClearConflicts_kept (.rfl s) nofun
  | messageRoute => exact execMessageRoute_kept (.rfl s) nofun nofun
  | linkReplay => exact execLinkReplay_kept (.rfl s) nofun
  | linkFailure => apply execLinkFailure_kept (.rfl s) <;> nofun
  | routeCommit => apply execRouteCommit_kept (.rfl s) <;> nofun
  | routeSwitch => apply execRouteSwitch_kept (.rfl s) <;> nofun
  | routeDrainTimeout => apply execRouteDrainTimeout_kept (.rfl s) <;> nofun
  | routeDrainDone => apply execRouteDrainDone_kept (.rfl s) <;> nofun
  | deposit => exact execDeposit_kept (.rfl s) nofun nofun nofun nofun nofun nofun
  | ack => exact execAck_kept (.rfl s) nofun nofun nofun nofun nofun nofun
  | nak => apply execNak_kept (.rfl s) <;> nofun
  | grant => exact execGrant_kept (.rfl s) nofun nofun nofun nofun nofun nofun
  | close => exact execClose_kept (.rfl s) nofun nofun nofun nofun
  | scrip => exact execScrip_kept (.rfl s) nofun nofun nofun nofun nofun
  | pushMessage => exact execPushMessage_kept (.rfl s) nofun nofun nofun nofun
  | ackTimeout => apply execAckTimeout_kept (.rfl s) <;> nofun
  | linkReset => exact execLinkReset_kept (.rfl s) nofun nofun nofun nofun nofun
  | signalDetected => exact execSignalDetected_kept (.rfl s) nofun nofun
  | levelLock => exact execLevelLock_kept (.rfl s) nofun nofun
  | codewordLock => exact execCodewordLock_kept (.rfl s) nofun nofun
  | trainTimeout => apply execTrainTimeout_kept (.rfl s) <;> nofun
  | resetStateEnd => apply execResetStateEnd_kept (.rfl s) <;> nofun
  | lossOfSignal => exact execLossOfSignal_kept (.rfl s) nofun nofun nofun nofun nofun
  | codewordLockLoss => exact execCodewordLockLoss_kept (.rfl s) nofun nofun nofun nofun nofun
  | idle => exact execIdle_kept (.rfl s) nofun
  | lack => exact execLack_kept (.rfl s) nofun nofun
  | lnak => exact execLnak_kept (.rfl s) nofun nofun nofun nofun nofun
  | credit => exact execCredit_kept (.rfl s) nofun nofun
  | ident => exact execIdent_kept (.rfl s) nofun nofun
  | resetUnit => exact execResetUnit_kept (.rfl s) nofun nofun nofun nofun nofun
  | replay => exact execReplay_kept (.rfl s) nofun
  | kvlFrame => exact execKvlFrame_kept (.rfl s) nofun nofun nofun nofun nofun
  | lackTimer => apply execLackTimer_kept (.rfl s) <;> nofun
  | replayTimeout => apply execReplayTimeout_kept (.rfl s) <;> nofun
  | lnakRetry => apply execLnakRetry_kept (.rfl s) <;> nofun
  | bar2Write => exact execBar2Write_kept (.rfl s) nofun nofun nofun
  | bar2Read n off len => exact execBar2Read_kept (_len := len) (.rfl s) nofun
  | doorbell => exact execDoorbell_kept (.rfl s) nofun
  | doorbellForward => exact execDoorbellForward_kept (.rfl s) nofun
  | vfFlr => exact execVfFlr_kept (.rfl s) nofun nofun nofun nofun
  | pf0Flr => exact execPf0Flr_kept (.rfl s) nofun nofun nofun nofun
  | perst => exact execPerst_kept (.rfl s) nofun nofun nofun nofun
  | hostLinkDown => exact execHostLinkDown_kept (.rfl s) nofun nofun nofun nofun
  | hostLinkUp => exact execHostLinkUp_kept (.rfl s) nofun
  | registerReadTimeout => apply execRegisterReadTimeout_kept (.rfl s) <;> nofun
  | msixPendingSend => exact execMsixPendingSend_kept (.rfl s) nofun nofun nofun
  | poisonedTlp => exact execPoisonedTlp_kept (.rfl s) nofun nofun nofun
  | itemStart => exact execItemStart_kept (.rfl s) nofun nofun nofun
  | itemComplete => apply execItemComplete_kept (.rfl s) <;> nofun
  | haltResponse => apply execHaltResponse_kept (.rfl s) <;> nofun
  | itemWaitTimeout => apply execItemWaitTimeout_kept (.rfl s) <;> nofun
  | itemNop => exact execItemNop_kept (.rfl s)
  | core => exact execCore_kept (.rfl s) nofun nofun
  | copyOut => exact execCopyOut_kept (.rfl s) nofun nofun nofun nofun
  | fetch => exact execFetch_kept (.rfl s) nofun nofun nofun
  | winOpen => exact execWinOpen_kept (.rfl s) nofun nofun nofun
  | winClose => exact execWinClose_kept (.rfl s) nofun nofun nofun
  | scripReturn => exact execScripReturn_kept (.rfl s) nofun nofun
  | leaseGranule => exact execLeaseGranule_kept (.rfl s) nofun nofun nofun
  | objectSet => exact execObjectSet_kept (.rfl s) nofun
  | clearRetired => exact execClearRetired_kept (.rfl s) nofun nofun
  | storeImage => exact execStoreImage_kept (.rfl s) nofun nofun
  | setBoot => exact execSetBoot_kept (.rfl s) nofun nofun
  | storeFirmware => exact execStoreFirmware_kept (.rfl s) nofun nofun
  | revokeKey it ok => exact execRevokeKey_kept (.rfl s) nofun nofun (fun h => h (.inl ⟨it, ok, rfl⟩))
  | raiseSvn it ok => exact execRaiseSvn_kept (.rfl s) nofun nofun (fun h => h (.inr ⟨it, ok, rfl⟩))
  | moduleReset => apply execModuleReset_kept (.rfl s) <;> nofun
  | queueFlush => exact execQueueFlush_kept (.rfl s) nofun
  | queueEnable => exact execQueueEnable_kept (.rfl s) nofun nofun
  | contextResume => exact execContextResume_kept (.rfl s) nofun
  | cqHeadWrite => exact execCqHeadWrite_kept (.rfl s) nofun nofun
  | eventHeadWrite => exact execEventHeadWrite_kept (.rfl s) nofun
  | eventRouteCommit => exact execEventRouteCommit_kept (.rfl s) nofun
  | tsignal => exact execTsignal_kept (.rfl s) nofun nofun nofun
  | tack => exact execTack_kept (.rfl s) nofun nofun nofun nofun nofun nofun
  | twait => exact execTwait_kept (.rfl s) nofun
  | twake => exact execTwake_kept (.rfl s) nofun nofun nofun
  | tallyValueWrite => exact execTallyValueWrite_kept (.rfl s) nofun nofun
  | tallyStatWrite => exact execTallyStatWrite_kept (.rfl s) nofun
  | snpFrame => apply execSnpFrame_kept (.rfl s) <;> nofun
  | snpRecordClose => exact execSnpRecordClose_kept (.rfl s) nofun nofun nofun nofun nofun nofun
  | snpStart => exact execSnpStart_kept (.rfl s) nofun nofun nofun nofun
  | snpStop => exact execSnpStop_kept (.rfl s) nofun nofun nofun nofun
  | snpFlush => exact execSnpFlush_kept (.rfl s) nofun nofun nofun
  | snpClockLoss => apply execSnpClockLoss_kept (.rfl s) <;> nofun
  | snpZcTimeout => apply execSnpZcTimeout_kept (.rfl s) <;> nofun
  | snpOgainWrite => exact execSnpOgainWrite_kept (.rfl s) nofun nofun
  | snpCfgWrite => exact execSnpCfgWrite_kept (.rfl s) nofun
  | snpOrouteWrite => exact execSnpOrouteWrite_kept (.rfl s) nofun nofun
  | islUserAccess => exact execIslUserAccess_kept (.rfl s) nofun nofun
  | islRegTimeout => apply execIslRegTimeout_kept (.rfl s) <;> nofun
  | islandAttn => exact execIslandAttn_kept (.rfl s) nofun nofun
  | pfInWord => exact execPfInWord_kept (.rfl s) nofun nofun nofun
  | ssReq => exact execSsReq_kept (.rfl s) nofun nofun nofun nofun nofun nofun
  | utxRxWord => exact execUtxRxWord_kept (.rfl s) nofun nofun
  | islandReset => exact execIslandReset_kept (.rfl s) nofun nofun nofun
  | tapFlush => exact execTapFlush_kept (.rfl s) nofun nofun nofun
  | rstN => apply execRstN_kept (.rfl s) <;> nofun
  | tapReset => exact execTapReset_kept (.rfl s) nofun
  | extest => exact execExtest_kept (.rfl s) nofun
  | idcode => exact execIdcode_kept (.rfl s) nofun
  | samplePreload => exact execSamplePreload_kept (.rfl s) nofun
  | highz => exact execHighz_kept (.rfl s) nofun
  | clamp => exact execClamp_kept (.rfl s) nofun
  | extestPulse => exact execExtestPulse_kept (.rfl s) nofun
  | extestTrain => exact execExtestTrain_kept (.rfl s) nofun
  | bypass => exact execBypass_kept (.rfl s) nofun
  | smbIdent => exact execSmbIdent_kept (.rfl s)
  | smbEntry => exact execSmbEntry_kept (.rfl s)
  | smbStatus => exact execSmbStatus_kept (.rfl s)
  | smbTemp => exact execSmbTemp_kept (.rfl s)
  | regOffset => exact execRegOffset_kept (.rfl s) nofun
  | regRead => exact execRegRead_kept (.rfl s) nofun
  | alertAck => exact execAlertAck_kept (.rfl s) nofun nofun
  | alertResponse => exact execAlertResponse_kept (.rfl s) nofun nofun
  | pmbusPoll => apply execPmbusPoll_kept (.rfl s) <;> nofun
  | gpioWrite => exact execGpioWrite_kept (.rfl s) nofun nofun
  | rstNRelease => apply execRstNRelease_kept (.rfl s) <;> nofun
  | completionTlp => exact execCompletionTlp_kept (.rfl s) nofun nofun nofun
  | snpIrouteWrite => exact execSnpIrouteWrite_kept (.rfl s) nofun nofun
  | islRegRsp => exact execIslRegRsp_kept (.rfl s) nofun nofun
  | utxTxWord => exact execUtxTxWord_kept (.rfl s)
  | identTimer => apply execIdentTimer_kept (.rfl s) <;> nofun
  | trainBackoffEnd => apply execTrainBackoffEnd_kept (.rfl s) <;> nofun
  | windowLeaseRelease => apply execWindowLeaseRelease_kept (.rfl s) <;> nofun
  | kvlEnableWrite => exact execKvlEnableWrite_kept (.rfl s) nofun nofun


/-- What a command's next state keeps. -/
theorem kept_of_exec {c : Instr} {s t : State} (h : exec c s = .next t) : Kept (leavesOf c) s t := by
  obtain ⟨u, hu, hk⟩ := exec_kept c s
  obtain rfl : u = t := Host.Outcome.next.inj (hu.symm.trans h)
  exact hk

/-- What one step can do: the module idles on an empty queue, or the command at its front takes effect. -/
theorem step_cases {s t : State} (h : step s = .next t) :
    (s.pending = [] ∧ t = s.idleTick) ∨
      ∃ c rest, s.pending = c :: rest ∧ exec c { s with pending := rest } = .next t := by
  unfold step at h
  split at h
  next he => exact .inl ⟨he, (Host.Outcome.next.inj h).symm⟩
  next c rest he => exact .inr ⟨c, rest, he, h⟩

/-- The facets of an operation that may change every piece of state. -/
abbrev Facets.nothing : Facets :=
  ⟨False, False, False, False, False, False, False, False, False, False, False, False, False, False⟩

theorem idleTick_canonical {s : State} (h : s.Canonical) : s.idleTick.Canonical :=
  have hk : Kept .nothing s s.idleTick := by apply State.idleTick_kept (.rfl s) <;> nofun
  hk.canonical h

theorem exec_canonical {c : Instr} {s t : State} (h : exec c s = .next t) (hs : s.Canonical) : t.Canonical :=
  (kept_of_exec h).canonical hs

/-- Settles O52: an idle tick and every command keep the canonical form. -/
theorem canonicalKept : Obligations.CanonicalKept := by
  intro s t hs h
  obtain ⟨_, rfl⟩ | ⟨c, rest, _, hc⟩ := step_cases h
  · exact idleTick_canonical hs
  · exact exec_canonical hc { hs with }

/-- Settles O56: each frame is a facet of `exec_kept`. -/
theorem unitsKept : Obligations.UnitsKept := by
  intro c s t h
  have hk := kept_of_exec h
  exact ⟨hk.now, hk.regs, hk.fields, hk.cores, hk.kvl, hk.snp, hk.isl, hk.leases, hk.brs, hk.mesh⟩

/-! ## The bytes of a stored range -/

section
variable {s : State} {d a : Nat} {bs : List Byte}

theorem State.mem8_setBytes_of_outside (h : a < d ∨ d + bs.length ≤ a) : (s.setBytes d bs).mem8 a = s.mem8 a := by
  induction bs generalizing s d with
  | nil => rfl
  | cons b bs ih =>
    rw [List.length_cons] at h
    calc (s.setBytes d (b :: bs)).mem8 a
      _ = (s.setMem8 d b).mem8 a := ih (by omega)
      _ = s.mem8 a := State.mem8_setMem8_ne (by omega)

theorem State.memoryWf_setBytes (w : memoryWf s.mem) : memoryWf (s.setBytes d bs).mem := by
  induction bs generalizing s d with
  | nil => exact w
  | cons b bs ih => exact ih (tableWf_tput b w)

theorem State.mem8_setBytes {i : Nat} {b : Byte} (w : memoryWf s.mem) (h : bs[i]? = some b) :
    (s.setBytes d bs).mem8 (d + i) = b := by
  induction bs generalizing s d i with
  | nil => cases h
  | cons c bs ih =>
    have w' : memoryWf (s.setMem8 d c).mem := tableWf_tput c w
    cases i with
    | zero =>
      obtain rfl : c = b := Option.some.inj h
      exact (State.mem8_setBytes_of_outside (.inl (Nat.lt_succ_self d))).trans (State.mem8_setMem8 w)
    | succ i =>
      have e : d + (i + 1) = d + 1 + i := by omega
      exact e ▸ ih w' h

theorem State.mem8_store_of_outside (h : a < d ∨ d + bs.length ≤ a) : (s.store d bs).mem8 a = s.mem8 a :=
  State.mem8_setBytes_of_outside h

end

/-! ## What a deposit stores -/

/-- The facets of an operation that leaves the stores and may change everything else. -/
abbrev Facets.stores : Facets := { Facets.nothing with mem := True }

theorem mem8_of_kept {s t : State} (h : Kept .stores s t) (a : Nat) : t.mem8 a = s.mem8 a :=
  congrArg (tget 0 · a) (h.mem trivial)

theorem State.mem8_depositAt_of_outside {s : State} {fn slot a : Nat} {m : Msg} (h : a < m.dst ∨ m.dst + m.data.length ≤ a) :
    (s.depositAt fn slot m).mem8 a = s.mem8 a := by
  unfold State.depositAt
  extract_lets key n w x unit refused told units counted steps looked stored port arrived
  have hWindow (y : Window) : Kept .stores s (s.setWindow key w y) := State.setWindow_kept (.rfl s) nofun nofun
  split
  next =>
    have hTold : Kept .stores s told := Kept.ite (State.addSat_kept (hWindow _) nofun) (hWindow _)
    exact mem8_of_kept (State.depositReply_kept hTold nofun) a
  next =>
    have hLooked : Kept .stores s looked := Kept.ite
      (Kept.foldl (hWindow _) fun _ _ hy =>
        Kept.ite hy (Kept.ite (State.cacheTouch_kept hy nofun nofun) (State.add_kept hy nofun)))
      (hWindow _)
    have hArrived : Kept .stores stored arrived :=
      Kept.ite (State.snpArrive_kept (.rfl _) nofun nofun nofun) (.rfl _)
    calc (arrived.depositReply fn unit m 2 0 units).mem8 a
      _ = stored.mem8 a := mem8_of_kept (State.depositReply_kept hArrived nofun) a
      _ = looked.mem8 a := State.mem8_store_of_outside h
      _ = s.mem8 a := mem8_of_kept hLooked a

theorem mem8_execDeposit_of_outside {s t : State} {m : Msg} {a : Nat} (ht : execDeposit m s = .next t)
    (h : a < m.dst ∨ m.dst + m.data.length ≤ a) : t.mem8 a = s.mem8 a := by
  unfold execDeposit at ht
  split at ht
  next => rw [← Host.Outcome.next.inj ht]
  next =>
    cases hd : s.atDest m with
    | false => rw [← Host.Outcome.next.inj ((State.onArrived_gone hd).symm.trans ht)]
    | true =>
      rw [← Host.Outcome.next.inj ((State.onArrived_here hd).symm.trans ht)]
      dsimp only
      have hTaken : Kept .stores s (s.takeArrived m) := State.takeArrived_kept (.rfl s) nofun
      have hAt (fn slot : Nat) : ((s.takeArrived m).depositAt fn slot m).mem8 a = s.mem8 a :=
        State.mem8_depositAt_of_outside h
      split_ifs
      · exact mem8_of_kept (State.depositCopy_kept hTaken nofun nofun) a
      · exact mem8_of_kept (State.depositRemote_kept hTaken nofun nofun nofun) a
      · exact hAt _ _
      · exact mem8_of_kept (State.depositReply_kept hTaken nofun) a
      · exact hAt _ _
      · exact hAt _ _

/-- Settles O55: the commands outside `Instr.mayStore` by `exec_kept`, a deposit by the range of `State.store`. -/
theorem storesKept : Obligations.StoresKept := by
  refine ⟨fun c s t h hc a => ?_, fun s t m h a ha => mem8_execDeposit_of_outside h ha,
    fun s d bs w => ⟨fun a h => ?_, fun i b h => ?_, ?_⟩⟩
  · exact congrArg (tget 0 · a) ((kept_of_exec h).mem hc)
  · exact State.mem8_store_of_outside h
  · exact State.mem8_setBytes w h
  · exact State.memoryWf_setBytes w

end Sys2Proof.Machine

/-! SUPPORT. One hop of a message: what each of its outcomes answers. -/

namespace Sys2Proof.Machine

section
variable {s : State} {i : Nat} {f : Flight}

theorem execMessageRoute_lost (hf : s.mesh.flights[i]? = some f) (hl : f.links s.portUp = false) :
    exec (.messageRoute i) s = .next ((s.leaveMesh i).dropFlits f).drainCounts := by
  simp [exec, execMessageRoute, hf, hl]

theorem execMessageRoute_worn (hf : s.mesh.flights[i]? = some f) (hl : f.links s.portUp = true) (hh : 40 < f.hops) :
    exec (.messageRoute i) s = .next (s.discard i f).drainCounts := by
  simp [exec, execMessageRoute, hf, hl, hh]

theorem execMessageRoute_local (hf : s.mesh.flights[i]? = some f) (hl : f.links s.portUp = true) (hh : f.hops ≤ 40)
    (hp : s.pickPort f.loc f.inp f.msg = 4) : exec (.messageRoute i) s = .next (s.eject i f).drainCounts := by
  simp [exec, execMessageRoute, hf, hl, Nat.not_lt.mpr hh, hp]

theorem execMessageRoute_onward (hf : s.mesh.flights[i]? = some f) (hl : f.links s.portUp = true) (hh : f.hops ≤ 40)
    (hp : s.pickPort f.loc f.inp f.msg ≠ 4) :
    exec (.messageRoute i) s = .next (s.forwardHead i f (s.pickPort f.loc f.inp f.msg)).drainCounts := by
  simp [exec, execMessageRoute, hf, hl, Nat.not_lt.mpr hh, hp]

/-- A message leaves by the local port once it leads its buffer, none of its links is paused and no rule holds it. -/
theorem State.eject_free (hl : s.leads i f = true) (hk : f.links (fun fn q => !s.linkPaused fn q) = true)
    (hd : f.msg.kind = 1 → s.depositHeld f.msg = false) :
    s.eject i f = (let u := ((s.leaveMesh i).drawIn f.spans).add (Reg.MSH_FLITS f.loc 4) 63 0 f.msg.flits
      { u with mesh := { u.mesh with arrived := u.mesh.arrived ++ [f.msg] } }) := by
  have hd' : (f.msg.kind = 1 && s.depositHeld f.msg) = false := by simpa using hd
  simp only [State.eject, hl, hk, hd', Bool.not_false, Bool.and_true, if_true]

theorem State.eject_held
    (h : s.leads i f = false ∨ f.links (fun fn q => !s.linkPaused fn q) = false ∨ (f.msg.kind = 1 ∧ s.depositHeld f.msg = true)) :
    s.eject i f = s.closeUp i f := by
  have hc : (s.leads i f && f.links (fun fn q => !s.linkPaused fn q) &&
      !(f.msg.kind = 1 && s.depositHeld f.msg)) = false := by
    obtain h | h | ⟨h, h'⟩ := h
    · simp [h]
    · simp [h]
    · simp [h, h']
  simp only [State.eject, hc, Bool.false_eq_true, if_false]

variable {p : Nat}

theorem State.forwardHead_down (hu : s.portUp f.loc p = false) : s.forwardHead i f p = s.discard i f := by
  simp [State.forwardHead, hu]

theorem State.forwardHead_waits (hu : s.portUp f.loc p = true) (hw : s.linkPaused f.loc p = true ∨ s.leads i f = false) :
    s.forwardHead i f p = s.closeUp i f := by
  simp only [State.forwardHead, hu, Bool.not_true, Bool.false_eq_true, if_false]
  exact if_pos (by simpa using hw)

section
variable (hu : s.portUp f.loc p = true) (hq : s.linkPaused f.loc p = false) (hl : s.leads i f = true)
include hu hq hl

theorem State.forwardHead_lane {b : Span} (hb : s.nextSpan f = some b) :
    s.forwardHead i f p =
      if s.mayCross i f b = true ∧ s.turn f.loc p f.msg.channel b.lane = true then s.cross i f b else s.closeUp i f := by
  simp [State.forwardHead, hu, hq, hl, hb]

theorem State.forwardHead_noLane (hb : s.nextSpan f = none) :
    s.forwardHead i f p = (((s.leaveMesh i).drawIn f.spans).countFlits f.loc p f.msg.flits).dropMsg
      ((Config.neighbour f.loc p).getD f.loc) f.msg := by
  simp [State.forwardHead, hu, hq, hl, hb]

end

end

/-- Settles O14: the four outcomes of the router, then those of the local port and of the output port. -/
theorem messageHops : Obligations.MessageHops := by
  intro s i f hf t p
  refine ⟨fun hl => execMessageRoute_lost hf hl, fun hl hh => execMessageRoute_worn hf hl hh, fun hl hh hp => ⟨?_, ?_⟩,
    fun hl hh hp hu => ?_, fun hl hh hp hu => ⟨fun hw => ?_, fun hq hd => ⟨fun b hb => ?_, fun hb => ?_⟩⟩⟩
  · intro hd hk hh'
    rw [execMessageRoute_local hf hl hh hp, State.eject_free hd hk hh']
    rfl
  · intro hw
    rw [execMessageRoute_local hf hl hh hp, State.eject_held hw]
  · rw [execMessageRoute_onward hf hl hh hp, State.forwardHead_down hu]
    rfl
  · rw [execMessageRoute_onward hf hl hh hp, State.forwardHead_waits hu hw]
  · rw [execMessageRoute_onward hf hl hh hp, State.forwardHead_lane hu hq hd hb, apply_ite State.drainCounts]
  · rw [execMessageRoute_onward hf hl hh hp, State.forwardHead_noLane hu hq hd hb]
    rfl

end Sys2Proof.Machine

/-! SUPPORT. The register accesses: those that R14 lets through, the whole registers and their two words (R16), and a teller's
narrow access. -/

namespace Sys2Proof.Machine

section
variable {s : State} {who : Who} {off v a b : Nat} {r : Reg.Row}

/-! ## The accesses that R14 lets through -/

theorem narrowOf_of_inBar (h : off < Who.barSize who) : narrowOf who off = none := by
  unfold narrowOf
  split
  · exact if_neg (by have : off < 0x4000000 := h; omega)
  · rfl

section
variable (hw : who ≠ .smbus)
include hw

theorem exec_registerWrite_8 (hb : off + 8 ≤ Who.barSize who) (ha : off % 8 = 0) :
    exec (.registerWrite who off 8 v) s = .next (s.write64 who off v) := by
  simp [exec, execRegisterWrite, narrowOf_of_inBar (by omega : off < Who.barSize who), State.writeAccess, hw,
    Nat.not_lt.mpr hb, ha]

theorem exec_registerWrite_4 (hb : off + 4 ≤ Who.barSize who) (ha : off % 4 = 0) :
    exec (.registerWrite who off 4 v) s = .next (s.write32 who off v) := by
  simp [exec, execRegisterWrite, narrowOf_of_inBar (by omega : off < Who.barSize who), State.writeAccess, hw,
    Nat.not_lt.mpr hb, ha]

theorem exec_lowWordWrite (hb : off + 4 ≤ Who.barSize who) (ha : off % 4 = 0) :
    exec (.lowWordWrite who off v) s = .next (s.write32 who off v) := by
  simp [exec, execLowWordWrite, hw, Nat.not_lt.mpr hb, ha]

theorem exec_highWordWrite (hb : off + 4 ≤ Who.barSize who) (ha : off % 4 = 0) :
    exec (.highWordWrite who off v) s = .next (s.write32 who off v) := by
  simp [exec, execHighWordWrite, hw, Nat.not_lt.mpr hb, ha]

end

theorem exec_lowWordRead_8 (hb : off + 8 ≤ Who.barSize who) (ha : off % 8 = 0) :
    exec (.lowWordRead who off 8) s = .next (s.read64 who off) := by
  simp [exec, execLowWordRead, narrowOf_of_inBar (by omega : off < Who.barSize who), State.readAccess,
    Nat.not_lt.mpr hb, ha]

theorem exec_lowWordRead_4 (hb : off + 4 ≤ Who.barSize who) (ha : off % 4 = 0) :
    exec (.lowWordRead who off 4) s = .next (s.read32 who off) := by
  simp [exec, execLowWordRead, narrowOf_of_inBar (by omega : off < Who.barSize who), State.readAccess,
    Nat.not_lt.mpr hb, ha]

section
variable {size : Nat} (h : (size ≠ 4 ∧ size ≠ 8) ∨ off % size ≠ 0)
include h

theorem size_of_misfit (ha : off % max 1 size = 0) : size ≠ 4 ∧ size ≠ 8 := by
  obtain h | h := h
  · exact h
  · exact ⟨by rintro rfl; exact h ha, by rintro rfl; exact h ha⟩

theorem State.readAccess_misfit : s.readAccess who off size = { s with reply := none } := by
  unfold State.readAccess
  split
  next => rfl
  next hc =>
    simp only [Bool.or_eq_true, decide_eq_true_eq, not_or, not_not] at hc
    obtain ⟨h4, h8⟩ := size_of_misfit h hc.2
    rw [if_neg h4, if_neg h8]

theorem State.writeAccess_misfit : s.writeAccess who off size v = s := by
  unfold State.writeAccess
  split
  next => rfl
  next hc =>
    simp only [Bool.or_eq_true, decide_eq_true_eq, not_or, not_not] at hc
    obtain ⟨h4, h8⟩ := size_of_misfit h hc.2
    rw [if_neg h4, if_neg h8]

variable (hn : narrowOf who off = none)
include hn

theorem exec_lowWordRead_misfit : exec (.lowWordRead who off size) s = .next { s with reply := none } := by
  simp only [exec, execLowWordRead, hn, State.readAccess_misfit h]

theorem exec_registerWrite_misfit : exec (.registerWrite who off size v) s = .next s := by
  simp only [exec, execRegisterWrite, hn, State.writeAccess_misfit h]

end

/-! ## Whole registers and their words -/

theorem State.write64_register (hr : s.resolve who off = (a, none)) (ha : s.accessReason who a true = none)
    (h : Reg.row? a = some r) (hw : r.width = 64) : s.write64 who off v = s.writeReg who a (BitVec.ofNat 64 v) := by
  simp [State.write64, hr, ha, h, hw]

section
variable (hr : s.resolve who off = (b, none)) (hb : s.accessReason who b true = none)
include hr hb

theorem State.write32_register (h : Reg.holding b = some (a, r, false)) (hw : r.width = 32) :
    s.write32 who off v = s.writeReg who a (BitVec.ofNat 64 (v % 2 ^ 32)) := by
  simp [State.write32, hr, hb, h, hw]

theorem State.write32_low (h : Reg.holding b = some (a, r, false)) (hw : r.width = 64) :
    s.write32 who off v = s.latch who a true (v % 2 ^ 32) := by
  simp [State.write32, hr, hb, h, hw]

theorem State.write32_high (h : Reg.holding b = some (a, r, true)) (hw : r.width = 64) :
    s.write32 who off v = (s.unlatch who a true).writeReg who a
      (BitVec.ofNat 64 (v % 2 ^ 32 * 2 ^ 32 + (s.latchOf who a true).getD (s.presentLow a r))) := by
  simp [State.write32, hr, hb, h, hw]

end

/-! ## Reads outside the field windows -/

theorem State.latchedEffect_of_module (h : a < 0x1000000) : s.latchedEffect a = s := by
  simp [State.latchedEffect, h]

theorem State.latchOf_draw {staged : Bool} : s.draw.2.latchOf who a staged = s.latchOf who a staged := rfl

section
variable (hr : s.resolve who off = (b, none)) (hb : s.accessReason who b false = none) (hm : b < 0x1000000)
include hr hb hm

theorem State.read64_register (h : Reg.row? b = some r) (hw : r.width = 64) (hne : b ≠ Reg.AXB_LEASE_HI) :
    s.read64 who off = (if drawsAtRead b then s.draw.2 else s).answer (s.view b).toNat := by
  simp [State.read64, hr, hb, h, hw, hne, Nat.not_le.mpr hm, State.latchedEffect_of_module hm]

variable (ha : a < 0x1000000) (hw : r.width = 64)
include ha hw

theorem State.read32_low (h : Reg.holding b = some (a, r, false)) :
    s.read32 who off =
      ((if drawsAtRead a then s.draw.2 else s).latch who a false (bitsOf (s.view a) 63 32)).answer (bitsOf (s.view a) 31 0) := by
  simp [State.read32, hr, hb, h, hw, Nat.not_le.mpr hm, Nat.not_le.mpr ha]

theorem State.read32_latched {n : Nat} (h : Reg.holding b = some (a, r, true)) (hl : s.latchOf who a false = some n) :
    s.read32 who off = ((if drawsAtRead a then s.draw.2 else s).unlatch who a false).answer n := by
  have hl' : (if drawsAtRead a then s.draw.2 else s).latchOf who a false = some n := by
    split
    · exact hl
    · exact hl
  simp [State.read32, hr, hb, h, hw, Nat.not_le.mpr hm, hl', State.latchedEffect_of_module ha]

end

/-! ## A teller's narrow access -/

section
variable {fn k : Nat} (ha : 2 ^ 40 ≤ a)
include ha

theorem narrowOf_teller : narrowOf (.teller fn k) a = some (fn, k) := if_pos ha

theorem exec_registerWrite_narrow :
    exec (.registerWrite (.teller fn k) a 8 v) s = .next (s.narrowStore fn k a v) := by
  simp only [exec, execRegisterWrite, narrowOf_teller ha, if_true]

theorem exec_lowWordRead_narrow : exec (.lowWordRead (.teller fn k) a 8) s = .next (s.narrowLoad fn k a) := by
  simp only [exec, execLowWordRead, narrowOf_teller ha, if_true]

end

section
variable {fn k : Nat} (hs : s.narrowSlot fn k a = some k)
include hs

theorem State.narrowStore_open (hg : s.gleanAddr fn k a = false) :
    s.narrowStore fn k a v = (s.narrowWait fn k a).coreWrite fn k a (leBytes 8 v) := by
  simp [State.narrowStore, hs, hg]

theorem State.narrowLoad_clean {bytes : List Byte} {t : State}
    (hr : (s.narrowWait fn k a).narrowRead fn k a = (bytes, none, t)) :
    s.narrowLoad fn k a = { t with reply := some (BitVec.ofNat 64 (leNat bytes)) } := by
  simp [State.narrowLoad, hs, hr]

end

end

/-- Settles O44: R14 lets the access through, then the lemma of its register, of its word or of the store. -/
theorem registerAccessesRun : Obligations.RegisterAccessesRun := by
  refine ⟨?_, ?_, ?_, ?_, ?_, ?_, ?_, ?_, ?_⟩
  · intro s who off v a r hw hb hal hr ha h hwd
    rw [exec_registerWrite_8 hw hb hal, State.write64_register hr ha h hwd]
  · intro s who off v a r hw hb hal hr ha h hwd
    rw [exec_registerWrite_4 hw hb hal, State.write32_register hr ha h hwd]
  · intro s who off v a r hw hb hal hr ha h hwd
    rw [exec_lowWordWrite hw hb hal, State.write32_low hr ha h hwd]
  · intro s who off v a b r hw hb hal hr ha h hwd
    rw [exec_highWordWrite hw hb hal, State.write32_high hr ha h hwd]
  · intro s off a r hb hal hr ha hm h hwd
    rw [exec_lowWordRead_4 hb hal, State.read32_low hr ha hm hm hwd h]
  · intro s off a b n r hb hal hr ha hm h hwd hl hma
    rw [exec_lowWordRead_4 hb hal, State.read32_latched hr ha hm hma hwd h hl]
  · intro s off a r hb hal hr ha hm h hwd hne
    rw [exec_lowWordRead_8 hb hal, State.read64_register hr ha hm h hwd hne]
  · intro s who off size hn h
    exact ⟨exec_lowWordRead_misfit h hn, fun v => exec_registerWrite_misfit h hn⟩
  · intro s fn k a v ha hs hg
    refine ⟨?_, fun bytes t hr => ?_⟩
    · rw [exec_registerWrite_narrow ha, State.narrowStore_open hs hg]
    · rw [exec_lowWordRead_narrow ha, State.narrowLoad_clean hs hr]

end Sys2Proof.Machine

/-! SUPPORT. The beat monitor: what the three kinds of write of FLD_BEATMON_CTL answer, what the abandoned window leaves in
the registers, and the WINDOW with which a window begins. -/

namespace Sys2Proof.Machine

/-- A part of a field of bits that was written reads as that part of the number. -/
theorem bitsOf_withBits_within (w : Word) {hi lo hi' lo' : Nat} (n : Nat) (hl : lo ≤ lo') (hm : lo' ≤ hi') (hh : hi' ≤ hi)
    (h64 : hi < 64) : bitsOf (withBits w hi lo n) hi' lo' = nbits n (hi' - lo) (lo' - lo) := by
  refine Nat.eq_of_testBit_eq fun i => ?_
  have hw : hi' - lo + 1 - (lo' - lo) = hi' + 1 - lo' := by omega
  rw [bitsOf_testBit, withBits_getLsbD _ _ _ _ _ (by omega), nbits, Nat.testBit_mod_two_pow, hw, Nat.testBit_shiftRight]
  by_cases c : i < hi' + 1 - lo'
  · have hShift : lo' + i - lo = lo' - lo + i := by omega
    rw [if_pos (by omega), hShift]
  · simp [c]

/-- Two registers of a field's window are different where their offsets in it are. -/
theorem Reg.win_add_ne {fn a b : Nat} (h : a ≠ b) : Reg.win fn + a ≠ Reg.win fn + b := fun e => h (Nat.add_left_cancel e)

section
variable {s : State} {fn : Nat}

/-! ## The beats of an abandoned window -/

theorem State.regsWf_countBeats (w : regsWf s.regs) : regsWf (s.countBeats fn).regs := State.regsWf_wf w

theorem State.rd_countBeats_ne {j : Nat} (h : j ≠ Reg.FLD_BEATMON_COUNT fn) : (s.countBeats fn).rd j = s.rd j :=
  State.rd_wf_ne h

theorem State.rd_countBeats (w : regsWf s.regs) : (s.countBeats fn).rd (Reg.FLD_BEATMON_COUNT fn) =
    withBits (s.rd (Reg.FLD_BEATMON_COUNT fn)) 63 0
      (bitsOf (s.rd (Reg.FLD_BEATMON_COUNT fn)) 63 0 + (Config.freeValue s.fresh).toNat) :=
  State.rd_wf w

/-! ## Writes of FLD_BEATMON_CTL (R54) -/

/-- `s` with the ring stopped: ENABLE and VALID are clear, and COUNT has the beats of the window that was in progress. -/
def State.beatmonOff (s : State) (fn v : Nat) : State :=
  ((s.wf (Reg.FLD_BEATMON_CTL fn) 2 0 v).countBeats fn).clrb (Reg.FLD_BEATMON_RATE fn) 31

section
variable {who : Who} {v : Nat} (hr : s.fieldReason who fn = none)
include hr

/-- ENABLE stays as it is. -/
theorem exec_beatmonCtlWrite_same (h : s.rb (Reg.FLD_BEATMON_CTL fn) 0 = nbit v 0) :
    exec (.beatmonCtlWrite who fn v) s = .next (s.wf (Reg.FLD_BEATMON_CTL fn) 2 0 v) := by
  simp [exec, execBeatmonCtlWrite, State.beatmonWrite, State.fieldWrite, hr, h]

/-- ENABLE falls: the ring stops. -/
theorem exec_beatmonCtlWrite_off (h : s.rb (Reg.FLD_BEATMON_CTL fn) 0 = true) (hv : nbit v 0 = false) :
    exec (.beatmonCtlWrite who fn v) s = .next (s.beatmonOff fn v) := by
  simp [exec, execBeatmonCtlWrite, State.beatmonWrite, State.fieldWrite, State.beatmonOff, hr, h, hv]

/-- ENABLE rises: a window begins. -/
theorem exec_beatmonCtlWrite_on (h : s.rb (Reg.FLD_BEATMON_CTL fn) 0 = false) (hv : nbit v 0 = true) :
    exec (.beatmonCtlWrite who fn v) s = .next ((s.wf (Reg.FLD_BEATMON_CTL fn) 2 0 v).setField fn
      { s.field fn with bmStart := s.now, bmWindow := nbits v 2 1, bmRail := false }) := by
  simp only [exec, execBeatmonCtlWrite, State.beatmonWrite, State.fieldWrite, hr, h, hv]
  rfl

end

section
variable {v : Nat}

theorem State.rd_beatmonOff_ne {j : Nat} (hr : j ≠ Reg.FLD_BEATMON_RATE fn) (hc : j ≠ Reg.FLD_BEATMON_COUNT fn) :
    (s.beatmonOff fn v).rd j = (s.wf (Reg.FLD_BEATMON_CTL fn) 2 0 v).rd j :=
  (State.rd_wf_ne hr).trans (State.rd_countBeats_ne hc)

theorem State.rd_beatmonOff_stamp : (s.beatmonOff fn v).rd (Reg.FLD_BEATMON_STAMP fn) = s.rd (Reg.FLD_BEATMON_STAMP fn) :=
  (State.rd_beatmonOff_ne (Reg.win_add_ne (by decide)) (Reg.win_add_ne (by decide))).trans
    (State.rd_wf_ne (Reg.win_add_ne (by decide)))

variable (w : regsWf s.regs)
include w

theorem State.rf_beatmonWindow : (s.wf (Reg.FLD_BEATMON_CTL fn) 2 0 v).rf (Reg.FLD_BEATMON_CTL fn) 2 1 = nbits v 2 1 := by
  rw [State.rf, State.rd_wf w]
  exact bitsOf_withBits_within _ v (by decide) (by decide) (by decide) (by decide)

theorem State.rb_beatmonEnable : (s.wf (Reg.FLD_BEATMON_CTL fn) 2 0 v).rb (Reg.FLD_BEATMON_CTL fn) 0 = nbit v 0 :=
  State.rb_wf w (by decide)

theorem State.rb_beatmonOff_enable : (s.beatmonOff fn v).rb (Reg.FLD_BEATMON_CTL fn) 0 = nbit v 0 :=
  (congrArg (·.getLsbD 0) (State.rd_beatmonOff_ne (Reg.win_add_ne (by decide)) (Reg.win_add_ne (by decide)))).trans
    (State.rb_beatmonEnable w)

theorem State.rb_beatmonOff_valid : (s.beatmonOff fn v).rb (Reg.FLD_BEATMON_RATE fn) 31 = false :=
  State.rb_clrb (State.regsWf_countBeats (State.regsWf_wf w)) (by decide)

theorem State.rf_beatmonOff_rate :
    (s.beatmonOff fn v).rf (Reg.FLD_BEATMON_RATE fn) 30 0 = s.rf (Reg.FLD_BEATMON_RATE fn) 30 0 := by
  have hOld : ((s.wf (Reg.FLD_BEATMON_CTL fn) 2 0 v).countBeats fn).rd (Reg.FLD_BEATMON_RATE fn) =
      s.rd (Reg.FLD_BEATMON_RATE fn) :=
    (State.rd_countBeats_ne (Reg.win_add_ne (by decide))).trans (State.rd_wf_ne (Reg.win_add_ne (by decide)))
  rw [State.rf, State.beatmonOff, State.clrb, State.rd_wf (State.regsWf_countBeats (State.regsWf_wf w)), hOld]
  exact bitsOf_withBits_ne _ 0 (by decide) (.inr (by decide))

theorem State.rd_beatmonOff_count :
    (s.beatmonOff fn v).rd (Reg.FLD_BEATMON_COUNT fn) = (s.countBeats fn).rd (Reg.FLD_BEATMON_COUNT fn) := by
  have hOld : (s.wf (Reg.FLD_BEATMON_CTL fn) 2 0 v).rd (Reg.FLD_BEATMON_COUNT fn) = s.rd (Reg.FLD_BEATMON_COUNT fn) :=
    State.rd_wf_ne (Reg.win_add_ne (by decide))
  calc (s.beatmonOff fn v).rd (Reg.FLD_BEATMON_COUNT fn)
    _ = ((s.wf (Reg.FLD_BEATMON_CTL fn) 2 0 v).countBeats fn).rd (Reg.FLD_BEATMON_COUNT fn) :=
        State.rd_wf_ne (Reg.win_add_ne (by decide))
    _ = (s.countBeats fn).rd (Reg.FLD_BEATMON_COUNT fn) := by
        rw [State.rd_countBeats (State.regsWf_wf w), State.rd_countBeats w, hOld, State.wf_fresh]

end

/-! ## The end of a window (R53) -/

theorem exec_beatmonWindowEnd_disabled {beats : Nat} (h : s.rb (Reg.FLD_BEATMON_CTL fn) 0 = false) :
    exec (.beatmonWindowEnd fn beats) s = .next s := by
  simp [exec, execBeatmonWindowEnd, State.when, h]

/-- The state in which the monitor has recorded a window of `beats` that ends at `due`. -/
def State.beatmonRecord (s : State) (fn due beats : Nat) : State :=
  let f := s.field fn
  let u := s.until due
  let v := min 65535 (beats * 1000 / bmLen f.bmWindow) + (u.rf (Reg.FLD_BEATMON_RATE fn) 23 16 + 1) % 256 * 65536 +
    (if f.bmRail then 2 ^ 30 else 0) + 2 ^ 31
  ((u.wn (Reg.FLD_BEATMON_RATE fn) v).wn (Reg.FLD_BEATMON_STAMP fn) due).add (Reg.FLD_BEATMON_COUNT fn) 63 0 beats

/-- `u` with the next window begun at `due`, under the WINDOW that FLD_BEATMON_CTL holds. -/
def State.beatmonNext (u : State) (fn due : Nat) : State :=
  u.setField fn { u.field fn with bmStart := due, bmWindow := u.rf (Reg.FLD_BEATMON_CTL fn) 2 1, bmRail := false }

theorem exec_beatmonWindowEnd {beats : Nat} (hp : s.powered fn = true) (hj : (s.field fn).joined = true)
    (hc : s.rb (Reg.FLD_BEATMON_CTL fn) 0 = true) : exec (.beatmonWindowEnd fn beats) s =
      let due := (s.field fn).bmStart + bmLen (s.field fn).bmWindow
      .next ((s.beatmonRecord fn due beats).beatmonNext fn due) := by
  simp only [exec, execBeatmonWindowEnd, State.when, hp, hj, hc, Bool.and_self, if_true]
  rfl

theorem State.canonical_beatmonRecord {due beats : Nat} (h : s.Canonical) : (s.beatmonRecord fn due beats).Canonical := by
  have hUntil : Kept .nothing s (s.until due) := by apply State.until_kept (.rfl s) <;> nofun
  exact (State.add_kept (State.wn_kept (State.wn_kept hUntil nofun) nofun) nofun).canonical h

theorem State.bmWindow_beatmonNext {due : Nat} (h : s.Canonical) :
    ((s.beatmonNext fn due).field fn).bmWindow = (s.beatmonNext fn due).rf (Reg.FLD_BEATMON_CTL fn) 2 1 :=
  congrArg FieldSt.bmWindow (State.field_setField h.fields)

end

/-- Settles O58: the three kinds of write of FLD_BEATMON_CTL, then the window that follows a recorded one. -/
theorem beatmonWritesTakeEffect : Obligations.BeatmonWritesTakeEffect := by
  refine ⟨fun s who fn v hs hr => ⟨fun h hv => ?_, fun h hv => ?_, fun h hv => ?_⟩, fun s t fn beats hs hp hj hc ht => ?_⟩
  · exact ⟨_, exec_beatmonCtlWrite_same hr (h.trans hv.symm), State.rf_beatmonWindow hs.regs, rfl, rfl⟩
  · exact ⟨_, exec_beatmonCtlWrite_off hr h hv, State.rb_beatmonOff_valid hs.regs, State.rf_beatmonOff_rate hs.regs,
      State.rd_beatmonOff_count hs.regs, State.rd_beatmonOff_stamp, fun beats =>
        exec_beatmonWindowEnd_disabled ((State.rb_beatmonOff_enable hs.regs).trans hv)⟩
  · have hf := State.field_setField (s := s.wf (Reg.FLD_BEATMON_CTL fn) 2 0 v) (fn := fn)
      (f := { s.field fn with bmStart := s.now, bmWindow := nbits v 2 1, bmRail := false }) hs.fields
    exact ⟨_, exec_beatmonCtlWrite_on hr h hv, congrArg FieldSt.bmStart hf, congrArg FieldSt.bmWindow hf,
      (State.rb_beatmonEnable hs.regs).trans hv⟩
  · obtain rfl := Host.Outcome.next.inj ((exec_beatmonWindowEnd hp hj hc).symm.trans ht)
    exact State.bmWindow_beatmonNext (State.canonical_beatmonRecord hs)

end Sys2Proof.Machine

/-! SUPPORT. The beats of a core (R34): the stage that a BEAT advances, the vector that the drain writes, the weights that a
latch window puts in force, and the loading of an escape table. -/

namespace Sys2Proof.Machine

/-! ## The stage that a beat names (R34) -/

/-- `s` after a handshake of the stage that a BEAT names. -/
def State.stageBeat (s : State) (fn k : Nat) : Stage → State
  | .gen r => (s.genBeat fn k r).refresh fn k
  | .row r => if r < 32 then s.rowSlot fn k r else s
  | .tree j => s.treeBeat fn k j
  | .accum j => s.accumBeat fn k j
  | .param => s.paramBeat fn k
  | .mint => s.mintBeat fn k
  | .drain => s.drainBeat fn k
  | .mv => s.mvSlot fn k
  | .pfOut => s.pfOutBeat fn k
  | .pmOut => s.pmOutBeat fn k

section
variable {s : State} {fn k : Nat}

theorem exec_beat {stage : Stage} (hf : s.isFull fn = true) (hp : s.present fn k = true) (hx : (s.core fn k).flushAt = none)
    (hh : (s.core fn k).held = false) : exec (.beat fn k stage) s = .next (s.stageBeat fn k stage) := by
  have hRuns : (!s.isFull fn || !s.present fn k || (s.core fn k).flushAt.isSome || (s.core fn k).held) = false := by
    simp [hf, hp, hx, hh]
  simp only [exec, execBeat, hRuns, Bool.false_eq_true, if_false]
  cases stage <;> rfl

theorem State.mvSlot_chaff (h : (s.core fn k).hasReal 32 = false) :
    s.mvSlot fn k = (List.range (s.mvSlices fn k)).foldl (fun st i => st.chaffBeat fn k (i + 32)) s := by
  simp only [State.mvSlot, h, Bool.false_eq_true, if_false, List.foldl_map]

/-- The slot of row `r` in the present beat: the beat that had it already is over (log 22). -/
def CoreSt.takeSlot (c : CoreSt) (r : Nat) : CoreSt :=
  if c.slotRows.contains r then { c with slotRows := [r], slotReal := false } else { c with slotRows := c.slotRows ++ [r] }

theorem CoreSt.hasReal_takeSlot {c : CoreSt} {r f : Nat} : (c.takeSlot r).hasReal f = c.hasReal f := by
  unfold CoreSt.takeSlot
  split <;> rfl

theorem State.rowSlot_chaff {r : Nat} (h : (s.core fn k).hasReal r = false) :
    s.rowSlot fn k r = (s.setCore fn k ((s.core fn k).takeSlot r)).chaffBeat fn k r :=
  if_neg (ne_true_of_eq_false (CoreSt.hasReal_takeSlot.trans h))

theorem State.pfOutBeat_word {w : List Nat} {q : List (List Nat)} (hq : (s.island fn k).outq = w :: q)
    (hr : (s.island fn k).rstLow = false) :
    s.pfOutBeat fn k = (s.setIsl fn k { s.island fn k with outq := q }).emit (.island fn k 1 w) := by
  simp only [State.pfOutBeat, hq, hr, Bool.false_eq_true, if_false]

theorem State.pmOutBeat_word {w : PmWord} {q : List PmWord} (hq : (s.island fn k).pmq = w :: q)
    (hr : (s.island fn k).rstLow = false) (hw : w.fin = none) :
    s.pmOutBeat fn k = (s.setIsl fn k { s.island fn k with pmq := q }).emit (.island fn k 2 w.words) := by
  simp only [State.pmOutBeat, hq, hr, hw, Bool.false_eq_true, if_false]

/-! ## The drain (R269) -/

theorem State.drainBeat_last {v : Minted} {x : Cmd} (hd : (s.core fn k).drain = some v) (hv : v.remote = false)
    (hx : (s.core fn k).mint.find? (fun y => y.num = v.num) = some x) (hc : x.conv = true) :
    s.drainBeat fn k =
      (let t := (byteRuns v.addr v.bytes).foldl (fun st r => st.coreWrite fn k r.1 r.2) s
       let c := ({ t.core fn k with drain := none }).modCmd 1 v.num (fun y => { y with tail := true })
       (t.putCore fn k c).add (Reg.GZC_MINT_VECTORS fn k) 63 0 1) := by
  have hMint : (s.core fn k).mint.any (fun y => y.num = v.num) = true :=
    List.any_eq_true.mpr ⟨x, List.mem_of_find?_eq_some hx, List.find?_some (p := fun y : Cmd => decide (y.num = v.num)) hx⟩
  have hFin : (((s.core fn k).queue 1).find? (fun y => y.num = v.num)).any (·.conv) = true :=
    (congrArg (·.any (·.conv)) hx).trans hc
  simp only [State.drainBeat, hd, hv, hMint, hFin, if_true, Bool.false_and, Bool.false_eq_true, if_false]

end

/-! ## Rows that are rewritten one after the other -/

section
variable {c : CoreSt} {r : Nat} {x : RowSt}

theorem CoreSt.row_setRow_ne {j : Nat} (h : j ≠ r) : (c.setRow r x).row j = c.row j := tget_tput_ne _ h

theorem CoreSt.row_setRow (h : x ≠ {}) : (c.setRow r x).row r = x := tget_tput_self h

variable {l : List Nat} {f : Nat → RowSt}

theorem CoreSt.row_foldl_setRow (h : r ∈ l ∨ c.row r = f r) (hf : f r ≠ {}) :
    (l.foldl (fun (a : CoreSt) i => a.setRow i (f i)) c).row r = f r := by
  induction l generalizing c with
  | nil => exact h.resolve_left List.not_mem_nil
  | cons i l ih =>
    refine ih ?_
    by_cases hi : r = i
    · exact .inr (hi ▸ CoreSt.row_setRow (hi ▸ hf))
    · exact h.imp (fun hm => (List.mem_cons.mp hm).resolve_left hi) (CoreSt.row_setRow_ne hi).trans

theorem CoreSt.subs_foldl_setRow : (l.foldl (fun (a : CoreSt) i => a.setRow i (f i)) c).subs = c.subs := by
  induction l generalizing c with
  | nil => rfl
  | cons i l ih => exact ih

end

/-! ## The core and the stores after its status is shown -/

section
variable {s : State} {fn k : Nat}

theorem State.kept_refresh : Kept { Facets.stores with cores := True } s (s.refresh fn k) :=
  State.refresh_kept (.rfl s) nofun

theorem State.core_refresh : (s.refresh fn k).core fn k = s.core fn k :=
  congrArg (tget ({} : CoreSt) · (fn * 4 + k)) (State.kept_refresh.cores trivial)

theorem State.core_putCore {c : CoreSt} (w : tableWf (fun _ => ({} : CoreSt)) s.cores = true) :
    (s.putCore fn k c).core fn k = c := State.core_refresh.trans (State.core_setCore w)

theorem State.mem_putCore {c : CoreSt} : (s.putCore fn k c).mem = s.mem := State.kept_refresh.mem trivial

theorem State.core_add {off hi lo n : Nat} : (s.add off hi lo n).core fn k = s.core fn k := rfl

theorem State.core_wn {off n : Nat} : (s.wn off n).core fn k = s.core fn k := rfl

end

/-! ## The latch window (R212-R214, R247, R248) -/

/-- A FEED command with the number that was changed is one that was changed. -/
theorem CoreSt.mem_modCmd_feed {c : CoreSt} {num : Nat} {f : Cmd → Cmd} {y : Cmd} (hy : y ∈ (c.modCmd 0 num f).feed)
    (hn : y.num = num) : ∃ z ∈ c.feed, y = f z := by
  obtain ⟨z, hz, rfl⟩ := List.mem_map.mp hy
  split at hn
  next h => exact ⟨z, hz, if_pos h⟩
  next h => exact absurd hn h

/-- What a latch window that is neither refused nor poisoned leaves in the core for LOAD_W `x`, `c` being the core before it. -/
structure LatchedBy (c : CoreSt) (rows : Nat) (x : Cmd) (d : CoreSt) : Prop where
  lw : d.lw = x.num
  lwCmd : d.lwCmd = x.w
  lwShift : d.lwShift = sext 8 (leAt (x.head.getD []) 0 1)
  subs : d.subs = ((List.range rows).flatMap (fun r => match (c.row r).q with
    | .load _ _ l :: _ => l
    | _ => [])).foldl (fun m e => tput 0 m e.1 e.2) c.subs
  rows : ∀ r < rows, x.w.lwRows.testBit r = true → ∀ w l q, (c.row r).q = .load x.num w l :: q → (d.row r).w = some w
  feed : ∀ y ∈ d.feed, y.num = x.num → y.tail = true ∧ y.status = 0

section
variable {s : State} {fn k : Nat} {x : Cmd}

theorem exec_latchWindow_latched (hw : tableWf (fun _ => ({} : CoreSt)) s.cores = true)
    (hx : (s.core fn k).feed.find? (fun y => y.w.op = 1 && !y.tail) = some x) (hs : x.status = 0) (hg : x.gate ≤ s.now)
    (hm : ∀ r < s.rows fn k, (s.core fn k).atMark x r = true) (hb : scaleBad (x.head.getD []) = none) :
    ∃ t, exec (.latchWindow fn k) s = .next t ∧ LatchedBy (s.core fn k) (s.rows fn k) x (t.core fn k) ∧ t.mem = s.mem := by
  have hGo : ¬(!(List.range (s.rows fn k)).all (fun r => (s.core fn k).atMark x r) || decide (s.now < x.gate)) = true := by
    simpa [Nat.not_lt.mpr hg] using hm
  show ∃ t, execLatchWindow fn k s = .next t ∧ _
  unfold execLatchWindow
  extract_lets c rows subs
  split
  next h => exact absurd (hx.symm.trans h) nofun
  rename_i y h
  obtain rfl : x = y := Option.some.inj (hx.symm.trans h)
  split
  next h => exact absurd h hGo
  extract_lets head bad ok status detail mask newRow clash c1 tsh whole c2 c3 st st2
  have hOk : ok = true := by simp [ok, bad, head, hs, hb]
  have hStatus : status = 0 := by simp [status, bad, head, hs, hb]
  have hC2 : c2 = { c1 with
      subs := subs.foldl (fun t e => tput 0 t e.1 e.2) c1.subs, lw := x.num, lwCmd := x.w, lwShift := tsh,
      old := c2.old, mixed := c2.mixed, escs := c2.escs } := by
    simp only [c2, hOk, if_true]
  have hRow {r : Nat} {w : RowW} {l : List (Nat × Nat)} {q : List QEnt} (h : (c.row r).q = .load x.num w l :: q) :
      (newRow r).w = some w := by
    simp only [newRow, h, hOk, if_true]
  have hSt2 : st2 = st.wn (Reg.GZC_WSTATE fn k) (x.w.escCount * 65536 + x.w.group * 4096 + (if x.w.esc then 2048 else 0) +
      x.w.format * 1024 + twos 8 tsh) := if_pos hOk
  refine ⟨_, rfl, ?_, ?_⟩
  · have hCore : (st2.add (Reg.GZC_STALL_LATCH fn k) 63 0 (popN 32 mask)).core fn k = c3 := by
      rw [State.core_add, hSt2, State.core_wn, State.core_putCore hw]
    rw [hCore]
    refine ⟨?_, ?_, ?_, ?_, ?_, ?_⟩
    · exact congrArg CoreSt.lw hC2
    · exact congrArg CoreSt.lwCmd hC2
    · exact congrArg CoreSt.lwShift hC2
    · have hSubs : c1.subs = c.subs := CoreSt.subs_foldl_setRow
      exact (congrArg CoreSt.subs hC2).trans (congrArg (fun m => subs.foldl (fun t e => tput 0 t e.1 e.2) m) hSubs)
    · intro r hr _ w l q hq
      have hNew : newRow r ≠ {} := fun h => absurd ((hRow hq).symm.trans (congrArg RowSt.w h)) nofun
      have hC1 : c1.row r = newRow r := CoreSt.row_foldl_setRow (.inl (List.mem_range.mpr hr)) hNew
      have hRows : c2.rows = c1.rows := by rw [hC2]
      have hC3 : c3.row r = c1.row r := congrArg (tget ({} : RowSt) · r) hRows
      rw [hC3, hC1, hRow hq]
    · intro y hy hn
      obtain ⟨z, _, rfl⟩ := CoreSt.mem_modCmd_feed hy hn
      exact ⟨rfl, hStatus⟩
  · rw [State.add_mem, hSt2, State.wn_mem, State.mem_putCore]

/-! ## Escape tables (R253) -/

theorem exec_escapeTableLoad_feed (hf : s.isFull fn = true) (hl : (s.core fn k).lw = 0) (ho : (s.core fn k).old = [])
    (he : (s.core fn k).escs = []) (hc : (s.core fn k).feed = [x]) (hop : x.w.op = 1) (hesc : x.w.esc = true)
    (hn : x.w.escCount ≠ 0) : exec (.escapeTableLoad fn k) s =
      let n := min x.w.escCount 128
      let r := s.readEscs fn k x.w.escAddr (s.cols fn k) n 0 none {}
      let t : EscTab := { lw := x.num, entries := r.1.entries, bad := r.1.bad, poison := r.1.poison }
      .next ((r.2.putCore fn k { r.2.core fn k with escs := [t] }).add (Reg.GZC_ESC_LOADED fn k) 63 0 n) := by
  have hTab : (s.core fn k).escTab x.num = none := by rw [CoreSt.escTab, he]; rfl
  simp [exec, execEscapeTableLoad, hf, hl, ho, he, hc, hop, hesc, hn, hTab]

end

/-- Settles O11: the stage that a beat names, then the drain, the latch window and the escape table. -/
theorem beatsAdvanceOneStage : Obligations.BeatsAdvanceOneStage := by
  refine ⟨fun s fn k hf hp hx hh => ?_, fun s fn k r h => State.rowSlot_chaff h,
    fun s fn k v x hf hp hx hh hd hv hm hc => ?_, fun s fn k x hw hx hs hg hm hb => ?_,
    fun s fn k x hf hl ho he hc hop hesc hn => exec_escapeTableLoad_feed hf hl ho he hc hop hesc hn⟩
  · have hBeat (stage : Stage) := exec_beat (stage := stage) hf hp hx hh
    refine ⟨fun r => hBeat (.gen r), fun r hr => ?_, fun r hr => ?_, fun j => hBeat (.tree j), fun j => hBeat (.accum j),
      hBeat .param, hBeat .mint, hBeat .drain, hBeat .mv, fun hn => ?_, fun w q hq hr => ?_, fun w q hq hr hw => ?_⟩
    · exact (hBeat (.row r)).trans (congrArg _ (if_pos hr))
    · exact (hBeat (.row r)).trans (congrArg _ (if_neg (Nat.not_lt.mpr hr)))
    · exact (hBeat .mv).trans (congrArg _ (State.mvSlot_chaff hn))
    · exact (hBeat .pfOut).trans (congrArg _ (State.pfOutBeat_word hq hr))
    · exact (hBeat .pmOut).trans (congrArg _ (State.pmOutBeat_word hq hr hw))
  · exact (exec_beat hf hp hx hh).trans (congrArg _ (State.drainBeat_last hd hv hm hc))
  · obtain ⟨t, ht, hl, hmem⟩ := exec_latchWindow_latched hw hx hs hg hm hb
    exact ⟨t, ht, hl.lw, hl.lwCmd, hl.lwShift, hl.subs, hl.rows, hl.feed, fun a => congrArg (tget 0 · a) hmem⟩

end Sys2Proof.Machine

/-! SUPPORT. The state after reset, and wafer time on an empty queue: what ends at a time leaves wafer time, and each leg of the
passing of time arrives at its own end. -/

namespace Sys2Proof.Machine

/-! ## The state after reset -/

/-- Every table of the state after reset is empty. -/
theorem State.canonical_reset : State.reset.Canonical where
  regs := rfl
  mem := rfl
  poison := rfl
  flipped := rfl
  fields := rfl
  cores := rfl
  kvl := rfl
  snp := rfl
  isl := rfl
  leases := rfl

/-- Slot 0 of the fuses that the model chose is programmed and not revoked (log 4). -/
theorem State.keysLive_reset : State.reset.keysLive := by
  have hSlot : ((0, List.replicate 48 0) : Nat × List Byte) ∈ State.reset.car.fuses.live :=
    List.mem_filter.mpr ⟨List.mem_singleton_self _, rfl⟩
  exact List.ne_nil_of_mem hSlot

/-- Settles O51: the state after reset lists no entry in any table, and its fuses hold the key of slot 0. -/
theorem resetIsCanonical : Obligations.ResetIsCanonical :=
  ⟨State.canonical_reset, State.keysLive_reset, rfl, rfl, rfl, fun _ => rfl, fun _ => rfl, rfl, rfl⟩

/-! ## Wafer time moves forward -/

section
variable {s : State} {t n : Nat}

/-- The facets of an operation that leaves wafer time and may change everything else. -/
abbrev Facets.time : Facets := { Facets.nothing with now := True }

theorem State.mature_now : s.mature.now = s.now := by
  have hk : Kept .time s s.mature := by apply State.mature_kept (.rfl s) <;> nofun
  exact hk.now trivial

theorem State.leg_now (h : s.now ≤ t) : (s.leg t).now = t := by
  unfold State.leg
  extract_lets d u
  split
  next hd => exact Nat.le_antisymm h (Nat.sub_eq_zero_iff_le.mp hd)
  next => exact State.mature_now

/-- The next end of an ungating lies ahead, before the time that is waited for. -/
theorem State.nextUngate_between {w : Nat} (h : s.nextUngate t = some w) : s.now < w ∧ w < t :=
  of_decide_eq_true (List.mem_filter.mp (List.min?_mem h)).2

theorem State.legs_now (h : s.now ≤ t) : (State.legs t n s).now = t := by
  induction n generalizing s with
  | zero => exact State.leg_now h
  | succ n ih =>
    unfold State.legs
    split
    next w hw =>
      obtain ⟨hAfter, hBefore⟩ := State.nextUngate_between hw
      have hAt : (s.leg w).now = w := State.leg_now hAfter.le
      exact ih (hAt.trans_le hBefore.le)
    next => exact State.leg_now h

theorem State.advance_now (h : s.now ≤ t) : (s.advance t).now = t := State.legs_now h

/-! ## The tick of an empty queue -/

theorem State.idleTick_stopped (h : s.clock = false) : s.idleTick = s := if_neg (ne_true_of_eq_false h)

theorem State.idleTick_now (h : s.clock = true) : s.idleTick.now = s.now + 1 :=
  (congrArg State.now (if_pos h)).trans (State.advance_now (Nat.le_succ s.now))

theorem State.idleTick_pending : s.idleTick.pending = s.pending := by
  have hk : Kept .nothing s s.idleTick := by apply State.idleTick_kept (.rfl s) <;> nofun
  exact hk.pending

theorem step_idle (h : s.pending = []) : step s = .next s.idleTick := by
  unfold step
  rw [h]

end

/-- Settles O49: the step is the idle tick, which stands still without wafer time and advances it by one with it. -/
theorem emptyQueueTicks : Obligations.EmptyQueueTicks := by
  intro s hp
  refine ⟨fun hc => ?_, fun hc => ⟨s.idleTick, step_idle hp, State.idleTick_now hc, State.idleTick_pending.trans hp⟩⟩
  rw [step_idle hp, State.idleTick_stopped hc]

end Sys2Proof.Machine

/-! SUPPORT. The timebase: what the loss and the return of the reference clock, a sync exchange and the loss of a lock
answer where their conditions hold (R61, R63, R68). -/

namespace Sys2Proof.Machine

section
variable {s : State}

theorem State.when_of {c : Bool} {f : State → State} (h : c = true) : s.when c f = f s := if_pos h

/-- The condition of an excursion, as a condition. -/
theorem keepSince_decide {p : Prop} [Decidable p] {since : Option Nat} {t : Nat} :
    keepSince (decide p) since t = if p then some (since.getD t) else none := by
  by_cases h : p
  · simp [keepSince, h]
  · simp [keepSince, h]

/-! ## The reference clock (R61) -/

/-- `s` with the reference node in HOLDOVER for want of TB_REFCLK: its events are raised and the notice is sent. -/
def State.referenceLost (s : State) : State :=
  let t : State := { s with car := { s.car with refClock := false } }
  let t := ((t.nodeEnter s.anchor 4).setb (Reg.TBS_EVENT s.anchor) 5).setb (Reg.TBS_EVENT s.anchor) 2
  t.tbsUpdate.notice 0x20 0xFF s.anchor 0xFF 0xFF 0 0

/-- `s` with TB_REFCLK valid and the reference node in the state of its mode. -/
def State.referenceBack (s : State) : State :=
  let t : State := { s with car := { s.car with refClock := true } }
  (t.nodeEnter s.anchor (if s.brs.indep then 3 else 2)).tbsUpdate

section
variable (hc : s.clock = true) (hp : s.powered s.anchor = true)
include hc hp

theorem exec_refClockLost (ht : s.tbsState s.anchor ≠ 4) : exec .refClockLost s = .next s.referenceLost := by
  have hRuns : (s.clock && s.powered s.anchor && s.tbsState s.anchor ≠ 4) = true := by simp [hc, hp, ht]
  exact congrArg _ (State.when_of hRuns)

theorem exec_refClockRestored (ht : s.tbsState s.anchor = 4) (hr : s.mesh.rebuildAt = none) :
    exec .refClockRestored s = .next s.referenceBack := by
  have hRuns : (s.clock && s.powered s.anchor && s.tbsState s.anchor = 4) = true := by simp [hc, hp, ht]
  have hStands : ¬s.mesh.rebuildAt.isSome = true := by simp [hr]
  refine congrArg _ ((State.when_of hRuns).trans ?_)
  exact if_neg hStands

end

/-! ## Sync exchanges and the loss of a lock (R63, R68) -/

section
variable {fn : Nat}

/-- `s` after an exchange of `fn` that estimates the offset `d`: the offset is shown, and an excursion that has lasted long
enough raises its event (R58, R84). -/
def State.syncExchanged (s : State) (fn : Nat) (d : Int) : State :=
  let t := s.until ((s.field fn).syncAt + 1000)
  let f := t.field fn
  let skew := if 160 < d.natAbs then some (f.skewSince.getD t.now) else none
  let slew := if 3 < d.natAbs then some (f.slewSince.getD t.now) else none
  let t := t.setField fn { f with syncAt := t.now, skewSince := skew, slewSince := slew }
  let t := t.wf (Reg.TBS_OFFSET fn) 31 0 (twos 32 d)
  let t := if skew.any (· + 10000 ≤ t.now) then t.setb (Reg.TBS_EVENT fn) 6 else t
  (if slew.any (· + 1000000 < t.now) then t.setb (Reg.TBS_EVENT fn) 3 else t).tbsUpdate

/-- `s` with the node of `fn` FREE after the loss of its lock, its links retraining. -/
def State.unlocked (s : State) (fn : Nat) : State :=
  let e := Reg.TBS_EVENT fn
  let t := ((s.wn (Reg.TBS_LOSS_TIME fn) s.now).setb e 2).setb e 0
  let t := t.setField fn { t.field fn with retrainUntil := t.now + 4000, syncAt := t.now }
  (t.nodeEnter fn 3).tbsUpdate

/-- TIMEBASE_DEGRADED of `fn` goes to PF0 and to the VF of each partition concerned (R68 step 6). -/
def State.reportUnlocked (t : State) (fn : Nat) : State :=
  let data := t.rn (Reg.TBS_LOSS_TIME fn)
  let u := t.offer 0 0x21 fn (recordBytes 0x21 5 (t.owner fn) fn 0xFF 0xFF 0 t.now data 0)
  (u.partsAt fn).foldl (fun st p => st.offer (p + 1) 0x21 fn (recordBytes 0x21 5 p fn 0xFF 0xFF 0 t.now data 0)) u

variable (hp : s.powered fn = true) (hj : (s.field fn).joined = true)
include hp hj

theorem exec_linkSyncExchange {d : Int} (ht : s.tbsState fn = 3) (ha : fn ≠ s.anchor) :
    exec (.linkSyncExchange fn d) s = .next (s.syncExchanged fn d) := by
  have hRuns : (s.powered fn && (s.field fn).joined && s.tbsState fn = 3 && fn ≠ s.anchor) = true := by simp [hp, hj, ht, ha]
  refine congrArg _ ((State.when_of hRuns).trans ?_)
  simp only [keepSince_decide]
  rfl

theorem exec_lockLoss (ht : s.tbsState fn = 2) (hi : s.brs.indep = false) :
    exec (.lockLoss fn) s = .next ((s.unlocked fn).reportUnlocked fn) := by
  have hRuns : (s.powered fn && (s.field fn).joined && s.tbsState fn = 2 && !s.brs.indep) = true := by simp [hp, hj, ht, hi]
  exact congrArg _ (State.when_of hRuns)

end

end

/-- Settles O33: the condition of each of the four commands holds, and its action is taken. -/
theorem timebaseRuns : Obligations.TimebaseRuns :=
  ⟨fun _ hc hp ht => exec_refClockLost hc hp ht, fun _ hc hp ht hr => exec_refClockRestored hc hp ht hr,
    fun _ _ _ hp hj ht ha => exec_linkSyncExchange hp hj ht ha, fun _ _ hp hj ht hi => exec_lockLoss hp hj ht hi⟩

end Sys2Proof.Machine

/-! SUPPORT. The capture unit: an edge that the setting in force arms, and the read that frees the input (R79, R81). -/

namespace Sys2Proof.Machine

/-- `s` with wafer time captured at input `i`: an edge that was not read yet sets OVERRUN. -/
def State.captured (s : State) (fn i : Nat) : State :=
  let f := s.field fn
  let t := if f.captEdge.testBit i then s.setb (Reg.TBS_CAPT_CTL fn) (24 + i) else s
  (t.setField fn { f with captEdge := f.captEdge ||| 2 ^ i }).wn (Reg.TBS_CAPT fn i) t.now

section
variable {s : State} {fn i : Nat} (hi : i < 8)
include hi

theorem exec_captureEdge {fall : Bool} (hp : s.powered fn = true) (hj : (s.field fn).joined = true)
    (hs : s.captSource fn i = true) (he : nbit (s.captSetting fn) i = true)
    (hd : nbit (s.captSetting fn) (8 + i) = fall) : exec (.captureEdge fn i fall) s = .next (s.captured fn i) := by
  have hArmed : (decide (i < 8) && s.powered fn && (s.field fn).joined && s.captSource fn i &&
      nbit (s.captSetting fn) i && nbit (s.captSetting fn) (8 + i) == fall) = true := by
    simp [hi, hp, hj, hs, he, hd]
  exact congrArg _ (State.when_of hArmed)

theorem exec_captureRead {who : Who} (hr : s.fieldReason who fn = none) : exec (.captureRead who fn i) s =
      let f := s.field fn
      .next ((s.setField fn { f with
        captEdge := if f.captEdge.testBit i then f.captEdge - 2 ^ i else f.captEdge }).answer (s.rn (Reg.TBS_CAPT fn i))) := by
  simp only [exec, execCaptureRead, State.captRead, if_pos hi, hr]

end

/-- Settles O34: an edge and its read, then the end of a window and the three kinds of write of FLD_BEATMON_CTL. -/
theorem captureAndBeatmonRun : Obligations.CaptureAndBeatmonRun := by
  refine ⟨fun _ _ _ _ hi hp hj hs he hd => exec_captureEdge hi hp hj hs he hd,
    fun _ _ _ _ hi hr => exec_captureRead hi hr, fun _ _ _ hp hj hc => exec_beatmonWindowEnd hp hj hc, ?_⟩
  intro s who fn v c hr
  refine ⟨fun h hv => ?_, fun h hv => ?_, fun h => ?_⟩
  · exact exec_beatmonCtlWrite_off hr h hv
  · exact exec_beatmonCtlWrite_on hr h hv
  · exact exec_beatmonCtlWrite_same hr h

end Sys2Proof.Machine

/-! SUPPORT. The partition power commands: the state that each leaves where the partition admits it, and the end of a drain
(R99, R100). -/

namespace Sys2Proof.Machine

/-- `s` with partition `p` on its rise for the item `num`: a START loads its sections, a WAKE does not. -/
def State.riseFor (s : State) (p num : Nat) (load : Bool) : State :=
  let t := (s.beginRise p load).queueOns p
  t.setPart p { t.part p with cmd := some num }

/-- `s` with partition `p` draining for the RETAIN of the item `num`. -/
def State.drainFor (s : State) (p num : Nat) : State :=
  let t := s.wf (Reg.PWR_PART_STATE p) 31 24 0
  (t.setPart p { t.part p with cmd := some num, drainAt := some (t.now + t.drainNs) }).retainOn p

/-- `s` with the work in flight of partition `p` abandoned, in every core of its FULL fields. -/
def State.abandonPart (s : State) (p : Nat) : State :=
  (s.partFields p).foldl (fun st fn => (List.range 4).foldl (fun st k =>
    if st.isFull fn && st.present fn k then (st.flushCore fn k).abandonSlot fn k 3 else st) st) s

section
variable {s : State} {x : Started} {p : Nat}

theorem State.stopPart_takesDown {cause : Nat} (h0 : s.partState p ≠ 0) (h4 : s.partState p ≠ 4) :
    s.stopPart x p cause = s.takeDown p cause 0 (some x.num) := by
  rw [State.stopPart, if_neg h4, if_neg h0]

theorem exec_retainDrainTimeout {due : Nat} (hd : (s.part p).drainAt = some due)
    (hs : ((s.until due).part p).drainAt ≠ none) : exec (.retainDrainTimeout p) s =
      .next ((((s.until due).abandonPart p).wf (Reg.PWR_PART_STATE p) 31 24 2).retainDone p) := by
  have hStands : ¬((s.until due).part p).drainAt.isNone = true := fun h => hs (Option.isNone_iff_eq_none.mp h)
  show execRetainDrainTimeout p s = _
  simp only [execRetainDrainTimeout, hd, hStands]
  rfl

section
variable {it : Item} (hp : targetPart it < 16) (hd : (s.part (targetPart it)).defined = true)
include hp hd

theorem exec_partStart (ho : s.openItem it (if it.managed then 0x42 else 0x100) = some x) (ht : s.brs.testMode = false)
    (hm : s.partMoving (targetPart it) = false) (h0 : s.partState (targetPart it) = 0)
    (hc : s.hotFields (targetPart it) = false) (hr : s.rb Reg.AXB_CFG_STATUS 8 = true) :
    exec (.partStart it) s = .next ((s.begun x).riseFor (targetPart it) x.num true) := by
  show execPartStart it s = _
  rw [execPartStart, State.onPart_open ho hp hd]
  simp [ht, hm, h0, hc, hr, State.riseFor]

theorem exec_partWake (ho : s.openItem it (if it.managed then 0x45 else 0x22) = some x)
    (hm : s.partMoving (targetPart it) = false) (h3 : s.partState (targetPart it) = 3) :
    exec (.partWake it) s = .next ((s.begun x).riseFor (targetPart it) x.num false) := by
  show execPartWake it s = _
  rw [execPartWake, State.onPart_open ho hp hd]
  simp [hm, h3, State.riseFor]

theorem exec_partRetain (ho : s.openItem it (if it.managed then 0x44 else 0x21) = some x)
    (hm : s.partMoving (targetPart it) = false) (h2 : s.partState (targetPart it) = 2) :
    exec (.partRetain it) s = .next ((s.begun x).drainFor (targetPart it) x.num) := by
  show execPartRetain it s = _
  rw [execPartRetain, State.onPart_open ho hp hd]
  simp [hm, h2, State.drainFor]

section
variable (h0 : s.partState (targetPart it) ≠ 0) (h4 : s.partState (targetPart it) ≠ 4)
include h0 h4

theorem exec_partStop (ho : s.openItem it (if it.managed then 0x43 else 0x20) = some x) :
    exec (.partStop it) s = .next ((s.begun x).takeDown (targetPart it) 1 0 (some x.num)) := by
  show execPartStop it s = _
  rw [execPartStop, State.onPart_open ho hp hd]
  exact congrArg _ (State.stopPart_takesDown h0 h4)

theorem exec_partReset (ho : s.openItem it (if it.managed then 0x46 else 0x23) = some x) :
    exec (.partReset it) s = .next ((s.begun x).takeDown (targetPart it) 2 0 (some x.num)) := by
  show execPartReset it s = _
  rw [execPartReset, State.onPart_open ho hp hd]
  exact congrArg _ (State.stopPart_takesDown h0 h4)

end

end

end

/-- Settles O3: each command is open and its partition admits it; a drain that still stands at its timeout is cut off. -/
theorem partitionCommandsRun : Obligations.PartitionCommandsRun :=
  ⟨fun _ _ _ ho hp hd ht hm h0 hc hr => exec_partStart hp hd ho ht hm h0 hc hr,
    fun _ _ _ ho hp hd h0 h4 => exec_partStop hp hd h0 h4 ho, fun _ _ _ ho hp hd h0 h4 => exec_partReset hp hd h0 h4 ho,
    fun _ _ _ ho hp hd hm h2 => exec_partRetain hp hd ho hm h2, fun _ _ _ ho hp hd hm h3 => exec_partWake hp hd ho hm h3,
    fun _ _ _ hd hs => exec_retainDrainTimeout hd hs⟩

end Sys2Proof.Machine

/-! SUPPORT. Chaff and ramps: a gap, the ramp that follows it and the ramp up of returning work (R119, R122, R123), and the
gating of a quiesced group (R222). -/

namespace Sys2Proof.Machine

/-- `r` in the gap that begins at `now` with the settings `window`. -/
def Ramp.inGap (r : Ramp) (now window : Nat) : Ramp :=
  { r with phase := 1, since := now, window := window, slot := 0, busy := 0 }

/-- `r` after the dwell of its entry in a ramp table of `n` entries: the next entry, or the end of the ramp with the last. -/
def Ramp.advanced (r : Ramp) (up : Bool) (n now : Nat) : Ramp :=
  let e := r.entry + 1
  if n ≤ e + 1 then { r with phase := if up then 0 else 3, entry := if up then 0 else e, since := now, slot := 0, busy := 0 }
  else { r with entry := e, since := now, slot := 0, busy := 0 }

/-- `r` as its gap ends in state `t`: in the ramp-down table, at the first entry at or below its density. -/
def State.rampDown (t : State) (fn : Nat) (r : Ramp) : Ramp :=
  let n := t.rampCount fn false
  let i := ((List.range n).find? (fun i => (t.rampEntry fn false i).1 ≤ t.rampDensity fn r)).getD (n - 1)
  { r with phase := if n ≤ i + 1 then 3 else 2, entry := i, since := t.now, slot := 0, busy := 0 }

/-- `t` with the ramp of feeder `f` replaced. -/
def State.setRamp (t : State) (fn k f : Nat) (r : Ramp) : State := t.setCore fn k ((t.core fn k).setRamp f r)

/-- `t` with group `g` rail-gated: the gatings of the last 10 ns gain this one. -/
def State.gateGroup (t : State) (fn k g : Nat) : State :=
  let c := t.core fn k
  t.putCore fn k { c with
    quiet := c.quiet.filter (fun e => e.1 ≠ g), gates := (t.now :: c.gates).take 4,
    gated := if c.gated.contains g then c.gated else c.gated ++ [g] }

section
variable {s : State} {fn k : Nat}

/-! ## The ramps of a feeder -/

section
variable {f : Nat} {r : Ramp} (hr : (s.core fn k).ramp f = r)
include hr

theorem exec_chaffGap (hf : s.isFull fn = true) (hp : s.present fn k = true) (hi : f < 96) (h0 : r.phase = 0)
    (hh : r.hist ≠ []) (ht : (s.core fn k).hasReal f = false) (hl : (s.core fn k).loadHead f = false)
    (hq : s.feederQuiet fn k f = false) : exec (.chaffGap fn k f) s =
      .next (s.setRamp fn k f (r.inGap s.now (s.rf (Reg.FLD_CHAFF_CTL fn k) 20 0))) := by
  subst hr
  refine congrArg _ (State.when_of ?_)
  simp [hf, hp, hi, h0, hh, ht, hl, hq]

theorem exec_rampDownStart (h1 : r.phase = 1) : exec (.rampDownStart fn k f) s =
    let t := s.until (r.since + 10 * (r.window % 65536))
    .next (t.setRamp fn k f (t.rampDown fn r)) := by
  subst hr
  exact congrArg _ (State.when_of (decide_eq_true h1))

theorem exec_rampEntryAdvance {up : Bool} (hu : r.phase = if up then 4 else 2) : exec (.rampEntryAdvance fn k f) s =
    let t := s.until (r.since + 10 * (s.rampEntry fn up r.entry).2)
    .next (t.setRamp fn k f (r.advanced up (t.rampCount fn up) t.now)) := by
  subst hr
  cases up with
  | false =>
    rw [if_neg Bool.false_ne_true] at hu
    refine congrArg _ ((State.when_of (by simp [hu])).trans ?_)
    simp [hu, State.setRamp, Ramp.advanced]
  | true =>
    rw [if_pos rfl] at hu
    refine congrArg _ ((State.when_of (by simp [hu])).trans ?_)
    simp [hu, State.setRamp, Ramp.advanced]

theorem exec_rampUpStart (ht : (s.core fn k).hasReal f = true) (hd : r.phase = 2 ∨ (r.phase = 3 ∧ r.entry ≠ 0)) :
    exec (.rampUpStart fn k f) s = .next (s.setRamp fn k f (s.rampUp fn (s.rampDensity fn r) r)) := by
  subst hr
  exact congrArg _ ((State.when_of ht).trans (if_pos (by simpa using hd)))

end

/-! ## The gating of a group -/

theorem exec_groupGate_never {g g' since : Nat}
    (hq : (s.core fn k).quiet.find? (fun e => e.1 = g) = some (g', since, none)) :
    exec (.groupGate fn k g) s = .next s := by
  simp only [exec, execGroupGate, hq]

theorem exec_groupGate {g g' since delay : Nat}
    (hq : (s.core fn k).quiet.find? (fun e => e.1 = g) = some (g', since, some delay)) (hf : s.isFull fn = true) :
    exec (.groupGate fn k g) s =
      .next ((s.until (max (since + 1000 * delay) (((s.core fn k).gates[3]?.map (· + 10)).getD 0))).gateGroup fn k g) := by
  simp only [exec, execGroupGate, hq, State.when_of hf]
  rfl

end

/-- Settles O12: the phase of a feeder's ramp names its command; a group carries the delay with which its quiescing began. -/
theorem rampAndChaffRun : Obligations.RampAndChaffRun := by
  refine ⟨fun s fn k f hf hp hi h0 hh ht hl hq => exec_chaffGap rfl hf hp hi h0 hh ht hl hq,
    fun s fn k f h1 => exec_rampDownStart rfl h1,
    fun s fn k f => ⟨fun h2 => exec_rampEntryAdvance (up := false) rfl h2, fun h4 => exec_rampEntryAdvance (up := true) rfl h4⟩,
    fun s fn k f ht hd => exec_rampUpStart rfl ht hd, ?_⟩
  rintro s fn k g ⟨g', since, delay⟩ hq hf
  refine ⟨?_, ?_⟩
  · rintro rfl
    exact exec_groupGate_never hq
  · rintro delay rfl
    exact exec_groupGate hq hf

end Sys2Proof.Machine

/-! SUPPORT. The sequencing schedule and the joining of the timebase: what a step of switch-ons, a switch-off, a join and a
failed join answer (R66, R67, R94, R484). -/

namespace Sys2Proof.Machine

/-- `t` with the switch-ons `go` out of the schedule, and the time of the step that follows them (R94, R623). -/
def State.stepTaken (t : State) (go : List Switch) : State :=
  let rest := t.brs.ons.filter (fun x => !go.contains x)
  let extra := ((t.brs.seq.filter (fun (e : SeqEntry) => go.any (fun x => e.fns.contains x.fn))).map (·.extra)).foldl max 0
  let standby := go.any (fun x => x.fn = t.rf Reg.AXB_GRADE 31 24 && x.target == .base)
  let t : State := { t with brs := { t.brs with ons := rest, onAt := t.now + (t.brs.minGap + extra) * 1000 } }
  let r := Reg.PWR_SEQ_STATUS
  (t.wf r 7 0 (t.rf r 7 0 + 1)).wf r 11 8 (if rest.isEmpty then 0 else if standby then 2 else 3)

/-- `t` with `n` switch-offs out of the schedule, and the time of the step that follows them (R484, R86). -/
def State.offsTaken (t : State) (n : Nat) : State :=
  { t with brs := { t.brs with
    offs := t.brs.offs.drop n, offAt := t.now + (if t.car.emergency then 100000 else 1000000) } }

/-- `s` with the node of `fn` joined: its housekeeper and its tellers start (R66, R450). -/
def State.nodeJoined (s : State) (fn : Nat) : State :=
  let t := s.setField fn { s.field fn with
    joined := true, hkUp := true, hkBeatAt := s.now, scrubAt := s.now, patrolAt := s.now }
  ((t.nodeEnter fn (if t.mesh.rebuildAt.isSome then 4 else if t.brs.indep then 3 else 2)).wf
    (Reg.FLD_TELLER_STATUS fn 3) 34 32 2).tbsUpdate

section
variable {s : State}

theorem exec_sequencingStep (hc : s.clock = true) (he : s.car.emergency = false) (hg : nextOns s.brs.ons ≠ []) :
    exec .sequencingStep s =
      let go := nextOns s.brs.ons
      .next ((List.range 16).foldl (fun st p => st.riseOn p)
        (go.foldl (fun st x => st.switchOn x) ((s.until s.brs.onAt).stepTaken go))) := by
  refine if_neg ?_
  simp [hc, he, hg]

theorem exec_switchOffStep {x : Switch} (ho : s.brs.offs = [x]) (hw : x.who ≠ 0xFD) :
    exec .switchOffStep s = .next ((List.range 16).foldl (fun st p => st.fallOn p)
      (((s.until s.brs.offAt).offsTaken 1).switchOff x)) := by
  have hGo : s.brs.offs.take Config.stepFields = [x] := by rw [ho]; rfl
  show execSwitchOffStep s = _
  simp [execSwitchOffStep, hGo, hw, State.offsTaken]

section
variable {fn : Nat} (hj : s.joining fn = true)
include hj

theorem exec_timebaseJoin (hp : s.hasParent fn = true) (hb : s.now ≤ (s.field fn).baseAt + 1000000) :
    exec (.timebaseJoin fn) s =
      .next (if (s.field fn).power == .moving then (s.nodeJoined fn).computeOn fn else s.nodeJoined fn) := by
  refine if_neg ?_
  simp [hj, hp, Nat.not_lt.mpr hb]

theorem exec_timebaseJoinFailure :
    exec (.timebaseJoinFailure fn) s = .next ((s.until ((s.field fn).baseAt + 1000000)).upFailure fn 1) :=
  if_neg (by simp [hj])

end

end

/-- Settles O32: the schedule holds a step that may run; a joining field has a parent and its time, or has run out of it. -/
theorem sequencingRuns : Obligations.SequencingRuns := by
  refine ⟨fun s hc he hg => exec_sequencingStep hc he hg, ?_, fun s fn hj hp hb => exec_timebaseJoin hj hp hb,
    fun s fn hj => exec_timebaseJoinFailure hj⟩
  rintro s x rest ho hw rfl
  exact exec_switchOffStep ho (by omega)

end Sys2Proof.Machine

/-! SUPPORT. The pace unit in service: a mark of its group, a step, the fault of the loop and a thermal trip (R106, R111,
R116, R118, R300). -/

namespace Sys2Proof.Machine

/-- `t` with mark 0 of frame `b` counted: it dates the frame at `at'`, beside one other frame. -/
def State.markDated (t : State) (fn b at' : Nat) : State :=
  t.setField fn { t.field fn with
    markCount := (t.field fn).markCount + 1, mark0 := ((b, at') :: (t.field fn).mark0.filter (fun e => e.1 ≠ b)).take 2 }

/-- `t` with a mark of slack `z` counted. -/
def State.markCounted (t : State) (fn : Nat) (z : Int) : State :=
  t.setField fn { t.field fn with
    markCount := (t.field fn).markCount + 1
    markMin := some (match (t.field fn).markMin with
      | some y => if y < z then y else z
      | none => z) }

/-- `t` with the loop of `fn` held: its rail is at the lower of CEILING and thermal cap, and the fault is reported. -/
def State.loopFault (t : State) (fn : Nat) : State :=
  let t := t.setRail fn (min (t.rf (Reg.FLD_PACE_POLICY fn) 15 8) (t.rf (Reg.FLD_PLIMIT fn) 23 16))
  let t := (t.setField fn { t.field fn with loopHeld := true }).setb (Reg.FLD_PACE_EVENT fn) 6
  t.fault 0x15 2 (t.owner fn) fn 0xFF 0xFF 0 0

/-- Whether a junction at `tj` trips a FULL field (R116). -/
def State.tripDue (s : State) (fn : Nat) (tj : Int) : Prop :=
  105 * 16 ≤ tj ∨ (95 * 16 ≤ tj ∧ ∃ h, (s.field fn).hotSince = some h ∧ h + 1000000 ≤ s.now)

section
variable {s : State} {fn : Nat}

/-! ## Marks -/

@[simp] theorem State.takeArrived_field {m : Msg} : (s.takeArrived m).field fn = s.field fn := rfl
@[simp] theorem State.takeArrived_isFull {m : Msg} : (s.takeArrived m).isFull fn = s.isFull fn := rfl
@[simp] theorem State.takeArrived_rf {m : Msg} {r hi lo : Nat} : (s.takeArrived m).rf r hi lo = s.rf r hi lo := rfl

section
variable {m : Msg} (hk : m.kind = 8) (hu : m.dstUnit = 9) (hn : m.dstFn = fn) (hd : s.atDest m = true)
  (hf : s.isFull fn = true) (hg : s.rf (Reg.FLD_PWR_STATE fn) 31 24 = m.a)
include hk hu hn hd hf hg

theorem exec_paceMarkArrival_first (hc : m.c = 0) :
    exec (.paceMarkArrival fn m) s = .next ((s.takeArrived m).markDated fn m.b m.d) := by
  refine (if_neg ?_).trans ((State.onArrived_here hd).trans (congrArg _ ((if_neg ?_).trans (if_pos hc))))
  · simp [hk, hu, hn]
  · simp [hf, hg]

theorem exec_paceMarkArrival_later {t : Nat × Nat} {p : Nat} (hc : m.c ≠ 0)
    (ht : (s.field fn).mark0.find? (fun e => e.1 = m.b) = some t) (hp : (tget [] s.brs.marks m.a)[m.c]? = some p) :
    exec (.paceMarkArrival fn m) s = .next ((s.takeArrived m).markCounted fn (t.2 + p - m.d)) := by
  refine (if_neg ?_).trans ((State.onArrived_here hd).trans (congrArg _ ((if_neg ?_).trans ((if_neg hc).trans ?_))))
  · simp [hk, hu, hn]
  · simp [hf, hg]
  · simp only [State.takeArrived_field, State.takeArrived_brs, ht, hp]
    rfl

end

/-! ## Steps and the fault of the loop -/

section
variable (hr : s.paceRuns fn = true)
include hr

theorem exec_paceStep {r : RailReading} : exec (.paceStep fn r) s =
    let t := s.until (((s.field fn).lastStep / Config.paceStepNs + 1) * Config.paceStepNs)
    .next (t.paceStep fn (t.now / Config.paceStepNs * Config.paceStepNs) r) :=
  congrArg Host.Outcome.next (State.when_of hr)

theorem exec_paceFault (hh : (s.field fn).hkUp = true) : exec (.paceFault fn) s =
    .next ((s.until (((s.field fn).lastStep / Config.paceStepNs + 3) * Config.paceStepNs)).loopFault fn) := by
  have hSeen : (s.paceRuns fn && (s.field fn).hkUp) = true := by rw [hr, hh]; rfl
  exact congrArg _ (State.when_of hSeen)

end

/-! ## Thermal trips -/

theorem State.tripDue_iff {tj : Int} : s.tripDue fn tj ↔
    (decide (105 * 16 ≤ tj) || ((s.field fn).hotSince.any (· + 1000000 ≤ s.now) && decide (95 * 16 ≤ tj))) = true := by
  simp [State.tripDue, Option.any_eq_true, and_comm]

theorem State.not_tripDue {tj : Int} (hc : tj < 105 * 16)
    (hh : ∀ h, (s.field fn).hotSince = some h → tj < 95 * 16 ∨ s.now < h + 1000000) : ¬s.tripDue fn tj := by
  rintro (h105 | ⟨h95, h, hs, hp⟩)
  · omega
  · have := hh h hs
    omega

section
variable {tj : Int}

theorem exec_thermalTrip_hot (hf : s.isFull fn = true) (ht : s.tripDue fn tj) :
    exec (.thermalTrip fn tj) s = .next (s.trip fn tj) :=
  (if_pos hf).trans (congrArg _ (if_pos (State.tripDue_iff.mp ht)))

theorem exec_thermalTrip_cool (hf : s.isFull fn = true) (ht : ¬s.tripDue fn tj) : exec (.thermalTrip fn tj) s = .next s :=
  (if_pos hf).trans (congrArg _ (if_neg (mt State.tripDue_iff.mpr ht)))

theorem exec_thermalTrip_tripped (hf : s.isFull fn = false) (ht : (s.field fn).tripped = true) :
    exec (.thermalTrip fn tj) s = .next (s.setField fn { s.field fn with
      coolSince := if tj ≤ 85 * 16 then some ((s.field fn).coolSince.getD s.now) else none }) := by
  rw [← keepSince_decide]
  exact (if_neg (ne_true_of_eq_false hf)).trans (if_pos ht)

end

end

/-- Settles O35: a mark of the group that arrives, a loop that runs, and a junction that trips the field or does not. -/
theorem paceMarksAndStepsRun : Obligations.PaceMarksAndStepsRun := by
  refine ⟨fun s fn m hk hu hn hd hf hg => ⟨fun hc => exec_paceMarkArrival_first hk hu hn hd hf hg hc,
      fun t p hc ht hp => exec_paceMarkArrival_later hk hu hn hd hf hg hc ht hp⟩,
    fun s fn r hr => exec_paceStep hr, fun s fn hr hh => exec_paceFault hr hh,
    fun s fn tj => ⟨fun hf ht => exec_thermalTrip_hot hf ht, fun hf hc hh => exec_thermalTrip_cool hf (State.not_tripDue hc hh),
      fun hf ht => exec_thermalTrip_tripped hf ht⟩⟩

end Sys2Proof.Machine

/-! SUPPORT. The writes of the pace unit's policy, of a partition's policy, of the power limit and of the chaff settings: each
is valid and takes effect, or is refused with POLICY_ERR (R108, R110, R126). -/

namespace Sys2Proof.Machine

/-- The fields of partition `p` that take its policy: those that are FULL or RETAIN (R110). -/
def State.policyFields (s : State) (p : Nat) : List Nat :=
  (s.partFields p).filter (fun fn => (s.field fn).power == .full || (s.field fn).power == .retain)

/-- `s` with the policy `v` of partition `p` stored and staged in its fields, for the first boundary at least 60 µs later. -/
def State.partPolicyStaged (s : State) (p v : Nat) : State :=
  let t := s.wr (Reg.PWR_PART_POLICY p) (BitVec.ofNat 64 v &&& 0xF3FFFFFF)
  let due := (t.now + 60000 + Config.paceStepNs - 1) / Config.paceStepNs * Config.paceStepNs
  (s.policyFields p).foldl (fun st fn =>
    st.commonPolicy fn due (st.rd (Reg.PWR_PART_POLICY p)) (st.rd (Reg.PWR_PART_SLACK p))) t

section
variable {s : State} {who : Who}

/-- A permitted write that no check refuses is performed. -/
theorem State.fieldWrite_of {fn off : Nat} {f : State → State} (h : s.fieldReason who fn = none) :
    s.fieldWrite who fn off true f = f s := by
  simp only [State.fieldWrite, h, if_true]

/-! ## A field's policy, limit and chaff settings -/

section
variable {fn v : Nat} (hr : s.fieldReason who fn = none)
include hr

theorem exec_pacePolicyWrite {slack : Bool} : exec (.pacePolicyWrite who fn slack v) s = .next (s.stagePolicy fn slack v) :=
  congrArg _ (State.fieldWrite_of hr)

theorem exec_plimitWrite (hl : 1 ≤ nbits v 7 0) (hh : nbits v 7 0 ≤ 140) :
    exec (.plimitWrite who fn v) s = .next (s.wf (Reg.FLD_PLIMIT fn) 7 0 (nbits v 7 0)) := by
  have hLimit : ¬(decide (nbits v 7 0 = 0) || decide (140 < nbits v 7 0)) = true := by
    simp only [Bool.or_eq_true, decide_eq_true_eq]
    omega
  refine congrArg Host.Outcome.next ?_
  rw [State.plimitWrite, State.fieldWrite_of hr]
  exact if_neg hLimit

theorem exec_plimitWrite_refused (h : nbits v 7 0 = 0 ∨ 140 < nbits v 7 0) :
    exec (.plimitWrite who fn v) s = .next (s.policyErr fn) := by
  refine congrArg Host.Outcome.next ?_
  rw [State.plimitWrite, State.fieldWrite_of hr]
  exact if_pos (by simpa using h)

section
variable {n : Nat} (hn : n < 4)
include hn

theorem exec_chaffCtlWrite (hd : nbits v 20 16 ≤ 16) (hw : nbits v 15 0 ≤ 2000) :
    exec (.chaffCtlWrite who fn n v) s = .next (s.wf (Reg.FLD_CHAFF_CTL fn n) 20 0 v) := by
  refine congrArg Host.Outcome.next ((if_pos hn).trans ?_)
  rw [State.chaffWrite, State.fieldWrite_of hr]
  exact if_neg (by simp [hd, hw])

theorem exec_chaffCtlWrite_refused (h : 16 < nbits v 20 16 ∨ 2000 < nbits v 15 0) :
    exec (.chaffCtlWrite who fn n v) s = .next (s.policyErr fn) := by
  refine congrArg Host.Outcome.next ((if_pos hn).trans ?_)
  rw [State.chaffWrite, State.fieldWrite_of hr]
  exact if_pos (by simpa using h)

end

end

/-! ## A partition's policy -/

/-- The parties whose write of PWR_PART_POLICY is permitted: PF0, the bursar, and the VF of a partition that exists (R8). -/
def State.ownsPolicy (s : State) (who : Who) (p : Nat) : Prop :=
  who = .pf0 ∨ who = .bursar ∨ (who = .vf (p + 1) ∧ (s.part p).defined = true)

section
variable {p v : Nat} (hr : s.brs.recovery = false) (hm : s.ownsPolicy who p)
include hr hm

theorem State.partPolicyWrite_of : s.partPolicyWrite who p v =
    if policyOk v then s.partPolicyStaged p v else (s.policyFields p).foldl (fun st fn => st.policyErr fn) s := by
  have hUp : ¬s.brs.recovery = true := ne_true_of_eq_false hr
  obtain rfl | rfl | ⟨rfl, hd⟩ := hm
  · exact (if_neg hUp).trans (if_neg Bool.false_ne_true)
  · exact (if_neg hUp).trans (if_neg Bool.false_ne_true)
  · exact (if_neg hUp).trans (if_neg (by simp [hd]))

variable (hp : p < 16)
include hp

theorem exec_partPolicyWrite (hv : policyOk v = true) :
    exec (.partPolicyWrite who p v) s = .next (s.partPolicyStaged p v) :=
  congrArg _ ((if_pos hp).trans ((State.partPolicyWrite_of hr hm).trans (if_pos hv)))

theorem exec_partPolicyWrite_refused (hv : policyOk v = false) :
    exec (.partPolicyWrite who p v) s = .next ((s.policyFields p).foldl (fun st fn => st.policyErr fn) s) :=
  congrArg _ ((if_pos hp).trans ((State.partPolicyWrite_of hr hm).trans (if_neg (ne_true_of_eq_false hv))))

end

end

/-- Settles O36: no check refuses the write, and its value is valid or not. -/
theorem policyWritesRun : Obligations.PolicyWritesRun := by
  refine ⟨fun s who fn v hr => ?_, fun s who p v hp hr hm => ?_, fun s who fn v hr => ?_, fun s who fn n v hn hr => ?_⟩
  · have hStaged (slack : Bool) := exec_pacePolicyWrite (slack := slack) (v := v) hr
    exact ⟨fun hv => (hStaged false).trans (congrArg _ (if_pos hv)),
      fun hv => (hStaged false).trans (congrArg _ (if_neg (ne_true_of_eq_false hv))),
      fun hv => (hStaged true).trans (congrArg _ (if_pos hv)),
      fun hv => (hStaged true).trans (congrArg _ (if_neg (ne_true_of_eq_false hv)))⟩
  · exact ⟨fun hv => exec_partPolicyWrite hr hm hp hv, fun hv => exec_partPolicyWrite_refused hr hm hp hv⟩
  · exact ⟨fun hl hh => exec_plimitWrite hr hl hh, fun h => exec_plimitWrite_refused hr h⟩
  · exact ⟨fun hd hw => exec_chaffCtlWrite hr hn hd hw, fun h => exec_chaffCtlWrite_refused hr hn h⟩

end Sys2Proof.Machine

/-! SUPPORT. The load commands: a FULL and a PARTIAL load that nothing holds up, REBIND of the active build, and the second
pass of a field (R144, R147, R149, R151, R155). -/

namespace Sys2Proof.Machine

/-- `s` with image `i` committed as the full build, or with the first error that its checks find reported. -/
def State.checkFull (s : State) (i : Image) (source : Nat) (num : Option Nat) : State :=
  match s.fullErr i with
  | none => s.commitFull i source num
  | some e => s.failLoad num e (imgBuild i)

section
variable {s : State}

@[simp] theorem State.begun_partialErr {x : Started} {i : Image} {p : Option Nat} :
    (s.begun x).partialErr i p = s.partialErr i p := rfl

/-! ## Loads while no other runs -/

section
variable {i : Image} (hl : s.loading = false)
include hl

theorem State.loadFull_allOff {source : Nat} {num : Option Nat} (ho : ∀ p < 16, s.partState p = 0) :
    s.loadFull i source num = s.checkFull i source num := by
  have hOff : ¬(List.range 16).any (fun p => s.partState p ≠ 0) = true := by simpa using ho
  rw [State.loadFull, if_neg (ne_true_of_eq_false hl), if_neg hOff, State.checkFull]
  cases s.fullErr i <;> rfl

theorem State.loadPart_commits {p num : Option Nat}
    (hp : s.partState (p.getD (imgPart i)) = 0 ∨ s.partState (p.getD (imgPart i)) = 3) (he : s.partialErr i p = none) :
    s.loadPart i p num = s.commitPartial i (p.getD (imgPart i)) num := by
  have hDown : ¬(decide (p.getD (imgPart i) < 16) &&
      !(decide (s.partState (p.getD (imgPart i)) = 0) || decide (s.partState (p.getD (imgPart i)) = 3))) = true := by
    obtain h | h := hp <;> simp [h]
  simp only [State.loadPart, if_neg (ne_true_of_eq_false hl), if_neg hDown, he]

theorem State.rebind_active {num : Nat} (he : firstErr [s.headerErr i, s.dirErr i, setErr i, s.keyErr i] = none)
    (hk : imgKind i = 1) (hb : imgBuild i = s.rn Reg.AXB_CFG_BUILD) (hn : s.rn Reg.AXB_CFG_BUILD ≠ 0) :
    s.rebind i num =
      (State.setb { s with brs := { s.brs with image := some i } } Reg.AXB_CFG_STATUS 8).endCmd num 0 0 0 := by
  simp [State.rebind, hl, he, hk, hb, hn]

end

/-! ## The commands that load an image -/

section
variable {it : Item} {x : Started} {img : Image} (hl : s.loading = false)
include hl

theorem exec_loadSlot {k : Nat} (hx : s.openItem it 0x40 = some x) (ht : s.brs.testMode = false) (hs : it.u 0x20 1 ≤ 3)
    (hf : s.car.flash.slots.find? (fun e => e.1 = it.u 0x20 1) = some (k, img)) (ho : ∀ p < 16, s.partState p = 0) :
    exec (.loadSlot it) s = .next ((s.begun x).checkFull img (k + 1) (some x.num)) := by
  have hLoad := (s.begun x).loadFull_allOff (i := img) (source := k + 1) (num := some x.num) hl ho
  show execLoadSlot it s = _
  rw [execLoadSlot, State.onItem_open hx]
  simp [ht, Nat.not_lt.mpr hs, hf, hLoad]

section
variable (hx : s.openItem it 0x41 = some x) (ht : s.brs.testMode = false) (hd : s.canDma 0 = true)
  (hz : img.size ≤ it.u 0x30 8)
include hx ht hd hz

theorem exec_loadBitstream_partial (hr : it.u 0x20 1 % 2 = 0) (hk : imgKind img = 2)
    (hp : s.partState (imgPart img) = 0 ∨ s.partState (imgPart img) = 3) (he : s.partialErr img none = none) :
    exec (.loadBitstream it img) s = .next ((s.begun x).commitPartial img (imgPart img) (some x.num)) := by
  have hLoad := (s.begun x).loadPart_commits (p := none) (num := some x.num) hl hp he
  show execLoadBitstream it img s = _
  rw [execLoadBitstream, State.onItem_open hx]
  simpa [ht, hd, Nat.not_lt.mpr hz, hr, hk] using hLoad

theorem exec_loadBitstream_rebind (hr : it.u 0x20 1 % 2 = 1)
    (he : firstErr [s.headerErr img, s.dirErr img, setErr img, s.keyErr img] = none) (hk : imgKind img = 1)
    (hb : imgBuild img = s.rn Reg.AXB_CFG_BUILD) (hn : s.rn Reg.AXB_CFG_BUILD ≠ 0) :
    exec (.loadBitstream it img) s =
      .next ((State.setb { s.begun x with brs := { s.brs with image := some img } } Reg.AXB_CFG_STATUS 8).endCmd x.num 0 0 0) := by
  have hBound := (s.begun x).rebind_active (num := x.num) hl he hk hb hn
  show execLoadBitstream it img s = _
  rw [execLoadBitstream, State.onItem_open hx]
  simpa [ht, hd, Nat.not_lt.mpr hz, hr] using hBound

theorem exec_loadBitstream_full (hr : it.u 0x20 1 % 2 = 0) (hk : imgKind img ≠ 2) (ho : ∀ p < 16, s.partState p = 0) :
    exec (.loadBitstream it img) s = .next ((s.begun x).checkFull img 8 (some x.num)) := by
  have hLoad := (s.begun x).loadFull_allOff (i := img) (source := 8) (num := some x.num) hl ho
  show execLoadBitstream it img s = _
  rw [execLoadBitstream, State.onItem_open hx]
  simpa [ht, hd, Nat.not_lt.mpr hz, hr, hk] using hLoad

end

theorem exec_loadPartial (hx : s.openItem it 0x24 = some x) (hd : s.canDma (it.part + 1) = true)
    (hz : img.size ≤ it.u 0x30 8) (hp : s.partState it.part = 0 ∨ s.partState it.part = 3)
    (he : s.partialErr img (some it.part) = none) :
    exec (.loadPartial it img) s = .next ((s.begun x).commitPartial img it.part (some x.num)) := by
  have hLoad := (s.begun x).loadPart_commits (p := some it.part) (num := some x.num) hl hp he
  show execLoadPartial it img s = _
  rw [execLoadPartial, State.onItem_open hx]
  simpa [hd, Nat.not_lt.mpr hz] using hLoad

end

/-! ## The second pass of a field -/

section
variable {fn : Nat} (hb : s.rb Reg.AXB_CFG_STATUS 8 = true)
include hb

theorem exec_fieldFramesWrite (hw : s.brs.toLoad.any (fun t => t.fn = fn) = true) (hf : s.isFull fn = true) :
    exec (.fieldFramesWrite fn 0) s = .next (s.loadField fn) := by
  show execFieldFramesWrite fn 0 s = _
  simp [execFieldFramesWrite, hw, hf, hb, lateCode]

theorem exec_transitFieldWrite (hi : (s.field fn).listed = true) (hp : (s.field fn).part = 0xFF)
    (hw : (s.field fn).power = .base) (hj : (s.field fn).joined = true)
    (hc : s.rb (Reg.FLD_CFG_STATUS fn) 31 = false) :
    exec (.transitFieldWrite fn 0) s = .next ((List.range 16).foldl (fun st p => st.riseOn p)
      (((s.takeFrames fn (s.section 0x13 fn)).loadRoutes fn).fieldCommitted fn)) := by
  show execTransitFieldWrite fn 0 s = _
  simp [execTransitFieldWrite, hi, hp, hw, hj, hc, hb, lateCode]

end

end

/-- Settles O7: with no load running, the state of the partitions and the checks of the image decide what a load does. -/
theorem loadCommandsRun : Obligations.LoadCommandsRun :=
  ⟨fun _ _ _ _ _ hx ht hs hf hl ho => exec_loadSlot hl hx ht hs hf ho,
    fun _ _ _ _ hx ht hd hz hl =>
      ⟨fun hr hk _ hp he => exec_loadBitstream_partial hl hx ht hd hz hr hk hp he,
        fun hr he hk hb hn => exec_loadBitstream_rebind hl hx ht hd hz hr he hk hb hn,
        fun hr hk ho => exec_loadBitstream_full hl hx ht hd hz hr hk ho⟩,
    fun _ _ _ _ hx hd hz hl _ hp he => exec_loadPartial hl hx hd hz hp he,
    fun _ _ hw hf hb => exec_fieldFramesWrite hb hw hf,
    fun _ _ hi hp hw hj hc hb => exec_transitFieldWrite hb hi hp hw hj hc⟩

end Sys2Proof.Machine

/-! SUPPORT. Recovery: a scrubbed frame and its repair (R159, R160), a lease that ends and its entry's upper word (R301, R304),
and the standby anchor with its mirror (R307, R463). -/

namespace Sys2Proof.Machine

/-- `s` at the time of the next scrub of `fn`; one taken late is counted (R457). -/
def State.scrubDue (s : State) (fn : Nat) : State :=
  let due := (s.field fn).scrubAt + 1000 * s.rf (Reg.FLD_SCRUB_CTL fn) 9 0
  let t := if due < s.now then s.addSat (Reg.FLD_HK_STATUS fn) 47 32 1 else s
  t.until due

/-- `t` with the scrub of `fn` moved past the frame that it takes now. -/
def State.scrubPassed (t : State) (fn : Nat) : State :=
  (t.setField fn { t.field fn with scrubAt := t.now }).scrubNext fn

/-- Whether the scrub of `fn` passes over the frame that it takes now: its owner is stopped or held (R160). -/
def State.scrubSkips (t : State) (fn : Nat) : Bool :=
  let f := t.field fn
  let slot := f.frameOwner (scrubFrameAt f.scrubNext)
  (if slot = 0xFF then f.repair.any (fun b => f.frameOwner b = 0xFF) else f.stopped slot) ||
    (slot < 4 && ((t.scrubPassed fn).core fn slot).held)

/-- `u` with `n` words of frame `a` corrected: counted, and the frame named and dated. -/
def State.scrubNoted (u : State) (fn a n : Nat) : State :=
  let r := Reg.FLD_SCRUB_STATUS fn
  let v := u.addSat r 31 16 n
  (v.wf r 63 48 a).wn (Reg.FLD_SCRUB_TIME fn) v.now

/-- `v` with frame `a` counted as bad: its owner is stopped and it waits for its repair. -/
def State.frameLost (v : State) (fn a : Nat) : State :=
  let v := (v.addSat (Reg.FLD_SCRUB_STATUS fn) 47 32 1).stopOwner fn a
  v.setField fn { v.field fn with repair := (v.field fn).repair ++ [a] }

/-- `u` with frame `a` read back: `n` of its words corrected, and the frame bad or not. -/
def State.frameChecked (u : State) (fn a n : Nat) (bad : Bool) : State :=
  let r := Reg.FLD_SCRUB_STATUS fn
  let v := u.addSat r 31 16 n
  let v := if bad || n ≠ 0 then (v.wf r 63 48 a).wn (Reg.FLD_SCRUB_TIME fn) v.now else v
  if bad then v.frameLost fn a else v

/-- `s` with frame `a` of `fn` rewritten from the FRAMES section of its source. -/
def State.frameRewritten (s : State) (fn a : Nat) : State :=
  let bytes := match (allFrames (s.section 0x13 fn)).find? (fun x => x.1 = a) with
    | some x => (x.2.zipIdx).foldl (fun t e => tput 0 t e.2 e.1) ([] : List (Nat × Byte))
    | none => []
  s.setField fn { s.field fn with frames := tput [] (s.field fn).frames a bytes }

section
variable {s : State}

/-! ## Scrubs -/

theorem State.frameChecked_corrected {fn a n : Nat} (hn : n ≠ 0) :
    s.frameChecked fn a n false = s.scrubNoted fn a n := by
  simp [State.frameChecked, State.scrubNoted, hn]

theorem State.frameChecked_bad {fn a n : Nat} :
    s.frameChecked fn a n true = (s.scrubNoted fn a n).frameLost fn a := rfl

theorem State.not_scrubSkips {fn slot : Nat} (ho : (s.field fn).frameOwner (scrubFrameAt (s.field fn).scrubNext) = slot)
    (hs : (if slot = 0xFF then (s.field fn).repair.any (fun b => (s.field fn).frameOwner b = 0xFF)
      else (s.field fn).stopped slot) = false)
    (hh : slot < 4 → ((s.scrubPassed fn).core fn slot).held = false) : s.scrubSkips fn = false := by
  subst ho
  simpa only [State.scrubSkips, hs, Bool.false_or, Bool.and_eq_false_imp, decide_eq_true_eq] using hh

theorem exec_scrubFrame {fn n : Nat} {bad : Bool} (hp : s.powered fn = true) (hk : (s.field fn).hkUp = true)
    (hc : s.rb (Reg.FLD_CFG_STATUS fn) 31 = true) (he : s.rb (Reg.FLD_SCRUB_CTL fn) 31 = true)
    (hs : (s.scrubDue fn).scrubSkips fn = false) :
    exec (.scrubFrame fn n bad) s =
      let t := s.scrubDue fn
      .next ((t.scrubPassed fn).frameChecked fn (scrubFrameAt (t.field fn).scrubNext) n bad) := by
  have hOn : (s.powered fn && (s.field fn).hkUp && s.rb (Reg.FLD_CFG_STATUS fn) 31 &&
      s.rb (Reg.FLD_SCRUB_CTL fn) 31) = true := by simp [hp, hk, hc, he]
  exact congrArg Host.Outcome.next ((State.when_of hOn).trans (if_neg (ne_true_of_eq_false hs)))

/-! ## Repairs -/

section
variable {fn a : Nat} {rest : List Nat} (hr : (s.field fn).repair = a :: rest)
  {t : State} (ht : s.setField fn { s.field fn with repair := rest } = t)
include hr ht

theorem exec_cfgRepairComplete_rewrites (hb : s.rb Reg.AXB_CFG_STATUS 8 = true) :
    exec (.cfgRepairComplete fn true) s = .next (((t.frameRewritten fn a).releaseOwner fn a).fault 0x09 0 (s.owner fn) fn
      (if (s.field fn).frameOwner a < 4 then (s.field fn).frameOwner a else 0xFF) 0xFF a 0) := by
  have hBound : t.rb Reg.AXB_CFG_STATUS 8 = true := ht ▸ hb
  show execCfgRepairComplete fn true s = _
  simp only [execCfgRepairComplete, hr, ht, hBound]
  rfl

theorem exec_cfgRepairComplete_resets (hp : s.owner fn < 16) (h0 : t.partState (s.owner fn) ≠ 0)
    (h4 : t.partState (s.owner fn) ≠ 4) :
    exec (.cfgRepairComplete fn false) s = .next (t.bursarDown (s.owner fn) 5 0 0x0A fn a 0) := by
  show execCfgRepairComplete fn false s = _
  simp [execCfgRepairComplete, hr, ht, hp, h0, h4]

theorem exec_cfgRepairComplete_records
    (hp : 16 ≤ s.owner fn ∨ t.partState (s.owner fn) = 0 ∨ t.partState (s.owner fn) = 4) :
    exec (.cfgRepairComplete fn false) s = .next (t.fault 0x0A 2 (s.owner fn) fn
      (if (s.field fn).frameOwner a < 4 then (s.field fn).frameOwner a else 0xFF) 0xFF a 0) := by
  have hDown : (decide (s.owner fn < 16) && decide (t.partState (s.owner fn) ≠ 0) &&
      decide (t.partState (s.owner fn) ≠ 4)) = false := by
    obtain h | h | h := hp
    · simp [Nat.not_lt.mpr h]
    · simp [h]
    · simp [h]
  show execCfgRepairComplete fn false s = _
  simp only [execCfgRepairComplete, hr, ht, hDown, Bool.false_and, Bool.false_eq_true, if_false]

end

/-! ## Leases -/

theorem exec_leaseRevoke {i : Nat} (hq : (s.lease i).state = 2) :
    exec (.leaseRevoke i) s = .next ((List.range 16).foldl (fun st p => st.fallOn p)
      ((if (s.lease i).inflight = 0 then s else s.until (s.lease i).due).revokeNow i)) :=
  if_neg (not_not.mpr hq)

theorem exec_leaseHiRead {who : Who} (hr : s.moduleReason who = none) :
    exec (.leaseHiRead who) s =
      let i := s.rf Reg.AXB_LEASE_INDEX 11 0
      .next ((s.wf Reg.AXB_LEASE_INDEX 11 0 (i + 1)).answer (s.lease i).hi) := by
  simp only [exec, execLeaseHiRead, State.leaseHiTake, hr]

/-! ## The standby anchor -/

section
variable {b : Nat} (hr : s.brs.running = true) (hb : s.standby = some b)
include hr hb

theorem exec_anchorFailover {back : Bool} (hc : s.clock = true) :
    exec (.anchorFailover back) s = .next ((s.until (s.car.strobeAt + 5000000)).failover s.anchor b back) := by
  have hRuns : (s.brs.running && s.clock) = true := by rw [hr, hc]; rfl
  simp only [exec, execAnchorFailover, hb, State.when_of hRuns]

theorem exec_mirrorResync (hk : (s.field b).hkUp = true) :
    exec .mirrorResync s = .next (s.setb Reg.AXB_BURSAR_STATUS 0) := by
  refine congrArg _ (State.when_of ?_)
  simp [hr, hb, hk]

end

end

/-- Settles O43: a scrub that is on, the repair that waits first, a draining lease, and a standby anchor. -/
theorem recoveryRuns : Obligations.RecoveryRuns := by
  refine ⟨fun s fn n hp hk hc he hs hh => ?_,
    fun _ _ _ _ hr => ⟨fun hb => exec_cfgRepairComplete_rewrites hr rfl hb,
      fun hp h0 h4 => exec_cfgRepairComplete_resets hr rfl hp h0 h4,
      fun hp => exec_cfgRepairComplete_records hr rfl hp⟩,
    fun _ _ hq => exec_leaseRevoke hq, fun _ _ hr => exec_leaseHiRead hr,
    fun _ _ _ hr hc hb => exec_anchorFailover hr hb hc, fun _ _ hr hb hk => exec_mirrorResync hr hb hk⟩
  have hRead (bad : Bool) := exec_scrubFrame (n := n) (bad := bad) hp hk hc he (State.not_scrubSkips rfl hs hh)
  exact ⟨fun hn => (hRead false).trans (congrArg _ (State.frameChecked_corrected hn)),
    (hRead true).trans (congrArg _ State.frameChecked_bad)⟩

end Sys2Proof.Machine

/-! SUPPORT. The commands of a core outside its beats: submission (R183, R188, R189), issue and refusal (R184-R186), flush and
resume (R186, R200), the gleaner's clear and bins (R280, R281), the checksum record (R288, R289) and the housekeeper's response
(R292, R326); and the slice groups that stop counting as quiesced when the last RUN retires (R219). -/

namespace Sys2Proof.Machine

/-! ## Submission (R183, R188, R189) -/

/-- The rows of the table that submit a core command, each with its opcode. -/
def submitRows : List (Nat × (Nat → Nat → CmdWords → Instr)) :=
  [(0x00, .nop), (0x01, .loadW), (0x02, .run), (0x03, .mint), (0x04, .mv), (0x05, .push), (0x08, .paceMark), (0x09, .rampUp),
    (0x0A, .signal), (0x0B, .wait)]

/-- `s` with the words of `w` in the submission registers. -/
def State.cmdWritten (s : State) (fn k : Nat) (w : CmdWords) : State :=
  (((s.wr (Reg.GZC_CMD_W fn k 0) w.w0).wr (Reg.GZC_CMD_W fn k 1) w.w1).wr (Reg.GZC_CMD_W fn k 2) w.w2).wr
    (Reg.GZC_CMD_W fn k 3) w.w3

section
variable {s : State} {fn k : Nat} {w : CmdWords}

theorem exec_submitRow : ∀ p ∈ submitRows, exec (p.2 fn k w) s = .next (s.submitOp fn k p.1 w) := by
  simp only [submitRows, List.forall_mem_cons]
  exact ⟨rfl, rfl, rfl, rfl, rfl, rfl, rfl, rfl, rfl, rfl, nofun⟩

theorem State.submitOp_of {op : Nat} (h : s.slotReason (.teller fn k) fn k = none) :
    s.submitOp fn k op w = s.submit fn k { w with w0 := withBits w.w0 7 0 op } := by
  simp only [State.submitOp, h]

theorem State.submit_flushing (hf : (s.core fn k).flushAt.isSome = true) :
    s.submit fn k w = (s.cmdWritten fn k w).setb (Reg.GZC_STATUS fn k) 7 := if_pos hf

section
variable (hf : (s.core fn k).flushAt.isSome = false)
include hf

theorem State.submit_full (hl : 32 ≤ (s.core fn k).intake.length) :
    s.submit fn k w = (s.cmdWritten fn k w).setb (Reg.GZC_STATUS fn k) 6 :=
  (if_neg (ne_true_of_eq_false hf)).trans (if_pos hl)

theorem State.submit_enters (hl : (s.core fn k).intake.length < 32) :
    s.submit fn k w =
      let c := s.core fn k
      (s.cmdWritten fn k w).putCore fn k
        { c with intake := c.intake ++ [{ num := c.nextNum, w := w }], nextNum := c.nextNum + 1 } :=
  (if_neg (ne_true_of_eq_false hf)).trans (if_neg (Nat.not_le.mpr hl))

end

end

/-- Settles O8: the row names the opcode, and a flush, a full intake or a free place decides. -/
theorem coreCommandsSubmit : Obligations.CoreCommandsSubmit := by
  intro s fn k w op row hRow hr v t c
  have hExec : exec (row fn k w) s = .next (s.submit fn k v) :=
    (exec_submitRow (op, row) hRow).trans (congrArg _ (State.submitOp_of hr))
  exact ⟨fun hf hl => hExec.trans (congrArg _ (State.submit_enters hf hl)),
    fun hf hl => hExec.trans (congrArg _ (State.submit_full hf hl)),
    fun hf => hExec.trans (congrArg _ (State.submit_flushing hf))⟩

/-! ## Issue (R184-R186, R193-R196) -/

/-- Nothing holds the head `x` of the intake of a core: the core is usable, no WAIT stands in its control class, a barrier finds
its queues empty, and the queue of the class of `x` has a free place. -/
structure State.MayIssue (s : State) (fn k : Nat) (x : Cmd) : Prop where
  full : s.isFull fn = true
  present : s.present fn k = true
  running : s.halted fn k = false
  flush : (s.core fn k).flushAt = none
  held : (s.core fn k).held = false
  repairable : (s.core fn k).unrepairable = false
  share : (s.core fn k).shareAt = none
  thawed : s.rb (Reg.GZC_CS_STATUS fn k) 30 = false
  noWait : (s.core fn k).ctrl.any (fun y => y.w.op = 0x0B) = false
  barrier : x.w.barrier = true → (s.core fn k).feed = [] ∧ (s.core fn k).mint = [] ∧ (s.core fn k).mv = [] ∧
    (s.core fn k).push = [] ∧ (s.core fn k).ctrl = []
  room : ((s.core fn k).queue (classOf x.w.op)).length < 4

/-- `t` with the head of the intake, of words `w`, refused. -/
def State.refuseHead (t : State) (fn k : Nat) (w : CmdWords) (status detail : Nat) : State :=
  let t := t.setCore fn k { t.core fn k with haltHead := true }
  (t.postRecord fn k w status).halt fn k w status detail

/-- What becomes of a head `x` that nothing holds: it meets the checks of R185. -/
def State.headChecked (s : State) (fn k : Nat) (x : Cmd) (rest : List Cmd) : State :=
  let r := s.intakeCheck fn k x.w
  match r.1 with
  | some (status, detail) =>
    if 64 ≤ (s.core fn k).retire.length then s else r.2.2.refuseHead fn k x.w status detail
  | none =>
    let t := r.2.2.issueHead fn k x rest r.2.1
    if x.w.op = 0 ∨ x.w.op = 9 then (t.ctrlTail fn k).retire fn k 4 else t

section
variable {s : State} {fn k : Nat} {x : Cmd} {rest : List Cmd}

theorem exec_commandIssue (h : s.MayIssue fn k x) (hi : (s.core fn k).intake = x :: rest) :
    exec (.commandIssue fn k) s = .next (s.headChecked fn k x rest) := by
  have hFirst : (x.w.barrier && !((s.core fn k).feed.isEmpty && (s.core fn k).mint.isEmpty && (s.core fn k).mv.isEmpty &&
      (s.core fn k).push.isEmpty && (s.core fn k).ctrl.isEmpty)) = false := by
    cases hb : x.w.barrier with
    | false => rfl
    | true =>
      obtain ⟨hFeed, hMint, hMv, hPush, hCtrl⟩ := h.barrier hb
      simp [hFeed, hMint, hMv, hPush, hCtrl]
  simp only [exec, execCommandIssue, hi, h.full, h.present, h.running, h.flush, h.held, h.repairable, h.share, h.thawed,
    h.noWait, hFirst, Nat.not_le.mpr h.room, Option.isSome_none, Bool.not_true, Bool.or_false, decide_false, Bool.false_eq_true,
    if_false, State.headChecked]
  cases hr : (s.intakeCheck fn k x.w).1 with
  | some e => exact (apply_ite Host.Outcome.next _ _ _).symm
  | none => simp only [Bool.or_eq_true, decide_eq_true_eq]

theorem State.headChecked_accepted (hr : (s.intakeCheck fn k x.w).1 = none) :
    s.headChecked fn k x rest =
      let r := s.intakeCheck fn k x.w
      let t := r.2.2.issueHead fn k x rest r.2.1
      if x.w.op = 0 ∨ x.w.op = 9 then (t.ctrlTail fn k).retire fn k 4 else t := by
  simp only [State.headChecked, hr]

theorem State.headChecked_refused {status detail : Nat} (hr : (s.intakeCheck fn k x.w).1 = some (status, detail))
    (hl : (s.core fn k).retire.length < 64) :
    s.headChecked fn k x rest = (s.intakeCheck fn k x.w).2.2.refuseHead fn k x.w status detail := by
  simp only [State.headChecked, hr, if_neg (Nat.not_le.mpr hl)]

end

/-- Settles O9: the checks of R185 decide between the queue of the class and the halt. -/
theorem commandIssueRuns : Obligations.CommandIssueRuns := by
  intro s fn k x rest c hi hf hp hh hx hd hu hs ht hw hb hq r
  have hExec := exec_commandIssue ⟨hf, hp, Bool.eq_false_of_not_eq_true hh, hx, hd, hu, hs, ht, hw, hb, hq⟩ hi
  exact ⟨fun hr => hExec.trans (congrArg _ (State.headChecked_accepted hr)),
    fun _ _ hr hl => hExec.trans (congrArg _ (State.headChecked_refused hr hl))⟩

/-! ## Retirement and the quiesced groups (R219, R222) -/

/-- The last RUN of core 0 of F44: one token of row 0 and column 0, whose tail has passed. -/
def lastRun : Cmd := { num := 2, w := ⟨2, 1 + 1 <<< 32, 1 <<< 16, 0⟩, tail := true }

/-- F44 is FULL and `lastRun` stands alone in the FEED queue of its core 0, which has 16 rows and columns; slice group 1,
which serves column 1 of that core, has been quiesced since time 0. -/
def lastRunDone : State :=
  let s := (State.reset.wn Reg.AXB_FIELD_OK_LO (2 ^ 44)).wf (Reg.FLD_SLICE_MAP 44 0) 31 16 2
  let s := s.wn (Reg.GZC_SHAPE 44 0) (2 ^ 31 + 16 + 16 * 2 ^ 8)
  (s.setField 44 { power := .full, part := 0 }).setCore 44 0 { feed := [lastRun], quiet := [(1, 0, none)] }

/-- The groups that count as quiesced in a core slot after a command. -/
def quietAfter (o : Out1) (fn k : Nat) : List (Nat × Nat × Option Nat) :=
  match o with
  | .next t => (t.core fn k).quiet
  | _ => []

/-- With no RUN left in FEED the model counts no group as quiesced any more (R219). -/
theorem quietAfter_lastRun : quietAfter (exec (.commandRetirement 44 0 0) lastRunDone) 44 0 = [] := by
  decide +kernel

/-- Refutes O10: as the last RUN of FEED retires, group 1 stops counting as quiesced, where the statement leaves the list of
quiesced groups as it stood. -/
theorem not_retirementRuns : ¬ Obligations.RetirementRuns := by
  rintro ⟨hRetires, -, -⟩
  have hNext := hRetires lastRunDone 44 0 0 lastRun [] (by decide) (by decide +kernel) (by decide +kernel) (by decide +kernel)
    rfl rfl rfl (fun h => absurd h (by decide +kernel))
  have hQuiet := quietAfter_lastRun
  rw [hNext] at hQuiet
  exact absurd hQuiet (by decide +kernel)

/-! ## Writes of a slot's registers -/

section
variable {s : State} {who : Who} {fn k : Nat}

/-- A permitted write that no check refuses is performed. -/
theorem State.slotWrite_of {off : Nat} {p : Bool} {f : State → State} (h : s.slotReason who fn k = none) (hp : p = true) :
    s.slotWrite who fn k off p f = f s := by
  simp only [State.slotWrite, h, hp, if_true]

/-! ## Flush and resume (R186, R200) -/

theorem State.now_tapFlush : (s.tapFlush fn k).now = s.now := by
  have hKept : Kept { Facets.nothing with now := True } s (s.tapFlush fn k) := by
    apply State.tapFlush_kept (.rfl s) <;> nofun
  exact hKept.now trivial

theorem State.flushCore_of (hx : (s.core fn k).flushAt = none)
    (hw : (s.core fn k).ctrl.find? (fun x => x.w.op = 0x0B && x.sent = 1) = none) :
    s.flushCore fn k =
      let c := s.core fn k
      let n := c.intake.length + c.feed.length + c.mint.length + c.mv.length + c.push.length + c.ctrl.length
      let t := (s.tapFlush fn k).setCore fn k { c.emptied with flushAt := some (s.now + 20000), flushN := n }
      let t := if c.unrepairable then t else t.clrb (Reg.GZC_STATUS fn k) 2
      ((t.wn (Reg.GZC_BANK_EXP fn k) 0).wn (Reg.GZC_THRESH fn k) 0).refresh fn k := by
  simp only [State.flushCore, hx, hw, Option.isSome_none, Bool.false_eq_true, if_false, State.now_tapFlush]

theorem exec_flush (hr : s.slotReason who fn k = none) (hp : Who.tellerOf who fn k = true) :
    exec (.flush who fn k) s = .next (s.flushCore fn k) := congrArg _ (State.slotWrite_of hr hp)

theorem exec_resume (hr : s.slotReason who fn k = none) (hp : Who.tellerOf who fn k = true) :
    exec (.resume who fn k) s = .next (s.resumeCore fn k) := congrArg _ (State.slotWrite_of hr hp)

theorem State.resumeCore_of (hh : s.halted fn k = true) (hx : (s.core fn k).flushAt = none)
    (hu : (s.core fn k).unrepairable = false) :
    s.resumeCore fn k =
      let c := s.core fn k
      (s.clrb (Reg.GZC_STATUS fn k) 2).putCore fn k
        { c with intake := if c.haltHead then c.intake.drop 1 else c.intake, haltHead := false } := by
  simp [State.resumeCore, hh, hx, hu]

end

/-! ## Registers and bytes that a command zeroes -/

/-- A read of a cleared table: the unlisted value at the keys cleared, the old one everywhere else. -/
theorem tget_tclear {α : Type} {d : α} {t : List (Nat × α)} {lo hi j : Nat} :
    tget d (tclear lo hi t) j = if lo ≤ j ∧ j < hi then d else tget d t j := by
  induction t with
  | nil => exact (ite_self d).symm
  | cons e t ih =>
    unfold tclear at ih ⊢
    rw [List.filter_cons]
    by_cases hj : j = e.1
    · subst hj
      by_cases hIn : lo ≤ e.1 ∧ e.1 < hi
      · rw [if_neg (by simpa using hIn), ih, if_pos hIn, if_pos hIn]
      · rw [if_pos (by rw [decide_eq_true_eq]; omega), if_neg hIn]
        simp only [tget, if_true]
    · split
      next => simp only [tget, if_neg hj, ih]
      next => simp only [tget, if_neg hj, ih]

/-- `s` with every register of `l` zero. -/
def State.zeroRegs (s : State) (l : List Nat) : State := l.foldl (fun st r => st.wn r 0) s

section
variable {s : State} {l : List Nat} {r : Nat}

theorem State.regsWf_zeroRegs (w : regsWf s.regs) : regsWf (s.zeroRegs l).regs := by
  induction l generalizing s with
  | nil => exact w
  | cons i l ih => exact ih (State.regsWf_wr w)

theorem State.rd_zeroRegs_ne (h : r ∉ l) : (s.zeroRegs l).rd r = s.rd r := by
  induction l generalizing s with
  | nil => rfl
  | cons i l ih =>
    obtain ⟨hi, hl⟩ := List.ne_and_not_mem_of_not_mem_cons h
    exact (ih hl).trans (State.rd_wr_ne hi)

@[simp] theorem State.zeroRegs_cores : (s.zeroRegs l).cores = s.cores := by
  induction l generalizing s with
  | nil => rfl
  | cons i l ih => exact ih

@[simp] theorem State.zeroRegs_mem : (s.zeroRegs l).mem = s.mem := by
  induction l generalizing s with
  | nil => rfl
  | cons i l ih => exact ih

theorem State.rn_zeroRegs (w : regsWf s.regs) (h : r ∈ l) : (s.zeroRegs l).rn r = 0 := by
  induction l generalizing s with
  | nil => exact absurd h List.not_mem_nil
  | cons i l ih =>
    by_cases hl : r ∈ l
    · exact ih (State.regsWf_wr w) hl
    · obtain rfl := (List.mem_cons.mp h).resolve_right hl
      exact (congrArg BitVec.toNat (State.rd_zeroRegs_ne hl)).trans (State.rn_wn w)

end

/-! ## The gleaner (R280, R281) -/

/-- The registers of the gleaner that a clear zeroes. -/
def gleanRegs (fn k : Nat) : List Nat :=
  [Reg.GZC_GLEAN_SEQ fn k, Reg.GZC_GLEAN_VALUES fn k, Reg.GZC_GLEAN_CLIP_HI fn k, Reg.GZC_GLEAN_CLIP_LO fn k,
    Reg.GZC_GLEAN_CDOM fn k]

/-- `s` with the bins and the counters of a gleaner zero. -/
def State.gleanZeroed (s : State) (fn k : Nat) : State :=
  let base := s.ctlBase fn k + 0x6000
  (s.zeroRange base (base + 8192)).zeroRegs (gleanRegs fn k)

/-- `s` with the clear of a gleaner over. -/
def State.clearingOver (s : State) (fn k : Nat) : State := s.setCore fn k { s.core fn k with clearing := false }

section
variable {s : State} {who : Who} {fn k : Nat}

theorem State.gleanZero_eq :
    s.gleanZero fn k = ((s.gleanZeroed fn k).clearingOver fn k).clrb (Reg.GZC_GLEAN_CTL fn k) 9 := by
  simp only [State.gleanZero, State.gleanZeroed, State.clearingOver, State.zeroRegs, gleanRegs, List.foldl_cons,
    List.foldl_nil]

theorem State.cores_gleanZeroed : (s.gleanZeroed fn k).cores = s.cores := State.zeroRegs_cores

theorem State.regsWf_gleanZeroed (w : regsWf s.regs) : regsWf (s.gleanZeroed fn k).regs := State.regsWf_zeroRegs w

theorem State.regs_clearingOver : (s.clearingOver fn k).regs = s.regs := rfl

theorem State.rd_clearingOver {r : Nat} : (s.clearingOver fn k).rd r = s.rd r := rfl

theorem State.mintBeat_clears (hc : (s.core fn k).clearing = true) (hg : (s.core fn k).gleaning = false) :
    s.mintBeat fn k = s.gleanZero fn k := if_pos (by rw [hc, hg]; rfl)

theorem State.rn_gleanZero {r : Nat} (w : regsWf s.regs) (hr : r ∈ gleanRegs fn k) : (s.gleanZero fn k).rn r = 0 := by
  have hCtl : r ≠ Reg.GZC_GLEAN_CTL fn k := by
    rintro rfl
    simp [gleanRegs, Reg.GZC_GLEAN_CTL, Reg.GZC_GLEAN_SEQ, Reg.GZC_GLEAN_VALUES, Reg.GZC_GLEAN_CLIP_HI, Reg.GZC_GLEAN_CLIP_LO,
      Reg.GZC_GLEAN_CDOM] at hr
  rw [State.gleanZero_eq, State.rn, State.clrb, State.rd_wf_ne hCtl, State.rd_clearingOver]
  exact State.rn_zeroRegs w hr

theorem State.rb_gleanZero_clear (w : regsWf s.regs) : (s.gleanZero fn k).rb (Reg.GZC_GLEAN_CTL fn k) 9 = false := by
  have hRegs : regsWf ((s.gleanZeroed fn k).clearingOver fn k).regs := by
    rw [State.regs_clearingOver]
    exact State.regsWf_gleanZeroed w
  rw [State.gleanZero_eq, State.rb_clrb hRegs (by decide)]

theorem State.clearing_gleanZero (w : tableWf (fun _ => ({} : CoreSt)) s.cores = true) :
    ((s.gleanZero fn k).core fn k).clearing = false := by
  have hTable : tableWf (fun _ => ({} : CoreSt)) (s.gleanZeroed fn k).cores = true := by rwa [State.cores_gleanZeroed]
  have hCore := State.core_setCore (fn := fn) (k := k) (c := { (s.gleanZeroed fn k).core fn k with clearing := false }) hTable
  rw [State.gleanZero_eq, State.core, State.clrb_cores]
  exact congrArg CoreSt.clearing hCore

theorem State.mem_gleanZero : (s.gleanZero fn k).mem =
    tclear (s.ctlBase fn k + 0x6000) (s.ctlBase fn k + 0x6000 + 8192) s.mem := by
  rw [State.gleanZero_eq, State.clrb_mem, State.clearingOver, State.setCore_mem, State.gleanZeroed, State.zeroRegs_mem,
    State.zeroRange]

theorem State.mem8_gleanZero {a : Nat} : (s.gleanZero fn k).mem8 a =
    if s.ctlBase fn k + 0x6000 ≤ a ∧ a < s.ctlBase fn k + 0x8000 then 0 else s.mem8 a := by
  rw [State.mem8, State.mem_gleanZero, tget_tclear]
  exact if_congr (and_congr_right' (by omega)) rfl rfl

theorem exec_gleanBinRead (hr : s.slotReason who fn k = none) :
    exec (.gleanBinRead who fn k) s = .next ((s.answer (s.gleanBin fn k)).add (Reg.GZC_GLEAN_INDEX fn k) 9 0 1) := by
  simp only [exec, execGleanBinRead, hr]

/-! ## The checksum record (R288, R289) -/

/-- The checksum registers that a CLEAR zeroes. -/
def csRegs (fn k : Nat) : List Nat :=
  [Reg.GZC_CS_FIRST fn k, Reg.GZC_CS_RESID fn k, Reg.GZC_CS_DIAG fn k, Reg.GZC_MV_CS_FIRST fn k, Reg.GZC_MV_CS_RESID fn k]

/-- `s` with the frozen vector of a core removed. -/
def State.unfrozen (s : State) (fn k : Nat) : State := s.setCore fn k { s.core fn k with frozen := none }

/-- `s` with a slot's mismatch records removed: CS_STATUS shows no verdict. -/
def State.csCleared (s : State) (fn k : Nat) : State :=
  ((s.unfrozen fn k).wn (Reg.GZC_CS_STATUS fn k) 0xFF00).zeroRegs (csRegs fn k)

theorem State.csDiag_of {f : Frozen} (hf : (s.core fn k).frozen = some f) (hi : (s.core fn k).idle = true)
    (hx : (s.core fn k).flushAt = none) (hv : s.rb (Reg.GZC_CS_STATUS fn k) 31 = true)
    (hd : s.rb (Reg.GZC_CS_STATUS fn k) 29 = false) :
    s.csDiag fn k = if f.complete = false ∨ f.run.rowMask &&& f.load.lwRows ≠ f.run.rowMask then s.csVerdict fn k 6 0xFF
      else s.diagnose fn k f := by
  simp [State.csDiag, hf, hi, hx, hv, hd]

theorem State.csClear_eq : s.csClear fn k =
    ((s.csCleared fn k).wf (Reg.GZC_MV_STATUS fn k) 7 0 0).clrb (Reg.GZC_MV_STATUS fn k) 31 := by
  simp only [State.csClear, State.csCleared, State.unfrozen, State.zeroRegs, csRegs, List.foldl_cons, List.foldl_nil]

theorem State.regsWf_csCleared (w : regsWf s.regs) : regsWf (s.csCleared fn k).regs :=
  State.regsWf_zeroRegs (State.regsWf_wr w)

theorem State.rn_csClear_ne {r : Nat} (hr : r ≠ Reg.GZC_MV_STATUS fn k) :
    (s.csClear fn k).rn r = (s.csCleared fn k).rn r := by
  rw [State.csClear_eq, State.rn, State.clrb, State.rd_wf_ne hr, State.rd_wf_ne hr, State.rn]

theorem State.rn_csClear {r : Nat} (w : regsWf s.regs) (hr : r ∈ csRegs fn k) : (s.csClear fn k).rn r = 0 := by
  have hMv : r ≠ Reg.GZC_MV_STATUS fn k := by
    rintro rfl
    simp [csRegs, Reg.GZC_CS_FIRST, Reg.GZC_CS_RESID, Reg.GZC_CS_DIAG, Reg.GZC_MV_CS_FIRST, Reg.GZC_MV_CS_RESID,
      Reg.GZC_MV_STATUS] at hr
  rw [State.rn_csClear_ne hMv]
  exact State.rn_zeroRegs (State.regsWf_wr w) hr

theorem State.rn_csClear_status (w : regsWf s.regs) : (s.csClear fn k).rn (Reg.GZC_CS_STATUS fn k) = 0xFF00 := by
  have hMv : Reg.GZC_CS_STATUS fn k ≠ Reg.GZC_MV_STATUS fn k := by simp [Reg.GZC_CS_STATUS, Reg.GZC_MV_STATUS]
  have hRegs : Reg.GZC_CS_STATUS fn k ∉ csRegs fn k := by
    simp [csRegs, Reg.GZC_CS_STATUS, Reg.GZC_CS_FIRST, Reg.GZC_CS_RESID, Reg.GZC_CS_DIAG, Reg.GZC_MV_CS_FIRST,
      Reg.GZC_MV_CS_RESID]
  have hThawed : regsWf (s.unfrozen fn k).regs := w
  rw [State.rn_csClear_ne hMv, State.rn, State.csCleared, State.rd_zeroRegs_ne hRegs]
  exact State.rn_wn hThawed

theorem State.rb_csClear_mv (w : regsWf s.regs) : (s.csClear fn k).rb (Reg.GZC_MV_STATUS fn k) 31 = false := by
  rw [State.csClear_eq, State.rb_clrb (State.regsWf_wf (State.regsWf_csCleared w)) (by decide)]

theorem State.frozen_csClear (w : tableWf (fun _ => ({} : CoreSt)) s.cores = true) :
    ((s.csClear fn k).core fn k).frozen = none := by
  have hCore := State.core_setCore (fn := fn) (k := k) (c := { s.core fn k with frozen := none }) w
  rw [State.csClear_eq, State.core, State.clrb_cores, State.wf_cores, State.csCleared, State.zeroRegs_cores, State.wn_cores]
  exact congrArg CoreSt.frozen hCore

theorem State.mem_csClear : (s.csClear fn k).mem = s.mem := by
  rw [State.csClear_eq, State.clrb_mem, State.wf_mem, State.csCleared, State.zeroRegs_mem, State.wn_mem, State.unfrozen,
    State.setCore_mem]

/-! ## The housekeeper's response (R292, R326) -/

section
variable (hf : s.isFull fn = true) (hp : s.present fn k = true) (hk : (s.field fn).hkUp = true)
  (hu : (s.core fn k).unrepairable = false) (hx : (s.core fn k).flushAt = none)
include hf hp hk hu hx

theorem exec_columnRetirement_verdict {f : Frozen} (hz : (s.core fn k).frozen = some f)
    (hd : s.rb (Reg.GZC_CS_STATUS fn k) 29 = true) :
    exec (.columnRetirement fn k) s = .next (s.actOnVerdict fn k f) := by
  simp [exec, execColumnRetirement, State.when, hf, hp, hk, hu, hx, hz, hd]

theorem exec_columnRetirement_mv (hz : (s.core fn k).frozen = none) (hv : s.rb (Reg.GZC_MV_STATUS fn k) 31 = true) :
    exec (.columnRetirement fn k) s = .next (s.actOnMv fn k) := by
  simp [exec, execColumnRetirement, State.when, hf, hp, hk, hu, hx, hz, hv]

end

end

/-- Settles O13: each control that no check refuses, by the lemma of what it does. -/
theorem coreControlsRun : Obligations.CoreControlsRun := by
  refine ⟨fun s who fn k hr hp hx hw => ?_, fun s who fn k hr hp hh hx hu => ?_, fun s who fn k hr hp => ?_,
    fun s fn k hc hg => State.mintBeat_clears hc hg, fun s fn k w wc => ?_, fun s who fn k hr => exec_gleanBinRead hr,
    fun s fn k f hr hf hi hx hv hd => ?_, fun s fn k w wc hr => ?_, fun s fn k hf hp hk hu hx => ?_⟩
  · rw [exec_flush hr hp, State.flushCore_of hx hw]
  · rw [exec_resume hr hp, State.resumeCore_of hh hx hu]
  · exact congrArg _ (State.slotWrite_of hr hp)
  · have hZero : ∀ r ∈ gleanRegs fn k, (s.gleanZero fn k).rn r = 0 := fun _ hr => State.rn_gleanZero w hr
    simp only [gleanRegs, List.forall_mem_cons] at hZero
    obtain ⟨hSeq, hValues, hHi, hLo, hCdom, -⟩ := hZero
    exact ⟨hSeq, hValues, hHi, hLo, hCdom, State.rb_gleanZero_clear w, State.clearing_gleanZero wc,
      fun _ => State.mem8_gleanZero⟩
  · exact congrArg _ ((State.slotWrite_of hr (beq_self_eq_true _)).trans (State.csDiag_of hf hi hx hv hd))
  · have hZero : ∀ r ∈ csRegs fn k, (s.csClear fn k).rn r = 0 := fun _ hr => State.rn_csClear w hr
    simp only [csRegs, List.forall_mem_cons] at hZero
    obtain ⟨hFirst, hResid, hDiag, hMvFirst, hMvResid, -⟩ := hZero
    exact ⟨s.csClear fn k, congrArg _ (State.slotWrite_of hr (beq_self_eq_true _)), State.frozen_csClear wc,
      State.rn_csClear_status w, hFirst, hResid, hDiag, hMvFirst, hMvResid, State.rb_csClear_mv w,
      State.mem_csClear⟩
  · exact ⟨fun _ hz hd => exec_columnRetirement_verdict hf hp hk hu hx hz hd,
      fun hz hv => exec_columnRetirement_mv hf hp hk hu hx hz hv⟩

end Sys2Proof.Machine

/-! SUPPORT. The controls of the stores: the change of a cache share (R349), the conflict counters (R358) and the patrol
scrubber (R356). -/

namespace Sys2Proof.Machine

/-! ## The change of a cache share (R349) -/

/-- The cache share of a slot that is in force, in steps of 512 KiB. -/
def State.shareNow (s : State) (fn k : Nat) : Nat := s.rf (Reg.STO_NSP_CFG fn k) 2 0

/-- Where the cache region of `n` steps begins in the near scratchpad of a slot. -/
def State.shareEdge (s : State) (fn k n : Nat) : Nat := nearBase fn k + (s.userKib fn k - 512 * n) * 1024

/-- The lowest address that changes sides with a share of `new` steps. -/
def State.shareLo (s : State) (fn k new : Nat) : Nat := s.shareEdge fn k (max (s.shareNow fn k) new)

/-- The address after the highest that changes sides with a share of `new` steps. -/
def State.shareHi (s : State) (fn k new : Nat) : Nat := s.shareEdge fn k (min (s.shareNow fn k) new)

/-- Whether a window of the slot that is not CLOSED meets the range that changes sides. -/
def State.shareClash (s : State) (fn k new : Nat) : Bool :=
  (List.range 64).any fun w =>
    let x := s.window (ownerKey fn k) w
    x.state ≠ 0 && rangesMeet x.base x.size (s.shareLo fn k new) (s.shareHi fn k new - s.shareLo fn k new)

/-- The nanoseconds of a change: two dirty lines a beat, the fixed steps, and 256 beats a step that changes sides. -/
def State.shareTime (s : State) (fn k new : Nat) : Nat :=
  (((s.core fn k).cache.filter (fun e => e.2.dirty)).length + 1) / 2 + 14 + 2 +
    256 * (max (s.shareNow fn k) new - min (s.shareNow fn k) new)

/-- `s` with the cache of a slot written back and empty and the range that changes sides zero; objects in a range that the
cache gains are stale. -/
def State.shareMoved (s : State) (fn k new : Nat) : State :=
  let lo := s.shareLo fn k new
  let hi := s.shareHi fn k new
  let t := (s.cacheEmpty fn k).zeroRange lo hi
  if s.shareNow fn k < new then t.staleObjs (t.owner fn) fn k lo (hi - lo) else t

/-- `t` with a change to `new` steps in progress that ends after `n` nanoseconds. -/
def State.shareBegun (t : State) (fn k new n : Nat) : State :=
  (t.setCore fn k { t.core fn k with shareAt := some (t.now + n), shareTo := new }).setb (Reg.STO_NSP_CFG fn k) 31

section
variable {s : State} {who : Who} {fn k v : Nat}

/-- A new share is refused by a busy core, by a change in progress, above 4 steps and by a window in the way; else it begins. -/
theorem State.shareChange_of (hv : nbit v 30 = false) (hn : nbits v 2 0 ≠ s.shareNow fn k) :
    let new := nbits v 2 0
    s.shareChange fn k v =
      if !(s.core fn k).idle || s.rb (Reg.STO_NSP_CFG fn k) 31 || 4 < new || s.shareClash fn k new then
        s.setb (Reg.STO_NSP_CFG fn k) 30
      else (s.shareMoved fn k new).shareBegun fn k new (s.shareTime fn k new) := by
  unfold State.shareChange
  rw [hv]
  exact if_neg hn

theorem State.shareChange_refused (hv : nbit v 30 = false) (hn : nbits v 2 0 ≠ s.shareNow fn k)
    (h : (s.core fn k).idle = false ∨ s.rb (Reg.STO_NSP_CFG fn k) 31 = true ∨ 4 < nbits v 2 0 ∨
      s.shareClash fn k (nbits v 2 0) = true) :
    s.shareChange fn k v = s.setb (Reg.STO_NSP_CFG fn k) 30 := by
  refine (State.shareChange_of hv hn).trans (if_pos ?_)
  simpa only [Bool.or_eq_true, Bool.not_eq_true', decide_eq_true_eq, or_assoc] using h

theorem State.shareChange_taken (hv : nbit v 30 = false) (hn : nbits v 2 0 ≠ s.shareNow fn k)
    (hi : (s.core fn k).idle = true) (hb : s.rb (Reg.STO_NSP_CFG fn k) 31 = false) (hle : nbits v 2 0 ≤ 4)
    (hc : s.shareClash fn k (nbits v 2 0) = false) :
    s.shareChange fn k v =
      (s.shareMoved fn k (nbits v 2 0)).shareBegun fn k (nbits v 2 0) (s.shareTime fn k (nbits v 2 0)) := by
  refine (State.shareChange_of hv hn).trans (if_neg ?_)
  simp [hi, hb, hc, hle]

theorem exec_cacheShareChange (hr : s.slotReason who fn k = none) (hp : s.tellerOrOwner who fn k = true) :
    exec (.cacheShareChange who fn k v) s = .next (s.shareChange fn k v) := congrArg _ (State.slotWrite_of hr hp)

end

/-! ## The conflict counters (R358) -/

/-- The registers that CLEAR_CONF zeroes: the counters of each bank and the gaps. -/
def confRegs (fn k : Nat) : List Nat :=
  (List.range 16).flatMap (fun b => [Reg.STO_NSP_CONF_W fn k b, Reg.STO_NSP_CONF_N fn k b]) ++ [Reg.STO_NSP_GAPS fn k]

section
variable {s : State} {who : Who} {fn k : Nat}

theorem State.clearConf_eq : s.clearConf fn k = s.zeroRegs (confRegs fn k) := by
  simp only [State.clearConf, State.zeroRegs, confRegs, List.foldl_append, List.foldl_flatMap, List.foldl_cons, List.foldl_nil]

theorem gaps_mem_confRegs : Reg.STO_NSP_GAPS fn k ∈ confRegs fn k := List.mem_append_right _ (List.mem_singleton_self _)

theorem exec_clearConflicts (hr : s.slotReason who fn k = none) (hp : s.storeWriter who fn = true) :
    exec (.clearConflicts who fn k) s = .next (s.zeroRegs (confRegs fn k)) := by
  rw [exec, execClearConflicts, State.slotWrite_of hr hp, State.clearConf_eq]

end

/-! ## Patrol (R356) -/

/-- `s` at the time of the next patrol read of `fn`, which is dated. -/
def State.patrolDue (s : State) (fn : Nat) : State :=
  let t := s.until ((s.field fn).patrolAt + 1000 / s.rf (Reg.STO_PATROL_CTL fn) 5 0)
  t.setField fn { t.field fn with patrolAt := t.now }

/-- `t` with the line at offset `o` of `fn` checked and patrol at the line after it; a pass that begins with it (`again`) or
ends with it is counted. -/
def State.patrolLine (t : State) (fn o : Nat) (again : Bool) : State :=
  let r := Reg.STO_PATROL_STATUS fn
  let t := if again then t.add r 63 48 1 else t
  let t := t.patrolWords fn (fn * 2 ^ 40 + o) 16
  let o' := if o + 128 = 0x101000000 then 0 else if o + 128 = 0xC000000 then 0x100000000 else o + 128
  let t := if o + 128 = 0x101000000 then t.add r 63 48 1 else t
  t.wf r 47 0 (fn * 2 ^ 40 + o')

/-- `t` with the line checked where patrol stands, or the next one that it may read; as it was where there is none. -/
def State.patrolNext (t : State) (fn : Nat) : State :=
  match t.patrolAt fn 40 (addrOff (t.rf (Reg.STO_PATROL_STATUS fn) 47 0)) false with
  | none => t
  | some (o, again) => t.patrolLine fn o again

theorem exec_patrolRead {s : State} {fn : Nat} (hf : s.isFull fn = true) (he : s.rb (Reg.STO_PATROL_CTL fn) 31 = true)
    (hr : s.rf (Reg.STO_PATROL_CTL fn) 5 0 ≠ 0) :
    exec (.patrolRead fn) s = .next ((s.patrolDue fn).patrolNext fn) :=
  congrArg _ (if_pos (by simp [hf, he, hr]))

/-- Settles O30: a write of the share and of CLEAR_CONF that no check refuses is performed, and a patrol read that is due. -/
theorem storeControlsRun : Obligations.StoreControlsRun := by
  refine ⟨fun s who fn k v hr hp hv hn => ⟨fun h => ?_, fun hi hb hle hc => ?_⟩, fun s who fn k w hr hp => ?_,
    fun s fn hf he hr => exec_patrolRead hf he hr⟩
  · rw [exec_cacheShareChange hr hp, State.shareChange_refused hv hn h]
  · exact (exec_cacheShareChange hr hp).trans (congrArg _ (State.shareChange_taken hv hn hi hb hle hc))
  · exact ⟨s.zeroRegs (confRegs fn k), exec_clearConflicts hr hp, State.rn_zeroRegs w gaps_mem_confRegs,
      State.zeroRegs_mem⟩

end Sys2Proof.Machine

/-! SUPPORT. The deposit port: the window that a deposit meets, and what a deposit into a near scratchpad leaves behind when it
is stored and when it is refused (R384, R385). -/

namespace Sys2Proof.Machine

/-- Whether window `x` is not CLOSED, contains the range of deposit `m` and is held by its sender. -/
def State.meets (s : State) (x : Window) (m : Msg) : Bool :=
  x.state ≠ 0 && inRange x.base x.size m.dst (64 * m.len) && s.isHolder x m

/-- `s` with the bytes of `m` stored through window `w` of core slot `k`, counted there and acknowledged. -/
def State.depositStored (s : State) (fn k w : Nat) (m : Msg) : State :=
  let x := s.window (ownerKey fn k) w
  let units := if x.mode = 0 then m.len else 0
  ((s.setWindow (ownerKey fn k) w
    { x with outstanding := x.outstanding + m.len - units, deposited := x.deposited + 64 * m.len }).store
      m.dst m.data).depositReply fn k m 2 0 units

/-- `s` with `m` refused at window `w` of core slot `k` for reason `r`, counted there and answered NAK. -/
def State.depositRefused (s : State) (fn k w : Nat) (m : Msg) (r : Nat) : State :=
  let x := s.window (ownerKey fn k) w
  ((s.setWindow (ownerKey fn k) w { x with refused := satN 32 (x.refused + 1) }).addSat
    (Reg.MSH_WIN_STATUS fn k) 31 0 1).depositReply fn k m 3 r m.len

section
variable {s : State} {m : Msg} {fn k w : Nat}

theorem State.matchWindow_of {key : Nat} (h : (List.range 64).find? (fun i => s.meets (s.window key i) m) = some w) :
    s.matchWindow key m = w := congrArg (·.getD m.window) h

theorem exec_deposit_near (h1 : m.kind = 1) (ha : s.atDest m = true) (hd : s.depositHeld m = false)
    (hf : addrFn m.dst < 0xC0) (hn : isNear m.dst = true) :
    exec (.deposit m) s =
      .next ((s.takeArrived m).depositAt (addrFn m.dst) ((addrOff m.dst - 0x100000000) / 0x400000) m) := by
  have hOpen : ¬(m.kind ≠ 1 || s.depositHeld m) = true := by simp [h1, hd]
  have hNoCopy : ¬0xE0 ≤ addrFn m.dst := by omega
  have hNoPeer : ¬0xC0 ≤ addrFn m.dst := by omega
  show execDeposit m s = _
  rw [execDeposit, if_neg hOpen, State.onArrived_here ha]
  simp only [if_neg hNoCopy, if_neg hNoPeer, hn, if_true]

section
variable (hk : k < 4) (hw : s.matchWindow (ownerKey fn k) m = w)
include hk hw

theorem State.depositAt_stored (hn : isNear m.dst = true) (hf : s.depositFault (s.window (ownerKey fn k) w) m = none) :
    s.depositAt fn k m = s.depositStored fn k w m := by
  simp [State.depositAt, State.depositStored, hw, hf, hn, hk, Nat.not_le.mpr hk]

theorem State.depositAt_refused {r : Nat} (hf : s.depositFault (s.window (ownerKey fn k) w) m = some r) :
    s.depositAt fn k m = s.depositRefused fn k w m r := by
  simp [State.depositAt, State.depositRefused, hw, hf, hk]

end

end

/-- Settles O16: a near deposit goes to the core slot of its range, and the tests of its window decide. -/
theorem depositsAreStoredAndAnswered : Obligations.DepositsAreStoredAndAnswered := by
  refine ⟨fun s m h1 ha hd hf hn => exec_deposit_near h1 ha hd hf hn, fun s fn k m x w hk hn hm hx => ?_⟩
  subst hx
  have hWindow : s.matchWindow (ownerKey fn k) m = w := State.matchWindow_of hm
  exact ⟨fun hf => State.depositAt_stored hk hWindow hn hf, fun r hf => State.depositAt_refused hk hWindow hf⟩

end Sys2Proof.Machine

/-! SUPPORT. The messages of windows that reach a core: its grants are filled, cleared and topped up (R381, R384, R387), a
closed window ends its leases (R387), and a PUSH sends its next message (R383). -/

namespace Sys2Proof.Machine

/-- Whether the range of the GRANT `m` meets that of a VALID grant of holder `h`. -/
def State.grantClash (s : State) (h : Nat) (m : Msg) : Bool :=
  (List.range 64).any (fun i => (s.grantOf h i).state = 1 && rangesMeet (s.grantOf h i).base (s.grantOf h i).size m.a m.b)

/-- `t` with slot `g` of holder `h` filled from the GRANT `m`, which is marked where it overlaps a grant held (`clash`). -/
def State.grantFilled (t : State) (h g : Nat) (m : Msg) (clash : Bool) : State :=
  let t := t.setGrant h g
    { base := m.a, size := m.b, scrip := m.c, total := m.c, state := 1, window := m.window, wgen := m.wgen,
      ownerFn := m.srcFn, ownerSlot := grantSlot m, mode := m.d }
  if clash && h < 400 then t.setb (Reg.MSH_GRANT_STATUS (h / 4) (h % 4)) 63 else t

/-- `t` with the units of the SCRIP `m` in grant `g` of holder `h`, if that is VALID and of the window's generation. -/
def State.scripReturned (t : State) (h : Nat) (m : Msg) (g : Nat) : State :=
  let x := t.grantOf h g
  if x.state = 1 && x.wgen = m.wgen then t.setGrant h g { x with scrip := x.scrip + m.units } else t

/-- Bytes of the next message of the PUSH `x` under grant `g` of holder `h` (R383). -/
def State.pushChunk (s : State) (h g : Nat) (x : Cmd) : Nat :=
  min (min (x.w.length - x.sent) (2048 - x.sent % 2048)) (64 * (s.grantOf h g).total)

/-- `s` with the next message of the PUSH `x` read, taken from grant `g` and injected. -/
def State.pushSent (s : State) (fn k g : Nat) (x : Cmd) : State :=
  let h := coreHolder fn k
  let n := s.pushChunk h g x
  let r := s.coreRead fn k (x.w.src + x.sent) n
  let t := r.2.2.putCore fn k ((r.2.2.core fn k).modCmd 3 x.num
    (fun y => { y with sent := y.sent + n, unacked := y.unacked + 1, grant := some (s.grantOf h g) }))
  t.sendDeposit fn k (t.owner fn) h g (x.w.dst + x.sent) r.1 (.push fn k x.num) false

theorem unitHolder_core {fn unit part : Nat} (h : unit < 4) : unitHolder fn unit part = some (coreHolder fn unit) := if_pos h

section
variable {s : State} {m : Msg}

@[simp] theorem State.setGrant_sentOf {h g tag : Nat} {x : Grant} : (s.setGrant h g x).sentOf tag = s.sentOf tag := by
  unfold State.setGrant
  split <;> rfl

@[simp] theorem State.grantFilled_sentOf {h g tag : Nat} {clash : Bool} :
    (s.grantFilled h g m clash).sentOf tag = s.sentOf tag := by
  unfold State.grantFilled
  split <;> exact State.setGrant_sentOf

section
variable (ha : s.atDest m = true) (hu : m.dstUnit < 4)
include ha hu

theorem exec_grant {g : Nat} (h4 : m.kind = 4) (ht : s.sentOf m.tag = none)
    (hg : (List.range (grantCount (coreHolder m.dstFn m.dstUnit))).find?
      (fun i => (s.grantOf (coreHolder m.dstFn m.dstUnit) i).state = 0) = some g) :
    exec (.grant m) s =
      let h := coreHolder m.dstFn m.dstUnit
      .next ((s.takeArrived m).grantFilled h g m (s.grantClash h m)) := by
  have hNoPort : m.dstUnit ≠ 6 := by omega
  show execGrant m s = _
  rw [execGrant, if_neg (not_not.mpr h4), State.onArrived_here ha]
  have hSent : ((s.takeArrived m).grantFilled (coreHolder m.dstFn m.dstUnit) g m
      (s.grantClash (coreHolder m.dstFn m.dstUnit) m)).sentOf m.tag = none :=
    State.grantFilled_sentOf.trans ht
  have hFree : (List.range (grantCount (coreHolder m.dstFn m.dstUnit))).find?
      (fun i => ((s.takeArrived m).grantOf (coreHolder m.dstFn m.dstUnit) i).state = 0) = some g := hg
  simp only [if_neg hNoPort, unitHolder_core hu, hFree]
  split
  next e he => exact nomatch he.symm.trans hSent
  next => rfl

theorem exec_close (h5 : m.kind = 5) :
    exec (.close m) s =
      let h := coreHolder m.dstFn m.dstUnit
      .next (((s.grantsOfWindow h m).foldl (fun st g => st.setGrant h g {}) (s.takeArrived m)).dmaPump) := by
  have hNoPort : m.dstUnit ≠ 6 := by omega
  show execClose m s = _
  rw [execClose, if_neg (not_not.mpr h5), State.onArrived_here ha]
  simp only [if_neg hNoPort, unitHolder_core hu, State.takeArrived_grantsOfWindow]

theorem exec_scrip (h6 : m.kind = 6) :
    exec (.scrip m) s =
      let h := coreHolder m.dstFn m.dstUnit
      .next (((s.grantsOfWindow h m).foldl (fun st g => st.scripReturned h m g) (s.takeArrived m)).dmaPump.snpPumpAll) := by
  have hNoPort : m.dstUnit ≠ 6 := by omega
  show execScrip m s = _
  rw [execScrip, if_neg (not_not.mpr h6), State.onArrived_here ha]
  simp only [if_neg hNoPort, unitHolder_core hu, State.takeArrived_grantsOfWindow]
  rfl

end

theorem exec_windowLeaseRelease {k w : Nat} (hc : (s.window k w).closing = true) :
    exec (.windowLeaseRelease k w) s = .next ((s.until (s.window k w).due).releaseWindow k w) :=
  congrArg Host.Outcome.next (State.when_of hc)

theorem exec_pushMessage {fn k g : Nat} {x : Cmd} {rest : List Cmd} (hq : (s.core fn k).push = x :: rest)
    (hf : s.isFull fn = true) (hx : (s.core fn k).flushAt = none) (hs : x.status = 0) (hl : x.sent < x.w.length)
    (hd : x.w.dst % 64 = 0) (hg : s.pushGrant fn k x = some g) (hn : s.pushChunk (coreHolder fn k) g x ≠ 0)
    (hu : s.pushChunk (coreHolder fn k) g x / 64 ≤ (s.grantOf (coreHolder fn k) g).scrip)
    (hr : (s.coreRead fn k (x.w.src + x.sent) (s.pushChunk (coreHolder fn k) g x)).2.1 = none) :
    exec (.pushMessage fn k) s = .next (s.pushSent fn k g x) := by
  have hGoes : ¬(!s.isFull fn || (s.core fn k).flushAt.isSome || x.status ≠ 0 || x.w.length ≤ x.sent) = true := by
    simp [hf, hx, hs, hl]
  have hUnits : ¬((s.grantOf (coreHolder fn k) g).scrip < s.pushChunk (coreHolder fn k) g x / 64 ||
      s.pushChunk (coreHolder fn k) g x = 0) = true := by
    simp [hn, hu]
  show execPushMessage fn k s = _
  simp only [State.pushChunk] at hr
  simp only [execPushMessage, hq, if_neg hGoes, if_neg (not_not.mpr hd), hg, hr]
  exact if_neg hUnits

end

/-- Settles O17: a core holds the grants that the three messages name; a window that closes and a PUSH that may go on. -/
theorem grantMessagesRun : Obligations.GrantMessagesRun :=
  ⟨fun _ _ _ h4 ha hu ht hg => (exec_grant ha hu h4 ht hg).trans
      (by simp only [State.grantFilled, State.grantClash, Bool.and_eq_true, decide_eq_true_eq]),
    fun _ _ h5 ha hu => exec_close ha hu h5,
    fun _ _ h6 ha hu => exec_scrip ha hu h6, fun _ _ _ hc => exec_windowLeaseRelease hc,
    fun _ _ _ _ _ _ hq hf hx hs hl hd hg hn hu hr => exec_pushMessage hq hf hx hs hl hd hg hn hu hr⟩

end Sys2Proof.Machine

/-! SUPPORT. A route generation: its computation, its switch, the end of its drain (R373, R374), and the failure of a link that
makes one owed (R364). -/

namespace Sys2Proof.Machine

/-- `s` with the routes `r` in the bank that is not in use, to be switched to at the next multiple of 20 microseconds at least
40 microseconds away, and the fields in retirement waiting for its drain. -/
def State.routesDated (s : State) (r : RouteSet) : State :=
  let t := Config.sites.foldl (fun st fn =>
    if (st.field fn).retiring = 1 then st.setField fn { st.field fn with retiring := 2 } else st)
    (s.setBank ((s.mesh.gen + 1) % 2) r)
  { t with mesh := { t.mesh with
    owed := false,
    commit := some { phase := 1, gen := (t.mesh.gen + 1) % 65536, tSwitch := (t.now + 40000 + 19999) / 20000 * 20000 } } }

/-- The routes of the next generation, over the module without the fields being retired. -/
def State.nextRoutes (s : State) : RouteSet :=
  s.planned.newRoutes ((s.brs.fields.filter (fun e => s.planned.usable e.1)).map (fun e => (e.1, e.2.1)))

/-- `t` with the transit reservations of `bank` granted to every partition that is neither OFF nor FALLING. -/
def State.grantTransits (t : State) (bank : Nat) : State :=
  (List.range 16).foldl (fun st p =>
    if st.partState p ≠ 0 && st.partState p ≠ 4 then st.grantTransit bank p else st) t

/-- `s` at the switch time of the commit `c`, its generation in use and loaded by every field with routes. -/
def State.routesSwitched (s : State) (c : RouteCommit) : State :=
  let t := s.until c.tSwitch
  let t : State := { t with mesh := { t.mesh with gen := c.gen, commit := some { c with phase := 2 } } }
  Config.sites.foldl (fun st fn =>
    if (st.field fn).routes then (st.loadRoutes fn).wn (Reg.MSH_ROUTE_TIME fn) c.tSwitch else st) t

/-- `t` with every message of the old generation in flight dropped by the routers that hold its flits. -/
def State.oldDropped (t : State) : State :=
  let u := (t.mesh.flights.filter (fun f => f.msg.gen ≠ t.genBit)).foldl (fun st f => st.dropFlits f) t
  { u with mesh := { u.mesh with flights := u.mesh.flights.filter (fun f => f.msg.gen = u.genBit) } }

/-- `s` with the transit leases ended that the bank in use does not name. -/
def State.oldTransitsEnded (s : State) : State :=
  (s.leases.filter (fun e => e.2.kind = 2 && e.2.state = 1 && !s.bankHolds (s.mesh.gen % 2) e.2)).foldl
    (fun st e => st.releaseLease e.1) s

/-- `t` with its commit over and the fields switched off that waited for it. -/
def State.commitOver (t : State) : State :=
  let t := State.routeState { t with mesh := { t.mesh with commit := none } } 0
  (Config.sites.filter (fun fn => (t.field fn).retiring = 2)).foldl (fun st fn => st.retireOff fn) t

/-- `s` with both ports of the link from port `p` of `fn` to `n` failed and dead, and a new generation owed. -/
def State.linkFailed (s : State) (fn p n : Nat) : State :=
  let back := (p + 2) % 4
  let t := (s.add (Reg.MSH_PORT fn p) 47 32 3).add (Reg.MSH_PORT n back) 47 32 3
  State.ledgerEvent { t with mesh := { t.mesh with dead := t.mesh.dead ++ [fn * 4 + p, n * 4 + back], owed := true } }

section
variable {s : State}

theorem State.drainCounts_mesh : s.drainCounts.mesh = s.mesh :=
  have hk : Kept { Facets.nothing with mesh := True } s s.drainCounts := State.drainCounts_kept (.rfl s) nofun
  hk.mesh trivial

theorem exec_routeCommit (ho : s.mesh.owed = true) (hc : s.mesh.commit = none) (hr : s.brs.running = true)
    (hf : s.brs.fields ≠ []) :
    exec .routeCommit s =
      let w := s.planned
      let t := (s.routesDated (w.anchorFill s.nextRoutes)).grantTransits ((s.mesh.gen + 1) % 2)
      .next ((w.routeless s.nextRoutes).foldl (fun st p => st.bursarDown p 4 0 0x13 0xFF 3 0) (t.routeState 1)) := by
  have hOwed : (s.mesh.owed && s.mesh.commit.isNone && s.brs.running && !s.brs.fields.isEmpty) = true := by
    simp [ho, hc, hr, hf]
  show execRouteCommit s = _
  rw [execRouteCommit, State.when_of hOwed]
  simp only [State.routesDated, State.nextRoutes, State.grantTransits]

section
variable {c : RouteCommit} (hc : s.mesh.commit = some c)
include hc

theorem exec_routeSwitch (h1 : c.phase = 1) :
    exec .routeSwitch s = .next (((s.routesSwitched c).routeState 2).drainCounts) := by
  show execRouteSwitch s = _
  simp only [execRouteSwitch, hc]
  exact congrArg _ (State.when_of (decide_eq_true h1))

section
variable (h2 : c.phase = 2)
include h2

theorem exec_routeDrainTimeout :
    exec .routeDrainTimeout s = .next (s.until (c.tSwitch + 10000000)).oldDropped.drainCounts := by
  show execRouteDrainTimeout s = _
  simp only [execRouteDrainTimeout, hc]
  exact congrArg _ (State.when_of (decide_eq_true h2))

theorem exec_routeDrainDone (hg : ∀ f ∈ s.mesh.flights, f.msg.gen = s.genBit) :
    exec .routeDrainDone s = .next s.oldTransitsEnded.drainCounts.commitOver := by
  have hDrained : (decide (c.phase = 2) && s.mesh.flights.all (fun f => f.msg.gen = s.genBit)) = true := by
    simpa [h2] using hg
  show execRouteDrainDone s = _
  simp only [execRouteDrainDone, hc, State.when_of hDrained, State.commitOver, State.drainCounts_mesh]
  rfl

end

end

theorem exec_linkFailure {fn p n : Nat} (hp : p < 4) (hn : Config.neighbour fn p = some n) (hu : s.portUp fn p = true) :
    exec (.linkFailure fn p) s =
      let t := s.linkFailed fn p n
      .next ((t.cutOff s).foldl (fun st f => st.retireOne f 3 3 0) t).tbsUpdate := by
  have hUp : (decide (p < 4) && s.portUp fn p) = true := by simp [hp, hu]
  show execLinkFailure fn p s = _
  simp only [execLinkFailure, hn]
  exact congrArg _ (State.when_of hUp)

end

/-- Settles O18: the four commands of a commit, each in its phase, and the failure of a link that is up. -/
theorem routeGenerationsRun : Obligations.RouteGenerationsRun := by
  refine ⟨fun s ho hc hr hf => ?_, fun s c hc h1 => ?_, fun s c hc h2 => ?_, fun s c hc h2 hg => ?_,
    fun s fn p n hp hn hu => ?_⟩
  · rw [exec_routeCommit ho hc hr hf]
    simp only [State.routesDated, State.nextRoutes, State.grantTransits]
  · rw [exec_routeSwitch hc h1]
    simp only [State.routesSwitched]
  · rw [exec_routeDrainTimeout hc h2]
    simp only [State.oldDropped]
  · exact exec_routeDrainDone hc h2 hg
  · rw [exec_linkFailure hp hn hu]
    simp only [State.linkFailed]

end Sys2Proof.Machine

/-! SUPPORT. Kevenlink ports: what the training commands and the exchange of identities answer where their conditions hold
(R396, R397, R399), and a link that goes down with a peer's message still in the mesh (R413). -/

namespace Sys2Proof.Machine

/-! ## A Kevenlink port trains (R396, R397) -/

section
variable {s : State} {p : Nat}

/-- The bound of a training state (R396): 2 ms, 1 ms or 100 µs. -/
theorem trainBound_of_training {n : Nat} (h2 : 2 ≤ n) (h4 : n ≤ 4) :
    trainBound n = if n = 2 then 2000000 else if n = 3 then 1000000 else 100000 := by
  have hFour (n2 : n ≠ 2) (n3 : n ≠ 3) : n = 4 := by omega
  unfold trainBound
  split_ifs with is2 is3 is4
  · rfl
  · rfl
  · rfl
  · exact absurd (hFour is2 is3) is4

theorem trainBound_ne_zero {n : Nat} (h2 : 2 ≤ n) (h4 : n ≤ 4) : trainBound n ≠ 0 := by
  rw [trainBound_of_training h2 h4]
  split_ifs <;> decide

theorem exec_kvlEnableWrite {who : Who} (hr : s.kvlReason who p = none)
    (ha : (s.setb (Reg.KVL_CTL (Config.kvlField p)) 0).kvlAllowed p = true)
    (h0 : (s.setb (Reg.KVL_CTL (Config.kvlField p)) 0).kvlState p = 0) :
    exec (.kvlEnableWrite who p) s = .next ((s.setb (Reg.KVL_CTL (Config.kvlField p)) 0).kvlEnter p 1) := by
  show execKvlEnableWrite who p s = _
  simp only [execKvlEnableWrite, hr, State.kvlEnable, ha, h0, decide_true, Bool.and_self, if_true]

section
variable (hp : p < 8)
include hp

theorem exec_signalDetected (h1 : s.kvlState p = 1) (hb : (s.kvlPort p).backoff = none) :
    exec (.signalDetected p) s = .next (s.kvlEnter p 2) :=
  congrArg _ (State.when_of (by simp [hp, h1, hb]))

theorem exec_levelLock (h2 : s.kvlState p = 2) (hn : s.now ≤ (s.kvlPort p).since + 2000000) :
    exec (.levelLock p) s = .next (s.kvlEnter p 3) :=
  congrArg _ (State.when_of (by simp [hp, h2, hn]))

theorem exec_codewordLock {m v : Nat} (h3 : s.kvlState p = 3) (hn : s.now ≤ (s.kvlPort p).since + 1000000) :
    exec (.codewordLock p m v) s =
      let t := s.setKvl p { s.kvlPort p with seen := false, peerSeen := false, sentSeen := false, identAt := s.now }
      let r := Reg.KVL_STATUS (Config.kvlField p)
      .next (((t.wf r 19 12 m).wf r 23 20 v).kvlEnter p 4) :=
  congrArg _ (State.when_of (by simp [hp, h3, hn]))

theorem exec_trainTimeout (h : trainBound (s.kvlState p) ≠ 0) :
    exec (.trainTimeout p) s =
      let t := s.until ((s.kvlPort p).since + trainBound (s.kvlState p))
      let r := Reg.KVL_STATUS (Config.kvlField p)
      let t := (t.addSat r 55 48 1).kvlEnter p 1
      let u := if t.rf r 55 48 = 3 then t.setb (Reg.KVL_EVENT (Config.kvlField p)) 2 else t
      .next (if t.rf r 55 48 % 3 = 0 then u.setKvl p { u.kvlPort p with backoff := some (u.now + 10000000) } else u) :=
  congrArg _ (State.when_of (by simp [hp, h]))

theorem exec_resetStateEnd {locked : Bool} (h6 : s.kvlState p = 6) :
    exec (.resetStateEnd p locked) s =
      let t := s.until ((s.kvlPort p).since + 10000)
      .next (t.kvlEnter p (if !t.kvlAllowed p then 0 else if locked then 3 else 1)) :=
  congrArg _ (State.when_of (by simp [hp, h6]))

end

theorem exec_trainBackoffEnd {t : Nat} (hb : (s.kvlPort p).backoff = some t) :
    exec (.trainBackoffEnd p) s = .next ((s.until t).setKvl p { (s.until t).kvlPort p with backoff := none }) := by
  show execTrainBackoffEnd p s = _
  simp only [execTrainBackoffEnd, hb]

end

/-- Settles O21: each command in the state of R396 that it leaves, within its bound. -/
theorem kevenlinkTrains : Obligations.KevenlinkTrains := by
  refine ⟨fun s who p hr ha h0 => exec_kvlEnableWrite hr ha h0, fun s p hp h1 hb => exec_signalDetected hp h1 hb,
    fun s p hp h2 hn => exec_levelLock hp h2 hn, fun s p m v hp h3 hn => exec_codewordLock hp h3 hn,
    fun s p hp h2 h4 => ?_, fun s p t hb => exec_trainBackoffEnd hb, fun s p locked hp h6 => ?_⟩
  · rw [exec_trainTimeout hp (trainBound_ne_zero h2 h4), trainBound_of_training h2 h4]
  · rw [exec_resetStateEnd hp h6]
    simp only [Bool.not_eq_true']

/-! ## A Kevenlink port exchanges identities (R396, R399) -/

section
variable {s : State} {p : Nat}

theorem State.kvlTryActive_of (h4 : s.kvlState p = 4)
    (hs : (s.kvlPort p).peerSeen = true ∧ (s.kvlPort p).sentSeen = true) :
    s.kvlTryActive p = s.kvlActive p := by
  simp [State.kvlTryActive, h4, hs]

theorem State.kvlTryActive_of_not (hs : ¬((s.kvlPort p).peerSeen = true ∧ (s.kvlPort p).sentSeen = true)) :
    s.kvlTryActive p = s :=
  if_neg fun h => by
    simp only [Bool.and_eq_true] at h
    obtain ⟨⟨-, hPeer⟩, hSent⟩ := h
    exact hs ⟨hPeer, hSent⟩

/-- `s` with the identity of the peer of port `p` recorded (R397). -/
def State.peerRecorded (s : State) (p id rev : Nat) : State :=
  s.wn (Reg.KVL_PEER_IDENT (Config.kvlField p)) (rev % 2 ^ 32 * 2 ^ 32 + id % 2 ^ 32)

/-- `s` with what an IDENT gives in IDENT: the credits of the peer of port `p` and its SEEN (R399). -/
def State.identTaken (s : State) (p flags cc dc : Nat) : State :=
  s.setKvl p { s.kvlPort p with
    seen := true, peerSeen := (s.kvlPort p).peerSeen || flags.testBit 0, peerCtrl := cc % 65536, peerData := dc % 65536 }

section
variable (hp : p < 8) (h4 : s.kvlState p = 4)
include hp h4

theorem exec_ident {flags id rev pp cc dc : Nat} (hq : pp < 256) (ht : (s.peerRecorded p id rev).kvlState p = 4) :
    exec (.ident p flags id rev pp cc dc) s =
      .next (((s.peerRecorded p id rev).identTaken p flags cc dc).kvlTryActive p) :=
  congrArg Host.Outcome.next ((State.when_of (by simp [hp, h4, hq])).trans (if_pos ht))

theorem exec_identTimer :
    exec (.identTimer p) s =
      let t := s.until ((s.kvlPort p).identAt + 1000)
      let x := t.kvlPort p
      .next (((t.setKvl p { x with identAt := t.now, sentSeen := x.sentSeen || x.seen }).kvlUnit p 4
        (if x.seen then 1 else 0)).kvlTryActive p) :=
  congrArg _ (State.when_of (by simp [hp, h4]))

end

end

/-- Settles O22: an IDENT received and the timer both end in `State.kvlTryActive`, which asks for both SEEN bits. -/
theorem kevenlinkIdentifies : Obligations.KevenlinkIdentifies := by
  refine ⟨?_, fun s p hp h4 => exec_identTimer hp h4⟩
  intro s p flags id rev pp cc dc hp h4 hq t x u
  refine ⟨fun hPeer hSent hu => ?_, fun hs ht => ?_⟩
  · have ht : t.kvlState p = 4 := hu
    exact (exec_ident hp h4 hq ht).trans (congrArg _ (State.kvlTryActive_of hu ⟨hPeer, hSent⟩))
  · exact (exec_ident hp h4 hq ht).trans (congrArg _ (State.kvlTryActive_of_not hs))

/-! ## A link that goes down with a peer's message in the mesh (R413) -/

/-- A message of the peer of port 7, tagged 5 by the peer, which the port has passed into the mesh under tag 1 and which is
not answered yet (R408, R409). -/
def peerMessage : Sent := { holder := 5000, grant := 64, tag := 1, units := 0, time := 0, dst := 0, job := .relay 7 5 }

/-- Port 7 is ACTIVE, and `peerMessage` is the one message in the mesh that waits for an answer. -/
def relaying : State :=
  let s := State.reset.wf (Reg.KVL_STATUS (Config.kvlField 7)) 2 0 5
  { s with mesh := { s.mesh with sent := [peerMessage] } }

/-- The messages that wait for an answer after a command. -/
def sentAfter (o : Out1) : List Sent :=
  match o with
  | .next t => t.mesh.sent
  | _ => []

theorem kvlState_relaying : relaying.kvlState 7 = 5 := by
  decide +kernel

/-- The model keeps the message, which completes in the mesh, and marks it so that its answer is dropped (R413 step 3). -/
theorem sentAfter_lossOfSignal_relaying :
    sentAfter (exec (.lossOfSignal 7) relaying) = [{ peerMessage with job := .relay 7 65536 }] := by
  decide +kernel

/-- Refutes O23: as port 7 goes down, a message of its peer stays in the mesh unanswered, where the statement forgets it. -/
theorem not_kevenlinkGoesDown : ¬ Obligations.KevenlinkGoesDown := by
  rintro ⟨-, hLoss, -, -⟩
  have hSent := sentAfter_lossOfSignal_relaying
  rw [hLoss relaying 7 (by decide) kvlState_relaying] at hSent
  exact absurd hSent (by decide +kernel)

end Sys2Proof.Machine

/-! SUPPORT. The host link: MSI-X messages and their pending bits (R437), the resets of functions and of the endpoint and the
link that comes up (R439, R441, R442), and what arrives on the link or fails to (R433, R436). -/

namespace Sys2Proof.Machine

/-! ## MSI-X messages (R437) -/

section
variable {s : State} {f v : Nat}

/-- The conditions of R437 under which a vector may be sent. -/
theorem State.msixOpen_iff : s.msixOpen f v = true ↔
    s.canDma f = true ∧ (s.func f).msixEnable = true ∧ (s.func f).funcMask = false ∧ s.rb (msixData f v) 32 = false := by
  simp only [State.msixOpen, Bool.and_eq_true, Bool.not_eq_true', and_assoc]

theorem State.msix_open (h : s.msixOpen f v = true) :
    s.msix f v = (s.emit (.msix f v (s.rn (msixAddr f v)) (s.rf (msixData f v) 31 0))).clrb (msixPba f) v := if_pos h

theorem State.msix_closed (h : s.msixOpen f v = false) : s.msix f v = s.setb (msixPba f) v :=
  if_neg (ne_true_of_eq_false h)

theorem State.out_msix_open (h : s.msixOpen f v = true) :
    (s.msix f v).out = s.out ++ [.msix f v (s.rn (msixAddr f v)) (s.rf (msixData f v) 31 0)] := by
  rw [State.msix_open h, State.clrb_out, State.emit]

theorem State.out_msix_closed (h : s.msixOpen f v = false) : (s.msix f v).out = s.out := by
  rw [State.msix_closed h, State.setb_out]

/-- The pending bit of a vector that was raised is the answer to whether it had to wait. -/
theorem State.rb_msix_pending (w : regsWf s.regs) (hv : v < 64) : (s.msix f v).rb (msixPba f) v = !s.msixOpen f v := by
  cases h : s.msixOpen f v with
  | true => rw [State.msix_open h]; exact State.rb_clrb w hv
  | false => rw [State.msix_closed h]; exact State.rb_setb w hv

end

/-- Settles O60: the conditions of R437 decide between a message with the pending bit cleared and the bit set. -/
theorem msixSendsOrPends : Obligations.MsixSendsOrPends := by
  refine fun s f v hv w => ⟨fun h => ⟨State.out_msix_open h, ?_⟩, fun h => ⟨State.out_msix_closed h, ?_⟩, fun hShut => ?_⟩
  · rw [State.rb_msix_pending w hv, h, Bool.not_true]
  · rw [State.rb_msix_pending w hv, h, Bool.not_false]
  · refine Bool.eq_false_iff.mpr fun h => ?_
    obtain ⟨hDma, hEnable, hMask, hData⟩ := State.msixOpen_iff.mp h
    simp [hDma, hEnable, hMask, hData] at hShut

/-! ## Resets of functions and the link (R439, R441, R442) -/

section
variable {s : State}

theorem exec_vfFlr {n : Nat} (hu : s.vfUp n = true) : exec (.vfFlr n) s = .next (s.vfReset n) :=
  congrArg _ (State.when_of hu)

theorem exec_pf0Flr (hl : s.host.linkUp = true) : exec .pf0Flr s = .next s.pf0Reset := by
  show execPf0Flr s = _
  rw [execPf0Flr, State.when_of hl]

theorem exec_perst (hp : s.host.perst = false) :
    exec .perst s = .next { s.endpointDown with host := { s.endpointDown.host with perst := true } } := by
  show execPerst s = _
  rw [execPerst, State.when_of (by rw [hp, Bool.not_false])]

theorem exec_hostLinkDown (hl : s.host.linkUp = true) : exec .hostLinkDown s = .next s.endpointDown := by
  show execHostLinkDown s = _
  rw [execHostLinkDown, State.when_of hl]

/-- `s` with the link trained: its speed, width and anchor recorded in HST_LINK, and counted there (R439). -/
def State.linkTrained (s : State) (speed width : Nat) : State :=
  (((s.wf Reg.HST_LINK 31 24 s.anchor).add Reg.HST_LINK 23 16 1).wf Reg.HST_LINK 11 8 speed).wf Reg.HST_LINK 4 0 width

/-- The settings that a host has written into the functions 0 to 16, from the list `fs` of them. -/
def funcsSet (fs : List (Nat × FuncCfg)) : List (Nat × FuncCfg) :=
  fs.foldl (fun t e => if e.1 ≤ 16 then tput FuncCfg.init t e.1 e.2 else t) []

theorem exec_hostLinkUp {speed width numVfs bar2Log : Nat} {fs : List (Nat × FuncCfg)} {vfEnable : Bool}
    (hp : s.powered s.anchor = true) (hl : s.host.linkUp = false) (hr : s.rb Reg.HST_READY 0 = true) :
    exec (.hostLinkUp speed width fs vfEnable numVfs bar2Log) s =
      let t := s.linkTrained speed width
      .next { t with host := { t.host with
        linkUp := true, perst := false, funcs := funcsSet fs, vfEnable := vfEnable, numVfs := min 16 numVfs,
        bar2Log := max 30 (min 34 bar2Log) } } :=
  congrArg _ (State.when_of (by rw [hp, hl, hr]; rfl))

end

/-- Settles O38: each reset where the function or the link it concerns is up, and a link that the module is ready for. -/
theorem hostResetsRun : Obligations.HostResetsRun :=
  ⟨fun _ _ hu => exec_vfFlr hu, fun _ hl => exec_pf0Flr hl, fun _ hp => exec_perst hp, fun _ hl => exec_hostLinkDown hl,
    fun _ _ _ _ _ _ _ hp hl hr => exec_hostLinkUp hp hl hr⟩

/-! ## Completions, timeouts and new settings of a function (R433, R436, R437) -/

section
variable {s : State} {tag : Nat} {r : DmaRead}

theorem State.readOf_poisonCount {ecrc : Bool} : (s.poisonCount ecrc).readOf tag = s.readOf tag := by
  cases ecrc <;> rfl

section
variable {status : Nat} {data : List Byte} (hr : s.readOf tag = some r)
include hr

theorem exec_completionTlp_whole (hd : r.len ≤ data.length) :
    exec (.completionTlp tag 0 false data) s = .next ((s.dropRead tag).readData r (data.take r.len)).dmaPump := by
  show execCompletionTlp tag 0 false data s = _
  simp only [execCompletionTlp, hr, if_neg (Nat.not_lt.mpr hd), Bool.false_eq_true, if_false, ne_eq, not_true_eq_false]

theorem exec_completionTlp_error (he : status ≠ 0) :
    exec (.completionTlp tag status false data) s = .next ((s.dropRead tag).readFailed r).dmaPump := by
  show execCompletionTlp tag status false data s = _
  simp only [execCompletionTlp, hr, if_pos he, Bool.false_eq_true, if_false]

theorem exec_completionTlp_poisoned :
    exec (.completionTlp tag status true data) s =
      .next (((s.poisonCount false).dropRead tag).readFailed r).dmaPump := by
  show execCompletionTlp tag status true data s = _
  simp only [execCompletionTlp, hr, if_true]

theorem exec_poisonedTlp {ecrc : Bool} (hl : s.host.linkUp = true) :
    exec (.poisonedTlp ecrc tag) s = .next (((s.poisonCount ecrc).dropRead tag).readFailed r).dmaPump := by
  show execPoisonedTlp ecrc tag s = _
  rw [execPoisonedTlp, State.when_of hl]
  simp only [State.readOf_poisonCount, hr]

end

section
variable (hl : s.host.linkUp = true)
include hl

theorem exec_registerReadTimeout_pf0 {off : Nat} (hlo : Reg.win 0 ≤ off) (hhi : off < Reg.win 100)
    (hf : s.fieldReason .pf0 ((off - Reg.win 0) / 0x40000) = none) :
    exec (.registerReadTimeout .pf0 off) s =
      .next (State.accErrAt { s.until (s.now + 100000) with reply := some (BitVec.allOnes 64) } .pf0 10 false 0 0 off) :=
  congrArg _ (State.when_of (by simp [State.resolve, hl, hlo, hhi, hf]))

/-- `s` with the settings `cfg` in force for function `f`. -/
def State.funcSet (s : State) (f : Nat) (cfg : FuncCfg) : State :=
  { s with host := { s.host with funcs := tput FuncCfg.init s.host.funcs f cfg } }

theorem exec_msixPendingSend {f v : Nat} {cfg : FuncCfg} (hf : f = 0 ∨ s.vfUp f = true) (hv : v < vectorsOf f)
    (hp : s.rb (msixPba f) v = true) :
    exec (.msixPendingSend f v cfg) s = .next (((s.funcSet f cfg).msix f v).dmaPump.drainFunc f) := by
  have hUp : (s.host.linkUp && (f = 0 || s.vfUp f)) = true := by simpa [hl] using hf
  have hPends : (v < vectorsOf f && (s.funcSet f cfg).rb (msixPba f) v) = true := by
    rw [decide_eq_true hv, Bool.true_and]
    exact hp
  show execMsixPendingSend f v cfg s = _
  rw [execMsixPendingSend, State.when_of hUp]
  exact congrArg (fun t : State => Host.Outcome.next (t.dmaPump.drainFunc f)) (if_pos hPends)

end

end

/-- Settles O39: a completion by its poison, its status and its data, a poisoned TLP, a register read of PF0 that no field
answers, and a pending vector under the new settings. -/
theorem hostTransactionsRun : Obligations.HostTransactionsRun :=
  ⟨fun _ _ _ _ hr => ⟨fun hd => exec_completionTlp_whole hr hd, fun _ he => exec_completionTlp_error hr he,
      fun _ => exec_completionTlp_poisoned hr⟩,
    fun _ _ _ hl hr => ⟨exec_poisonedTlp hr hl, exec_poisonedTlp hr hl⟩,
    fun _ _ hl hlo hhi hf => exec_registerReadTimeout_pf0 hl hlo hhi hf,
    fun _ _ _ _ hl hf hv hp => exec_msixPendingSend hl hf hv hp⟩

end Sys2Proof.Machine

/-! SUPPORT. The front of the queue, and what outlives a reset: every command answers, the fuses go one way, and the fuses, the
flash and the carrier change only by the commands that Safety lists for them (R143, R446, R460). -/

namespace Sys2Proof.Machine

/-! ## The front of the queue -/

section
variable {c : Instr} {s t : State} {rest : List Instr}

theorem step_front (h : s.pending = c :: rest) : step s = exec c { s with pending := rest } := by
  unfold step
  rw [h]

/-- Settles O48: the front of such a queue is the command put there. -/
theorem stepRunsTheFront : Obligations.StepRunsTheFront := fun _ _ _ => step_front rfl

theorem exec_answers (c : Instr) (s : State) : ∃ t : State, exec c s = .next t ∧ t.pending = s.pending := by
  obtain ⟨t, ht, hk⟩ := exec_kept c s
  exact ⟨t, ht, hk.pending⟩

theorem step_answers (s : State) : ∃ t : State, step s = .next t ∧ t.pending = s.pending.tail := by
  cases h : s.pending with
  | nil => exact ⟨s.idleTick, step_idle h, State.idleTick_pending.trans h⟩
  | cons c rest =>
    rw [step_front h]
    exact exec_answers c { s with pending := rest }

/-- Settles O50: by what `exec_kept` says of the queue, and the idle tick where it is empty. -/
theorem everyCommandAnswers : Obligations.EveryCommandAnswers := ⟨exec_answers, step_answers⟩

/-! ## Fuses, flash and carrier -/

theorem State.idleTick_follows : Fuses.Follows s.car.fuses s.idleTick.car.fuses := by
  have hk : Kept .nothing s s.idleTick := by apply State.idleTick_kept (.rfl s) <;> nofun
  exact hk.follows

/-- No step gives back what a fuse has taken, and none takes the last live key slot (R143, R460). -/
theorem fuses_follow_of_step (h : step s = .next t) : Fuses.Follows s.car.fuses t.car.fuses := by
  obtain ⟨_, rfl⟩ | ⟨c, rest, _, hc⟩ := step_cases h
  · exact State.idleTick_follows
  · exact (kept_of_exec hc).follows

/-- Settles O53: an idle tick and every command leave fuses that follow from those before. -/
theorem fusesGoOneWay : Obligations.FusesGoOneWay := by
  intro s t h
  have hf := fuses_follow_of_step h
  exact ⟨hf.le, hf.live⟩

theorem fuse_command_of_exec (h : exec c s = .next t) (hf : t.car.fuses ≠ s.car.fuses) :
    (∃ it ok, c = .revokeKey it ok) ∨ ∃ it ok, c = .raiseSvn it ok :=
  by_contra fun hOther => hf ((kept_of_exec h).fuses hOther)

/-- Settles O54: fuses, flash and carrier are facets of `exec_kept`. -/
theorem fusesAndFlashChangeOnlyByTheirCommands : Obligations.FusesAndFlashChangeOnlyByTheirCommands := by
  refine ⟨fun c s t h hf => fuse_command_of_exec h hf, fun c s t h => ?_⟩
  have hk := kept_of_exec h
  exact ⟨hk.flash, hk.car⟩

end

end Sys2Proof.Machine

/-! SUPPORT. The management commands that write the fuses and the flash, RECOUPLE and MODULE_RESET: the state that each leaves
where its conditions hold (R70, R448, R459, R460, R601). -/

namespace Sys2Proof.Machine

section
variable {f : Fuses} {k j v : Nat}

theorem Fuses.testBit_revoke : (f.revoke k).revoked.testBit j = (f.revoked.testBit j || j == k) := by
  unfold Fuses.revoke
  rw [Nat.testBit_or, Nat.testBit_two_pow, beq_eq_decide, decide_eq_decide.mpr (eq_comm (a := k))]

theorem Fuses.svn_raise (h : tget 0 f.svn k < v) :
    tget 0 (f.raise k v).svn j = if j = k then v else tget 0 f.svn j := by
  have hMax : max v (tget 0 f.svn k) = v := Nat.max_eq_left h.le
  unfold Fuses.raise
  rw [hMax]
  split
  next hj => exact hj ▸ tget_tput_self (Nat.ne_zero_of_lt h)
  next hj => exact tget_tput_ne v hj

end

section
variable {s : State} {it : Item} {x : Started}

/-! ## Fuses -/

theorem exec_revokeKey {f : Fuses} (hf : s.car.fuses.revoke (it.u 0x20 1) = f) (hx : s.openItem it 0x4C = some x)
    (hk : it.u 0x20 1 ≤ 3) (he : it.u 0x21 1 = it.u 0x20 1) (hLive : f.liveKeys ≠ []) (hl : s.loading = false) :
    exec (.revokeKey it true) s =
      .next ((((s.begun x).setFuses f).wf Reg.AXB_KEY_STATE 11 8 (f.revoked % 16)).endItem x.num 0 0 0) := by
  show execRevokeKey it true s = _
  rw [execRevokeKey, State.onItem_open hx]
  simp [hf, Nat.not_lt.mpr hk, he, hLive, hl]

theorem exec_raiseSvn (hx : s.openItem it 0x4D = some x) (hk : it.u 0x20 1 ≤ 3)
    (hMin : tget 0 s.car.fuses.svn (it.u 0x20 1) < it.u 0x21 1) (hMax : it.u 0x21 1 ≤ 63) (hl : s.loading = false) :
    exec (.raiseSvn it true) s =
      .next ((((s.begun x).setFuses (s.car.fuses.raise (it.u 0x20 1) (it.u 0x21 1))).wf Reg.AXB_KEY_SVN
        (8 * it.u 0x20 1 + 7) (8 * it.u 0x20 1) (it.u 0x21 1)).endItem x.num 0 0 0) := by
  show execRaiseSvn it true s = _
  rw [execRaiseSvn, State.onItem_open hx]
  simp [Nat.not_lt.mpr hk, Nat.not_le.mpr hMin, Nat.not_lt.mpr hMax, hl]

/-- Settles O6: each command writes its fuses, and what the new fuses read follows from `Fuses.testBit_revoke` and
`Fuses.svn_raise`. -/
theorem fuseCommandsBlow : Obligations.FuseCommandsBlow :=
  ⟨fun _ _ _ hx hk he hLive hl =>
      ⟨_, exec_revokeKey rfl hx hk he hLive hl, fun _ => Fuses.testBit_revoke, rfl, rfl, rfl, rfl⟩,
    fun _ _ _ hx hk hMin hMax hl =>
      ⟨_, exec_raiseSvn hx hk hMin hMax hl, fun _ => Fuses.svn_raise hMin, rfl, rfl, rfl, rfl⟩⟩

/-! ## Carrier flash -/

theorem exec_clearRetired (hx : s.openItem it 0x48 = some x) (hr : s.rf Reg.AXB_REVISION 7 0 ≠ 5) :
    exec (.clearRetired it) s =
      .next (((s.begun x).setFlash { s.car.flash with retireLo := 0, retireHi := 0 }).endItem x.num 0 0 0) := by
  show execClearRetired it s = _
  rw [execClearRetired, State.onItem_open hx]
  simp [hr]

theorem exec_setBoot (hx : s.openItem it 0x4A = some x) (hc : it.u 0x20 1 ≤ 1) (hp : it.u 0x21 1 ≤ 3)
    (hb : it.u 0x22 1 = 0xF) (hs : s.car.flash.slots.any (fun e => e.1 = it.u 0x21 1) = true) :
    exec (.setBoot it true) s = .next (((s.begun x).setFlash
      { s.car.flash with bootBytes := bootRecord (it.u 0x20 1) (it.u 0x21 1) 0xF }).endItem x.num 0 0 0) := by
  have hDiffer : ¬0xF = it.u 0x21 1 := by omega
  show execSetBoot it true s = _
  rw [execSetBoot, State.onItem_open hx]
  simp [Nat.not_lt.mpr hc, Nat.not_lt.mpr hp, hb, hs, hDiffer]

theorem exec_storeFirmware {img : FwImage} (hx : s.openItem it 0x4B = some x) (hd : s.canDma 0 = true)
    (hr : s.brs.recovery = false) (hb : s.rf Reg.AXB_BOOT_STATUS 0 0 = 0) (hz : img.bytes.length ≤ it.u 0x30 8)
    (hv : s.car.fuses.seriesOf (some img) ≠ 0) :
    exec (.storeFirmware it img true) s = .next (((s.begun x).setFlash { s.car.flash with
      fwB := some img, bootBytes := bootRecord 1 s.car.flash.record.2.1 s.car.flash.record.2.2.1 }).endItem x.num 0 0 0) := by
  show execStoreFirmware it img true s = _
  rw [execStoreFirmware, State.onItemIf_open hx hd]
  simp [hr, hb, Nat.not_lt.mpr hz, hv]

theorem exec_storeImage {img : Image} (hx : s.openItem it 0x49 = some x) (hd : s.canDma 0 = true)
    (hk : it.u 0x20 1 ≤ 3) (ha : s.activeSlot (it.u 0x20 1) = false) (hz : img.size ≤ it.u 0x30 8)
    (hm : it.u 0x30 8 ≤ 0x7F000000) (he : firstErr [s.headerErr img, s.dirErr img, s.keyErr img] = none) :
    exec (.storeImage it img true) s = .next (((s.begun x).putSlot (it.u 0x20 1) (some img)).endItem x.num 0 0 0) := by
  show execStoreImage it img true s = _
  rw [execStoreImage, State.onItemIf_open hx hd]
  simp [Nat.not_lt.mpr hk, ha, Nat.not_lt.mpr hz, Nat.not_lt.mpr hm, he]

/-! ## RECOUPLE and MODULE_RESET -/

/-- `s` with field `fn` back in LOCKED after a retrain of its links, and the item `num` done (R70). -/
def State.recoupled (s : State) (fn num : Nat) : State :=
  let t := s.setField fn { s.field fn with retrainUntil := s.now + 4000 }
  let t := (t.nodeEnter fn 2).setb (Reg.TBS_EVENT fn) 1
  t.tbsUpdate.endItem num 0 0 0

theorem exec_recouple {fn : Nat} (hf : it.u 0x20 1 = fn) (hx : s.openItem it 0x47 = some x)
    (hs : Config.sitePresent fn = true) (hi : s.brs.indep = false) (hp : s.powered fn = true) (hFree : s.tbsState fn = 3)
    (hn : (List.range 4).any (fun p => s.portUp fn p &&
      (Config.neighbour fn p).any (fun n => s.tbsState n = 2 || n = s.anchor)) = true) :
    exec (.recouple it true) s = .next ((s.begun x).recoupled fn x.num) := by
  obtain ⟨rfl, _⟩ := State.openItem_item hx
  subst hf
  show execRecouple x.item true s = _
  rw [execRecouple, State.onItem_open hx]
  refine congrArg _ ((if_neg ?site).trans ((if_neg ?down).trans ((if_neg ?unlocked).trans (if_pos ?neighbour))))
  case site => simp [hs]
  case down => simp [hi, hp, hFree]
  case unlocked => simp [hFree]
  case neighbour => exact hn

theorem exec_moduleReset (hx : s.openItem it 0x4E = some x) :
    exec (.moduleReset it) s = .next ((s.begun x).moduleReset 3) := by
  show execModuleReset it s = _
  rw [execModuleReset, State.onItem_open hx]

end

/-- Settles O5: each command is open and its conditions hold. -/
theorem maintenanceCommandsRun : Obligations.MaintenanceCommandsRun :=
  ⟨fun _ _ _ hx hr => exec_clearRetired hx hr, fun _ _ _ hx hc hp hb hs => exec_setBoot hx hc hp hb hs,
    fun _ _ _ _ hx hd hr hb hz hv => exec_storeFirmware hx hd hr hb hz hv,
    fun _ _ _ _ hx hd hk ha hz hm he => exec_storeImage hx hd hk ha hz hm he,
    fun _ _ _ hx hs _ hi hp hFree hn => exec_recouple rfl hx hs hi hp hFree hn, fun _ _ _ hx => exec_moduleReset hx⟩

end Sys2Proof.Machine

/-! SUPPORT. Items at the head of a queue and at their end: a head that is taken, a wait that expires and a record that is
written (R294, R452, R501, R502). -/

namespace Sys2Proof.Machine

section
variable {s : State} {it : Item}

theorem exec_itemStart {key : Nat} {h : Head} (hm : s.mayStart key = true) (ho : s.isOldest key = true)
    (hh : s.qHeadItem key = h) :
    exec (.itemStart key) s =
      let t := s.takeHead key h
      .next (if 4096 ≤ key then { t with brs := { t.brs with lastM := key - 4096 } } else t) := by
  subst hh
  exact congrArg _ (State.when_of (by rw [hm, ho]; rfl))

theorem State.takeHead_item {key : Nat} :
    s.takeHead key (.item it) =
      let u := s.serverOf key
      let bad := (s.atOnce key it).or (s.refusedItem key it)
      let r := (s.consume key (it.bytes.length / 64)).startItem it u.1 u.2
      (match bad with
        | some (e, d) => r.2.endItem r.1 e 0 d
        | none => r.2).cmdsRunning :=
  rfl

theorem exec_itemWaitTimeout {key t : Nat} (hh : s.qHeadItem key = .item it) (hw : (s.queue key).waitSince = some t) :
    exec (.itemWaitTimeout key) s = .next (s.waitExpires key it t) := by
  show execItemWaitTimeout key s = _
  rw [execItemWaitTimeout, hh, hw, State.headExpires]

theorem exec_itemComplete {num : Nat} {x : Started} (hx : s.item num = some x) (hn : s.completeNext x = true) :
    exec (.itemComplete num) s =
      let t := ((s.copyClose x).completeItem x).cmdsRunning
      .next (if x.item.managed then t else t.retainOn x.item.part) := by
  show execItemComplete num s = _
  simp only [execItemComplete, hx, hn, if_true]

end

/-- Settles O41: the head of a queue whose turn it is, the wait of a head, and the item next in its order. -/
theorem itemsStartAndComplete : Obligations.ItemsStartAndComplete :=
  ⟨fun _ _ _ hm ho hh => ⟨exec_itemStart hm ho hh, State.takeHead_item⟩, fun _ _ _ _ hh hw => exec_itemWaitTimeout hh hw,
    fun _ _ _ hx hn => exec_itemComplete hx hn⟩

end Sys2Proof.Machine

/-! SUPPORT. The watchdogs and the response to a halt: heartbeats, the checks of the tellers, a silent housekeeper, the halted
slot's teller and the carrier's watchdog (R286, R294, R296, R299, R465, R466, R602). -/

namespace Sys2Proof.Machine

/-! ## The housekeeper's check of its tellers (R465, R466) -/

/-- `s` with the check of teller `k` of field `fn` made, whose heartbeat has advanced by `n` since the last one; `stuck` where
its slot's flush would not complete. -/
def State.checkTeller (s : State) (fn k n : Nat) (stuck : Bool) : State :=
  let r := Reg.FLD_TELLER_STATUS fn k
  if ¬(s.rf r 34 32 = 2 ∨ s.rf r 34 32 = 3) then s
  else if n ≠ 0 then (s.setField fn { s.field fn with beatAt := tput 0 (s.field fn).beatAt k s.now }).add r 31 0 n
  else if tget 0 (s.field fn).beatAt k + 100000 ≤ s.now then s.tellerHang fn k stuck
  else s

/-- `s` with a check of the housekeeper of field `fn` dated. -/
def State.checkDated (s : State) (fn : Nat) : State :=
  s.setField fn { s.field fn with beatAt := tput 0 (s.field fn).beatAt 3 s.now }

/-! ## Records of a halt (R286, R296) -/

/-- `t` with the record of what halted slot `k` of field `fn`, as `s` shows it: an uncorrectable read or a failed entry test. -/
def State.haltRecord (t s : State) (fn k : Nat) : State :=
  let e := Reg.GZC_LAST_ERR fn k
  if s.rf e 39 32 = 0x0B then t.fault 0x08 1 (t.owner fn) fn k 0xFF (t.eccAddr fn k (s.rf e 31 0)) (s.rf e 63 48)
  else if s.rf e 39 32 = 0x0C ∧ s.rf e 47 40 = 3 then
    t.fault 0x06 1 (t.owner fn) fn k 0xFF (s.rf e 63 48 * 2 ^ 48 + s.rf e 31 0) (s.core fn k).entryRes
  else t

/-- `s` with the items of slot `k` of field `fn` ended whose commands a halt concerns. -/
def State.haltItems (s : State) (fn k : Nat) : State :=
  let e := Reg.GZC_LAST_ERR fn k
  ((s.slotItems fn k).filter (fun x => !x.cmds.isEmpty)).foldl
    (fun st x => st.haltItem fn k (s.core fn k) x (s.rf e 63 48) (s.rf e 39 32) (s.rf e 31 0)) s

/-- The two records exclude each other, so that it makes no difference that the response tests for one after the other. -/
theorem State.haltRecord_eq {t s : State} {fn k : Nat} :
    t.haltRecord s fn k =
      let e := Reg.GZC_LAST_ERR fn k
      let u := if s.rf e 39 32 = 0x0B then
          t.fault 0x08 1 (t.owner fn) fn k 0xFF (t.eccAddr fn k (s.rf e 31 0)) (s.rf e 63 48) else t
      if s.rf e 39 32 = 0x0C && s.rf e 47 40 = 3 then
        u.fault 0x06 1 (u.owner fn) fn k 0xFF (s.rf e 63 48 * 2 ^ 48 + s.rf e 31 0) (s.core fn k).entryRes else u := by
  unfold State.haltRecord
  by_cases hRead : s.rf (Reg.GZC_LAST_ERR fn k) 39 32 = 0x0B
  · simp [hRead]
  · simp [hRead]

section
variable {s : State} {fn : Nat}

theorem exec_housekeeperHeartbeat (hp : s.powered fn = true) (hk : (s.field fn).hkUp = true) :
    exec (.housekeeperHeartbeat fn) s =
      let t := s.until ((s.field fn).hkBeatAt + 100000)
      let t := t.setField fn { t.field fn with hkBeatAt := t.now }
      .next ((t.add (Reg.FLD_HK_STATUS fn) 31 0 1).add (Reg.FLD_TELLER_STATUS fn 3) 31 0 1) :=
  congrArg _ (State.when_of (by rw [hp, hk]; rfl))

theorem exec_tellerWatchdogCheck {beats stuck : List Nat} (hf : s.isFull fn = true) (hk : (s.field fn).hkUp = true) :
    exec (.tellerWatchdogCheck fn beats stuck) s =
      .next ((List.range 3).foldl (fun st k => st.checkTeller fn k (beats.getD k 0) (stuck.contains k))
        ((s.until (tget 0 (s.field fn).beatAt 3 + 10000)).checkDated fn)) := by
  have hRuns : (s.isFull fn && (s.field fn).hkUp) = true := by rw [hf, hk]; rfl
  show execTellerWatchdogCheck fn beats stuck s = _
  rw [execTellerWatchdogCheck, State.when_of hRuns]
  simp only [State.checkTeller, State.checkDated, Bool.not_eq_true', Bool.or_eq_false_iff, decide_eq_false_iff_not, not_or]

theorem exec_housekeeperHang (hp : s.powered fn = true) (hk : (s.field fn).hkUp = true) (ha : fn ≠ s.anchor)
    (hr : s.brs.running = true) :
    exec (.housekeeperHang fn) s =
      let r := Reg.FLD_HK_STATUS fn
      let t := s.until ((s.field fn).hkBeatAt + 500000)
      let t := ((t.addSat r 63 48 1).addSat (Reg.FLD_TELLER_STATUS fn 3) 63 48 1).addSat Reg.AXB_WDOG_STATUS 47 32 1
      let t := if t.standby = some fn then t.clrb Reg.AXB_BURSAR_STATUS 0 else t
      let t := t.fault 0x11 2 (t.owner fn) fn 0xFF 3 (t.rf r 63 48) 0
      let l := t.now :: (t.field fn).hkHangs.filter (t.inSpan fn)
      let t := (t.setField fn { t.field fn with hkHangs := l, hkBeatAt := t.now }).dropRequester (.teller fn 3)
      .next (if 3 ≤ l.length then t.retireField fn 4 3 0 else t) :=
  congrArg _ (State.when_of (by simp [hp, hk, ha, hr]))

theorem exec_haltResponse {k : Nat} (hf : s.isFull fn = true) (hp : s.present fn k = true) (ht : s.tellerRuns fn k = true)
    (hh : s.halted fn k = true) (hq : (s.core fn k).flushAt = none) (hu : (s.core fn k).unrepairable = false) :
    exec (.haltResponse fn k) s =
      let t := (s.haltItems fn k).haltRecord s fn k
      .next (((t.flushCore fn k).tellerItems fn k).retainOn (t.owner fn)) := by
  have hActs : (s.isFull fn && s.present fn k && s.tellerRuns fn k && s.halted fn k && (s.core fn k).flushAt.isNone &&
      !(s.core fn k).unrepairable) = true := by
    simp [hf, hp, ht, hh, hq, hu]
  show execHaltResponse fn k s = _
  rw [execHaltResponse, State.when_of hActs]
  exact congrArg (fun t : State => Host.Outcome.next (((t.flushCore fn k).tellerItems fn k).retainOn (t.owner fn)))
    State.haltRecord_eq.symm

theorem exec_watchdogModuleReset (hr : s.brs.running = true) (hc : s.clock = true) (hs : s.standby = none) :
    exec .watchdogModuleReset s = .next ((s.until (s.car.strobeAt + 5000000)).moduleReset 4) :=
  congrArg _ (State.when_of (by rw [hr, hc, hs]; rfl))

end

/-- Settles O42: each watchdog where the one it watches is up, and a halt that its teller can answer. -/
theorem watchdogsRun : Obligations.WatchdogsRun :=
  ⟨fun _ _ hp hk => exec_housekeeperHeartbeat hp hk, fun _ _ _ _ hf hk => exec_tellerWatchdogCheck hf hk,
    fun _ _ hp hk ha hr => exec_housekeeperHang hp hk ha hr,
    fun _ _ _ hf hp ht hh hq hu => exec_haltResponse hf hp ht hh hq hu,
    fun _ hr hc hs => exec_watchdogModuleReset hr hc hs⟩

end Sys2Proof.Machine

/-! SUPPORT. A take-down that is under way: a further STOP or PART_RESET of the partition completes, and a START, a WAKE and a
RETAIN are refused as busy (R101, R485). -/

namespace Sys2Proof.Machine

section
variable {s : State} {x : Started} {p : Nat} (h4 : s.partState p = 4)
include h4

theorem State.partMoving_of_falling : s.partMoving p = true := by
  simp [State.partMoving, h4]

theorem State.stopPart_falling {cause : Nat} : s.stopPart x p cause = s.endCmd x.num 0 0 0 := if_pos h4

end

section
variable {s : State} {x : Started} {it : Item} (hp : targetPart it < 16) (hd : (s.part (targetPart it)).defined = true)
include hp hd

/-- A START of a partition that is RISING, FALLING or draining is refused (R101). -/
theorem exec_partStart_busy (hm : s.partMoving (targetPart it) = true)
    (ho : s.openItem it (if it.managed then 0x42 else 0x100) = some x) (ht : s.brs.testMode = false) :
    exec (.partStart it) s = .next ((s.begun x).partBusy x.num (targetPart it)) := by
  have hOpen : ¬(s.begun x).brs.testMode = true := ne_true_of_eq_false ht
  show execPartStart it s = _
  rw [execPartStart, State.onPart_open ho hp hd]
  exact congrArg _ ((if_neg hOpen).trans (if_pos hm))

/-- A WAKE of a partition that is RISING, FALLING or draining is refused (R101). -/
theorem exec_partWake_busy (hm : s.partMoving (targetPart it) = true)
    (ho : s.openItem it (if it.managed then 0x45 else 0x22) = some x) :
    exec (.partWake it) s = .next ((s.begun x).partBusy x.num (targetPart it)) := by
  show execPartWake it s = _
  rw [execPartWake, State.onPart_open ho hp hd]
  exact congrArg _ (if_pos hm)

/-- A RETAIN of a partition that is RISING, FALLING or draining is refused (R101). -/
theorem exec_partRetain_busy (hm : s.partMoving (targetPart it) = true)
    (ho : s.openItem it (if it.managed then 0x44 else 0x21) = some x) :
    exec (.partRetain it) s = .next ((s.begun x).partBusy x.num (targetPart it)) := by
  show execPartRetain it s = _
  rw [execPartRetain, State.onPart_open ho hp hd]
  exact congrArg _ (if_pos hm)

variable (h4 : s.partState (targetPart it) = 4)
include h4

theorem exec_partStop_falling (ho : s.openItem it (if it.managed then 0x43 else 0x20) = some x) :
    exec (.partStop it) s = .next ((s.begun x).endCmd x.num 0 0 0) := by
  show execPartStop it s = _
  rw [execPartStop, State.onPart_open ho hp hd]
  exact congrArg _ (State.stopPart_falling (s := s.begun x) h4)

theorem exec_partReset_falling (ho : s.openItem it (if it.managed then 0x46 else 0x23) = some x) :
    exec (.partReset it) s = .next ((s.begun x).endCmd x.num 0 0 0) := by
  show execPartReset it s = _
  rw [execPartReset, State.onPart_open ho hp hd]
  exact congrArg _ (State.stopPart_falling (s := s.begun x) h4)

end

/-- Settles O4: a STOP and a PART_RESET find the take-down under way, and the others find the partition moving. -/
theorem repeatedStopStands : Obligations.RepeatedStopStands := by
  intro s it x hp hd h4
  have hm := State.partMoving_of_falling h4
  exact ⟨exec_partStop_falling hp hd h4, exec_partReset_falling hp hd h4, exec_partStart_busy hp hd hm,
    exec_partWake_busy hp hd hm, exec_partRetain_busy hp hd hm⟩

end Sys2Proof.Machine

/-! SUPPORT. The order of tally values modulo 2^48: what a signal does by the distance of its value from the tally's, and when
a value reaches a target (R513). -/

namespace Sys2Proof.Machine

/-- The distance from value `cur` to value `new` of a tally, modulo 2^48 (R513). -/
def tallyGap (cur new : Nat) : Nat := (new % 2 ^ 48 + 2 ^ 48 - cur) % 2 ^ 48

/-- The signed distance of two values is the two's-complement reading of `tallyGap`. -/
theorem sext_tallyGap {cur new : Nat} : sext 48 (new % 2 ^ 48 + 2 ^ 48 - cur) =
    if tallyGap cur new < 2 ^ 47 then (tallyGap cur new : Int) else (tallyGap cur new : Int) - 2 ^ 48 := by
  have hHalf : 2 * tallyGap cur new < 2 ^ 48 ↔ tallyGap cur new < 2 ^ 47 := by omega
  simp only [← hHalf]
  rfl

theorem tallyGap_lt {cur new : Nat} : tallyGap cur new < 2 ^ 48 := Nat.mod_lt _ (by decide)

section
variable {s : State} {t v : Nat}

theorem State.tallySignal_same (h : tallyGap (s.tally t) v = 0) : s.tallySignal t v = (s, 0) := if_pos h

section
variable (h0 : tallyGap (s.tally t) v ≠ 0)
include h0

theorem State.tallySignal_advance (h : tallyGap (s.tally t) v < 2 ^ 47) :
    s.tallySignal t v = ((((s.advanceTally t (v % 2 ^ 48)).wakeTally t).forward t).shadowTally t, 0) :=
  (if_neg h0).trans (if_pos h)

variable (hb : ¬tallyGap (s.tally t) v < 2 ^ 47)
include hb

theorem State.tallySignal_stale (h : 2 ^ 48 - 2 ^ 32 ≤ tallyGap (s.tally t) v) :
    s.tallySignal t v = ((s.addSat (Reg.TLY_STAT t) 15 0 1).shadowTally t, 1) :=
  (if_neg h0).trans ((if_neg hb).trans (if_pos h))

theorem State.tallySignal_leap (h : ¬2 ^ 48 - 2 ^ 32 ≤ tallyGap (s.tally t) v) :
    s.tallySignal t v = ((s.addSat (Reg.TLY_STAT t) 31 16 1).notice 0x2A (s.blockOwner (t / 32)) 0xFF 0xFF 0xFF t
      (v % 2 ^ 48), 2) :=
  (if_neg h0).trans ((if_neg hb).trans (if_neg h))

end

end

theorem reached_iff {cur target : Nat} (h : target < 2 ^ 48) :
    reached cur target = true ↔ ((cur : Int) - target) % 2 ^ 48 < 2 ^ 47 := by
  simp only [reached, decide_eq_true_eq]
  omega

/-- Settles O19: the distance of the new value decides between the four outcomes. -/
theorem signalsAdvanceTallies : Obligations.SignalsAdvanceTallies := by
  refine ⟨?_, fun _ _ _ => rfl, fun _ _ h => reached_iff h⟩
  intro s t v d hc
  have hd : d = if tallyGap (s.tally t) v < 2 ^ 47 then (tallyGap (s.tally t) v : Int)
      else (tallyGap (s.tally t) v : Int) - 2 ^ 48 := sext_tallyGap
  have hlt : tallyGap (s.tally t) v < 2 ^ 48 := tallyGap_lt
  clear_value d
  refine ⟨fun h => State.tallySignal_same ?_, fun h => State.tallySignal_advance ?_ ?_,
    fun hl hh => State.tallySignal_stale ?_ ?_ ?_, fun h => State.tallySignal_leap ?_ ?_ ?_⟩ <;>
  split at hd <;> omega

end Sys2Proof.Machine

/-! SUPPORT. Work items and control items that meet their conditions: NOP, WIN_CLOSE, SCRIP_RETURN, LEASE_GRANULE and
OBJECT_SET (R344, R387, R493, R498, R505). -/

namespace Sys2Proof.Machine

section
variable {s : State} {it : Item} {x : Started}

theorem exec_itemNop (hx : s.openItem it 0x00 = some x) :
    exec (.itemNop it) s = .next ((s.begun x).endItem x.num 0 0 0) := by
  show execItemNop it s = _
  rw [execItemNop, State.onItem_open hx]

theorem exec_winClose (hx : s.openItem it 0x05 = some x) (hw : it.u 0x20 1 < 64)
    (hs : (s.window (ownerKey x.fn x.slot) (it.u 0x20 1)).state ≠ 2) :
    exec (.winClose it) s = .next (((s.begun x).closeWindow x.fn x.slot (it.u 0x20 1)).endItem x.num 0 0 0) := by
  show execWinClose it s = _
  rw [execWinClose, State.onItem_open hx]
  exact congrArg _ (if_neg (by simp [hs, hw]))

/-- `s` with `n` units of window `w` of a slot sent back to the holder of the window (R384). -/
def State.scripSentBack (s : State) (it : Item) (x : Started) (w n : Nat) : State :=
  let y := s.window (ownerKey x.fn x.slot) w
  let u := s.holderUnit y.hkind y.holder
  (s.setWindow (ownerKey x.fn x.slot) w { y with outstanding := y.outstanding - n }).send x.fn
    { kind := 6, part := it.part, srcUnit := x.slot, dst := unitDst u.1 u.2, window := w, wgen := y.gen, units := n }

theorem exec_scripReturn (hx : s.openItem it 0x06 = some x) (hw : it.u 0x20 1 < 64)
    (hs : (s.window (ownerKey x.fn x.slot) (it.u 0x20 1)).state = 1)
    (hm : (s.window (ownerKey x.fn x.slot) (it.u 0x20 1)).mode ≠ 0)
    (hn : it.u 0x24 4 ≤ (s.window (ownerKey x.fn x.slot) (it.u 0x20 1)).outstanding) :
    exec (.scripReturn it) s =
      .next (((s.begun x).scripSentBack it x (it.u 0x20 1) (it.u 0x24 4)).endItem x.num 0 0 0) := by
  show execScripReturn it s = _
  rw [execScripReturn, State.onItem_open hx]
  exact congrArg _ (if_neg (by simp [hs, hm, hw, Nat.not_lt.mpr hn]))

/-- A granule of the pool moves, and one that another slot holds is revoked first; one that the slot holds stays (R304, R344). -/
theorem exec_leaseGranule (hx : s.openItem it 0x25 = some x) (ho : s.owner (it.u 0x20 1) = it.part)
    (hg : it.u 0x21 1 < 12) (hc : s.brs.carve.any (fun e => e.1 = it.u 0x20 1 * 12 + it.u 0x21 1) = true)
    (hk : it.u 0x22 1 < 4) (hp : s.present (it.u 0x20 1) (it.u 0x22 1) = true) :
    exec (.leaseGranule it) s =
      match s.leases.find? (fun l => l.2.kind = 7 && l.2.resource = it.u 0x20 1 * 16 + it.u 0x21 1 && l.2.state ≠ 0) with
      | some (i, l) =>
        if l.state = 1 ∧ l.holder = it.u 0x20 1 * 256 + it.u 0x22 1 then .next ((s.begun x).endItem x.num 0 0 0)
        else .next ((s.begun x).quarantine i 0)
      | none => .next ((s.begun x).granuleMove (it.u 0x20 1) (it.u 0x21 1)) := by
  show execLeaseGranule it s = _
  rw [execLeaseGranule, State.onItem_open hx]
  have hGranule : ¬(12 ≤ it.u 0x21 1 ||
      !(s.begun x).brs.carve.any (fun e => e.1 = it.u 0x20 1 * 12 + it.u 0x21 1)) = true := by
    simp only [State.begun_brs, hc, Nat.not_le.mpr hg]
    decide
  have hSlot : ¬(4 ≤ it.u 0x22 1 || !(s.begun x).present (it.u 0x20 1) (it.u 0x22 1)) = true := by
    simp [hp, hk]
  refine (congrArg Host.Outcome.next ((if_neg (not_not_intro ho)).trans ((if_neg hGranule).trans (if_neg hSlot)))).trans ?_
  simp only [State.begun_leases]
  cases s.leases.find? (fun l => l.2.kind = 7 && l.2.resource = it.u 0x20 1 * 16 + it.u 0x21 1 && l.2.state ≠ 0) with
  | none => rfl
  | some e =>
    simp only [Bool.and_eq_true, decide_eq_true_eq]
    split <;> rfl

theorem exec_objectSet_invalid (hx : s.openItem it 0x26 = some x) (hi : it.u 0x20 1 < 64) (hz : it.u 0x24 4 = 0) :
    exec (.objectSet it) s = .next (((s.begun x).setObj it.part (it.u 0x20 1)
      { base := 0, size := 0, fn := 0, slot := 0, state := 0 }).endItem x.num 0 0 0) := by
  show execObjectSet it s = _
  rw [execObjectSet, State.onItem_open hx]
  simp [hz, Nat.not_le.mpr hi]

theorem exec_objectSet_near (hx : s.openItem it 0x26 = some x) (hi : it.u 0x20 1 < 64) (hz : it.u 0x24 4 ≠ 0)
    (ho : s.owner (it.u 0x21 1) = it.part) (hk : it.u 0x22 1 < 4) (hp : s.present (it.u 0x21 1) (it.u 0x22 1) = true)
    (hb : it.u 0x28 8 % 64 = 0) (hs : it.u 0x24 4 % 64 = 0)
    (hr : s.ownRange (it.u 0x21 1) (it.u 0x22 1) (it.u 0x28 8) (it.u 0x24 4) = true) (hn : isNear (it.u 0x28 8) = true) :
    exec (.objectSet it) s = .next (((s.begun x).setObj it.part (it.u 0x20 1)
      { base := it.u 0x28 8, size := it.u 0x24 4, fn := it.u 0x21 1, slot := it.u 0x22 1, state := 1 }).endItem x.num 0 0 0) := by
  show execObjectSet it s = _
  rw [execObjectSet, State.onItem_open hx]
  simp [hz, ho, hp, hb, hs, hr, hn, Nat.not_le.mpr hi, Nat.not_le.mpr hk]

end

/-- Settles O1: each item is open and meets the conditions of its opcode. -/
theorem workItemsComplete : Obligations.WorkItemsComplete :=
  ⟨fun _ _ _ hx => exec_itemNop hx, fun _ _ _ hx hw hs => exec_winClose hx hw hs,
    fun _ _ _ hx hw hs hm hn => exec_scripReturn hx hw hs hm hn,
    fun _ _ _ hx ho hg hc hk hp => exec_leaseGranule hx ho hg hc hk hp,
    fun _ _ _ hx hi hz => exec_objectSet_invalid hx hi hz,
    fun _ _ _ hx hi hz ho hk hp hb hs hr hn => exec_objectSet_near hx hi hz ho hk hp hb hs hr hn⟩

end Sys2Proof.Machine

/-! SUPPORT. Work items that move data: CORE, COPY_OUT, FETCH and WIN_OPEN (R381, R495, R496, R497, R498). -/

namespace Sys2Proof.Machine

/-- `s` with the commands of item `it` submitted in order to the slot that serves it (R495). -/
def State.coreSubmitted (s : State) (it : Item) (x : Started) : State :=
  (List.range it.cmdCount).foldl (fun st i =>
    st.submit x.fn x.slot (tellerWord x.num (i + 1 = it.cmdCount) (it.cmd i))) s

section
variable {s : State} {it : Item} {x : Started}

theorem exec_core (hx : s.openItem it 0x01 = some x) (hs : s.canSubmit x it.cmdCount = true) :
    exec (.core it) s = .next ((((s.begun x).coreSubmitted it x).modItem x.num
      (fun y => { y with cmds := [x.num % 65536] })).tellerItems x.fn x.slot) := by
  show execCore it s = _
  rw [execCore, State.onItemIf_open hx hs, State.coreSubmitted]

theorem exec_fetch (hx : s.openItem it 0x03 = some x) : exec (.fetch it) s = .next ((s.begun x).fetchPump x.num) := by
  show execFetch it s = _
  rw [execFetch, State.onItem_open hx]

/-- The state in which a COPY_OUT has its copy window `w`, the grant `g` for it and its PUSH of the range at `src` (R496). -/
def State.copyBegun (s : State) (it : Item) (x : Started) (src w g : Nat) : State :=
  let base := (0xE0 + it.part) * 2 ^ 40 + w * 2 ^ 34
  let len := it.u 0x38 4
  let y := s.part it.part
  let t := s.setPart it.part { y with copyWins := y.copyWins ++ [(w, it.u 0x30 8, len, x.num, len)] }
  let t := t.setGrant (coreHolder x.fn x.slot) g
    { base := base, size := len, scrip := 512, total := 512, state := 1, window := w, ownerFn := s.anchor, ownerSlot := 5 }
  let t := t.submit x.fn x.slot ⟨BitVec.ofNat 64 (5 + 2 ^ 8 + x.num % 65536 * 2 ^ 16), BitVec.ofNat 64 src,
    BitVec.ofNat 64 base, BitVec.ofNat 64 len⟩
  (t.modItem x.num (fun z => { z with cmds := [x.num % 65536], copyWin := some w, detail := 0xFF })).tellerItems x.fn x.slot

theorem exec_copyOut {src w g : Nat} (hx : s.openItem it 0x02 = some x) (hs : s.canSubmit x 1 = true)
    (hr : s.objRange x (it.u 0x20 2) (it.u 0x28 8) (it.u 0x38 4) = some src) (hw : s.freeCopy it.part = some w)
    (hg : s.freeGrant (coreHolder x.fn x.slot) = some g) :
    exec (.copyOut it) s = .next ((s.begun x).copyBegun it x src w g) := by
  have hReady : (s.canSubmit x 1 && ((s.freeCopy it.part).isSome ||
      (s.objRange x (it.u 0x20 2) (it.u 0x28 8) (it.u 0x38 4)).isNone)) = true := by
    rw [hs, hw]; rfl
  show execCopyOut it s = _
  rw [execCopyOut, State.onItemIf_open hx hReady]
  simp only [State.begun_objRange, State.begun_freeGrant, hr, hw, hg, Option.getD_some]
  rfl

theorem exec_winOpen {base : Nat} (hx : s.openItem it 0x04 = some x)
    (hl : s.leases.any (fun l => l.2.state = 2 && l.2.hkind = 5 && l.2.holder = it.u 0x2C 2) = false)
    (hr : s.objRange x (it.u 0x28 2) (it.u 0x30 8) (it.u 0x24 4) = some base) (hw : it.u 0x20 1 < 64)
    (hf : windowForm base (it.u 0x24 4) (it.u 0x22 2) (it.u 0x21 1) = true)
    (ho : s.ownRange x.fn x.slot base (it.u 0x24 4) = true) (hn : isNear base = true)
    (ha : s.holderAllowed it.part (it.u 0x2A 1) (it.u 0x2C 2) = true)
    (hk : ((s.begun x).openWindow x.fn x.slot (it.u 0x20 1) base (it.u 0x24 4) (it.u 0x22 2) (it.u 0x21 1) (it.u 0x2A 1)
      (it.u 0x2C 2) (it.u 0x38 8)).2 = true) :
    exec (.winOpen it) s = .next ((s.begun x).openWindow x.fn x.slot (it.u 0x20 1) base (it.u 0x24 4) (it.u 0x22 2)
      (it.u 0x21 1) (it.u 0x2A 1) (it.u 0x2C 2) (it.u 0x38 8)).1 := by
  have hSettled : (!(it.u 0x2A 1 = 5 &&
      s.leases.any (fun l => l.2.state = 2 && l.2.hkind = 5 && l.2.holder = it.u 0x2C 2))) = true := by
    rw [hl, Bool.and_false]; rfl
  show execWinOpen it s = _
  rw [execWinOpen, State.onItemIf_open hx hSettled]
  simp [hr, hf, ho, hn, ha, hk, Nat.not_le.mpr hw]

end

/-- Settles O2: each item is open, its server can act, and what it names is valid and free. -/
theorem transferItemsRun : Obligations.TransferItemsRun :=
  ⟨fun _ _ _ hx hs => exec_core hx hs, fun _ _ _ _ _ _ hx hs hr hw hg => exec_copyOut hx hs hr hw hg,
    fun _ _ _ hx => exec_fetch hx,
    fun _ _ _ _ hx hl hr hw hf ho hn ha hk => exec_winOpen hx hl hr hw hf ho hn ha hk⟩

end Sys2Proof.Machine

/-! SUPPORT. The messages of the tally unit and the host's writes of its registers: a signal, its answer, a wait, a wake, and the
writes of TLY_VALUE and TLY_STAT (R411, R513, R514, R515, R519). -/

namespace Sys2Proof.Machine

section
variable {s : State} {m : Msg} (ha : s.atDest m = true)
include ha

/-- A signal at the bursar is tried where its sender may signal the tally, and answered (R514). -/
theorem exec_tsignal (hc : m.kind = 0x0C) (hu : m.dstUnit = 8) (hf : m.dstFn = s.anchor) :
    exec (.tsignal m) s =
      let r := (s.takeArrived m).tallySignal (m.a % 1024) m.b
      .next (if s.mayTally m (m.a % 1024) then r.1.tack m r.2 else (s.takeArrived m).tack m 3) := by
  have hPort : m.dstUnit ≠ 6 := by omega
  have hHere : (m.dstUnit = 8 && m.dstFn = s.anchor) = true := by simp [hu, hf]
  show execTsignal m s = _
  rw [execTsignal, if_neg (not_not_intro hc), State.onArrived_here ha]
  exact congrArg _ ((if_neg hPort).trans (if_pos hHere))

/-- The answer to a signal of a core gives its command the result (R411). -/
theorem exec_tack {x : Sent} {fn k num : Nat} (hd : m.kind = 0x0D) (hx : s.sentOf m.tag = some x)
    (hj : x.job = .signal fn k num) :
    exec (.tack m) s =
      let t := (s.takeArrived m).dropSent m.tag
      .next (t.setCore fn k ((t.core fn k).modCmd 4 num (fun y => { y with result := some m.status }))) := by
  show execTack m s = _
  rw [execTack, if_neg (not_not_intro hd), State.onArrived_here ha]
  simp only [State.takeArrived_sentOf, hx, State.signalDone, hj]

/-! ## Waits (R515) -/

section
variable (he : m.kind = 0x0E)
include he

theorem exec_twait_cancel (hb : m.b % 2 = 1) : exec (.twait m) s =
    .next (((s.takeArrived m).setWaits (s.host.waits.filter (fun w => !(w.who = m.tag && w.tally = m.a % 1024)))).wakeMsg
      m.tag (m.a % 1024) 1 s.now) := by
  show execTwait m s = _
  rw [execTwait, if_neg (not_not_intro he), State.onArrived_here ha]
  exact congrArg _ (if_pos hb)

variable (hb : m.b % 2 ≠ 1)
include hb

theorem exec_twait_foreign (hf : 16 ≤ m.part ∨ s.blockOwner (m.a % 1024 / 32) ≠ m.part) :
    exec (.twait m) s = .next ((s.takeArrived m).wakeMsg m.tag (m.a % 1024) 2 s.now) := by
  have hForeign : (16 ≤ m.part || s.blockOwner (m.a % 1024 / 32) ≠ m.part) = true := by
    simpa using hf
  show execTwait m s = _
  rw [execTwait, if_neg (not_not_intro he), State.onArrived_here ha]
  exact congrArg _ ((if_neg hb).trans (if_pos hForeign))

variable (hp : m.part < 16) (ho : s.blockOwner (m.a % 1024 / 32) = m.part)
include hp ho

theorem exec_twait_reached (hr : reached (s.tally (m.a % 1024)) m.c = true) :
    exec (.twait m) s = .next (((s.takeArrived m).setWaits (s.host.waits.filter (fun w => w.who ≠ m.tag))).wakeMsg m.tag
      (m.a % 1024) 0 (s.reachedAt (m.a % 1024) m.c)) := by
  have hOwn : ¬(16 ≤ m.part || s.blockOwner (m.a % 1024 / 32) ≠ m.part) = true := by simp [hp, ho]
  show execTwait m s = _
  rw [execTwait, if_neg (not_not_intro he), State.onArrived_here ha]
  exact congrArg _ ((if_neg hb).trans ((if_neg hOwn).trans (if_pos hr)))

theorem exec_twait_held (hr : reached (s.tally (m.a % 1024)) m.c = false) :
    exec (.twait m) s = .next ((s.takeArrived m).setWaits (s.host.waits.filter (fun w => w.who ≠ m.tag) ++
      [{ who := m.tag, tally := m.a % 1024, target := m.c }])) := by
  have hOwn : ¬(16 ≤ m.part || s.blockOwner (m.a % 1024 / 32) ≠ m.part) = true := by simp [hp, ho]
  show execTwait m s = _
  rw [execTwait, if_neg (not_not_intro he), State.onArrived_here ha]
  exact congrArg _ ((if_neg hb).trans ((if_neg hOwn).trans (if_neg (ne_true_of_eq_false hr))))

end

/-- A wake for a core whose WAIT of that tally has been sent and has no expiry gives it the result 0. -/
theorem exec_twake {x : Cmd} {rest : List Cmd} {fn k : Nat} (hfn : (m.tag - 8192) / 4 = fn) (hk : (m.tag - 8192) % 4 = k)
    (hf : m.kind = 0x0F) (ht : 8192 ≤ m.tag) (hx : (s.core fn k).ctrl = x :: rest) (hw : x.w.op = 0x0B) (hs : x.sent ≠ 0)
    (hr : x.result = none) (hy : x.w.tally = m.a) (hb : m.b = 0) (he : x.expiry = none) :
    exec (.twake m) s = .next ((s.takeArrived m).setCore fn k
      ((s.core fn k).modCmd 4 x.num (fun y => { y with result := some 0 }))) := by
  show execTwake m s = _
  rw [execTwake, if_neg (not_not_intro hf), State.onArrived_here ha, if_pos ht, hfn, hk]
  simp [State.wakeCore, hx, hw, hs, hr, hy, hb, he]

end

/-! ## Host writes (R514, R519) -/

section
variable {s : State} {who : Who} {i v : Nat} (hi : i < 1024) (hr : s.tallyReason who i = none)
include hi hr

/-- A write of TLY_VALUE is a signal (R514). -/
theorem exec_tallyValueWrite (ho : s.blockOwner (i / 32) ≠ 0xFF) :
    exec (.tallyValueWrite who i v) s = .next (s.tallySignal i v).1 := by
  refine congrArg Host.Outcome.next ((if_pos hi).trans ?_)
  simp only [State.tallyValue, hr, if_neg ho]

theorem exec_tallyStatWrite
    (hf : v.testBit 63 = true → s.blockOwner (i / 32) < 16 ∧ s.kvlOwner (nbits v 62 60) = s.blockOwner (i / 32)) :
    exec (.tallyStatWrite who i v) s = .next (((s.wf (Reg.TLY_STAT i) 63 63 (nbits v 63 63)).wf (Reg.TLY_STAT i) 62 60
      (nbits v 62 60)).wf (Reg.TLY_STAT i) 57 48 (nbits v 57 48)) := by
  have hAllowed : ¬(v.testBit 63 && (16 ≤ s.blockOwner (i / 32) ||
      s.kvlOwner (nbits v 62 60) ≠ s.blockOwner (i / 32))) = true := by
    simpa using hf
  refine congrArg Host.Outcome.next ((if_pos hi).trans ?_)
  simp only [State.tallyStat, hr, if_neg hAllowed]

end

/-- Settles O20: each message by what its receiver knows of it, and each write that no check refuses. -/
theorem tallyCommandsRun : Obligations.TallyCommandsRun :=
  ⟨fun _ _ hc ha hu hf => exec_tsignal ha hc hu hf, fun _ _ _ _ _ _ hd ha hx hj => exec_tack ha hd hx hj,
    fun _ _ he ha => ⟨exec_twait_cancel ha he, exec_twait_foreign ha he, exec_twait_reached ha he, exec_twait_held ha he⟩,
    fun _ _ _ _ hf ha ht hx hw hs hr hy hb he => exec_twake ha rfl rfl hf ht hx hw hs hr hy hb he,
    fun _ _ _ _ hi hr ho => exec_tallyValueWrite hi hr ho, fun _ _ _ _ hi hr hf => exec_tallyStatWrite hi hr hf⟩

end Sys2Proof.Machine

/-! SUPPORT. A flush of a queue that has a ring read in progress: the read is abandoned and keeps its tag (R508). -/

namespace Sys2Proof.Machine

/-- A read of one slot of the ring of management queue 15, under tag 3. -/
def ringRead : DmaRead := { tag := 3, func := 0, addr := 0, len := 64, what := .ring 4111 1 1 }

/-- After reset, with `ringRead` in progress. -/
def ringReading : State := { State.reset with host := { State.reset.host with reads := [ringRead] } }

/-- The reads in progress after a command. -/
def readsAfter (o : Out1) : List DmaRead :=
  match o with
  | .next t => t.host.reads
  | _ => []

/-- The model keeps the read until its completion, which it discards (R508). -/
theorem readsAfter_queueFlush_ringReading :
    readsAfter (exec (.queueFlush .pf0 4111) ringReading) = [{ ringRead with what := .void }] := by
  decide +kernel

/-- Refutes O40: a flush leaves the ring read of its queue in progress as an abandoned one, where the statement removes it. -/
theorem not_queueRegistersRun : ¬ Obligations.QueueRegistersRun := by
  rintro ⟨hFlush, -⟩
  have hReads := readsAfter_queueFlush_ringReading
  rw [hFlush ringReading .pf0 4111 (by decide) (by decide +kernel) (by decide +kernel)] at hReads
  exact absurd hReads (by decide +kernel)

end Sys2Proof.Machine

/-! SUPPORT. The controls of a sensor port, as its owner or PF0 writes them: START, STOP, FLUSH, SNP_CFG, gains and routes (R552,
R561, R562, R564, R566). -/

namespace Sys2Proof.Machine

/-- `s` with port `p` in PREROLL, its counters at zero, its records to begin anew and no output frame queued (R562). -/
def State.snpPrerolled (s : State) (p : Nat) : State :=
  let x := (List.range 2).foldl (fun (x : SnpSt) r => x.setIn r { x.inp r with restart := true }) (s.snpPort p)
  let t := (s.snpZero p).setSnp p { x with fresh := true, live := false, bad := 0, wasErr := false, mute := false, outs := [] }
  (t.snpEnter p 1).wf (snpReg Reg.SNP_STATUS p) 23 15 (bitsOf (t.snpCfg p) 40 32)

/-- `st` with the window of output route `r` of port `p` open and the slots of the route changed to it, where the route is
enabled (R563). -/
def State.snpOpenRoute (st : State) (p r : Nat) : State :=
  let w := st.rd (snpReg2 Reg.SNP_OROUTE p r)
  if w.getLsbD 40 = false then st
  else
    let h := st.rn (snpReg2 Reg.SNP_OHOLDER p r)
    let st := (st.openWindow (Config.snpField p) (snpSlot p r) (snpWin p r) (snpBuf p r) (ringBytes w) (ringBytes w / 64) 1 1
      (nbits h 15 8 * 256 + nbits h 7 0) 0).1
    let st := st.setSnp p ((st.snpPort p).setOut r { (st.snpPort p).outp r with win := true })
    (maskSlots (bitsOf w 31 0)).foldl (fun st k => st.snpChange p k (fun y => { y with src := r })) st

section
variable {s : State} {who : Who} {p : Nat}

theorem State.snpStart_refused {e : Nat} (h0 : s.snpState p = 0) (he : s.snpStartErr p = some e) :
    s.snpStart p = s.wf (snpReg Reg.SNP_STATUS p) 14 7 e := by
  simp only [State.snpStart, h0, he, State.snpErr, ne_eq, not_true_eq_false, if_false]

theorem State.snpStart_taken (h0 : s.snpState p = 0) (he : s.snpStartErr p = none) :
    s.snpStart p = (List.range 2).foldl (fun st r => st.snpOpenRoute p r) (s.snpPrerolled p) := by
  simp only [State.snpStart, h0, he, ne_eq, not_true_eq_false, if_false, Bool.not_eq_true']
  rfl

/-- A write by PF0 or by the owner that no check refuses is performed. -/
theorem State.hostWrite_of {fn off : Nat} {c : Bool} {f : State → State} (hc : c = true) (hr : s.fieldReason who fn = none)
    (hh : s.hostOf who fn = true) :
    s.when c (fun st => st.fieldWrite who fn off (st.hostOf who fn) f) = f s := by
  rw [State.when_of hc, hh, State.fieldWrite_of hr]

variable (hp : p < 8) (hr : s.fieldReason who (Config.snpField p) = none) (hh : s.hostOf who (Config.snpField p) = true)
include hp hr hh

theorem exec_snpStart : exec (.snpStart who p) s = .next (s.snpStart p) :=
  congrArg _ (State.hostWrite_of (decide_eq_true hp) hr hh)

theorem exec_snpStop : exec (.snpStop who p) s = .next (s.snpStop p) :=
  congrArg _ (State.hostWrite_of (decide_eq_true hp) hr hh)

theorem exec_snpFlush : exec (.snpFlush who p) s = .next ((s.snpFlushIn p).snpDropOut p) :=
  congrArg _ (State.hostWrite_of (decide_eq_true hp) hr hh)

theorem exec_snpCfgWrite {v : Nat} : exec (.snpCfgWrite who p v) s = .next (s.snpCfgSet p v) :=
  congrArg _ (State.hostWrite_of (decide_eq_true hp) hr hh)

/-- A gain or a mute becomes pending, and applies at once where no frame is emitted (R561). -/
theorem exec_snpOgainWrite {k v : Nat} (hk : k < 32) : exec (.snpOgainWrite who p k v) s =
    let t := s.snpChange p k (fun y => { y with gain := nbits v 15 0, mute := nbit v 16 })
    .next (if t.snpState p = 0 ∨ t.snpState p = 4 then t.snpApply p k else t) := by
  refine congrArg Host.Outcome.next ((State.hostWrite_of (decide_eq_true ⟨hp, hk⟩) hr hh).trans ?_)
  simp only [State.snpOgain, State.snpAtOnce, Bool.or_eq_true, decide_eq_true_eq]

section
variable {r v : Nat} (hn : r < 2)
include hn

theorem exec_snpOrouteWrite : exec (.snpOrouteWrite who p r v) s = .next (s.snpOroute p r v) :=
  congrArg _ (State.hostWrite_of (decide_eq_true ⟨hp, hn⟩) hr hh)

/-- An input route is taken at once where no record is in progress (R552). -/
theorem exec_snpIrouteWrite (hf : ((s.snpPort p).inp r).frames = []) : exec (.snpIrouteWrite who p r v) s =
    let t := s.wn (snpReg2 Reg.SNP_IROUTE p r) (nbits v 51 0)
    .next (t.setSnp p ((t.snpPort p).setIn r (((t.snpPort p).inp r).adopt (BitVec.ofNat 64 (nbits v 51 0))))) := by
  refine congrArg Host.Outcome.next ((State.hostWrite_of (decide_eq_true ⟨hp, hn⟩) hr hh).trans ?_)
  exact if_pos (List.isEmpty_iff.mpr hf)

end

end

section
variable {s : State} {p r v : Nat}

theorem State.snpStop_preroll (h : s.snpState p = 1) : s.snpStop p = s.snpStopped p := by
  simp only [State.snpStop, h]

theorem State.snpStop_running (h : s.snpState p = 2) : s.snpStop p = (s.snpMute p).snpEnter p 3 := by
  simp only [State.snpStop, h]

theorem State.snpCfgSet_stopped (h : s.snpState p = 0) :
    s.snpCfgSet p v = s.wn (snpReg Reg.SNP_CFG p) (v &&& 0xFFFF01FFFFF7FFFF) := if_pos h

theorem State.snpCfgSet_refused (h : s.snpState p ≠ 0) : s.snpCfgSet p v = s.wf (snpReg Reg.SNP_STATUS p) 14 7 0x10 :=
  if_neg h

theorem State.snpOroute_stopped (h : s.snpState p = 0) :
    s.snpOroute p r v = s.wn (snpReg2 Reg.SNP_OROUTE p r) (nbits v 57 0) := if_pos h

/-- Outside STOPPED the mask of a route that is not enabled is written alone; a change of another field is refused (R561). -/
theorem State.snpOroute_refused (h : s.snpState p ≠ 0) (he : (s.rd (snpReg2 Reg.SNP_OROUTE p r)).getLsbD 40 = false)
    (ho : bitsOf (s.rd (snpReg2 Reg.SNP_OROUTE p r)) 57 32 ≠ nbits v 57 32) :
    s.snpOroute p r v = (s.wf (snpReg Reg.SNP_STATUS p) 14 7 0x10).wf (snpReg2 Reg.SNP_OROUTE p r) 31 0 (nbits v 31 0) := by
  simp only [State.snpOroute, if_neg h, he, decide_eq_true ho, State.snpErr, Bool.not_false, if_true]

end

/-- Settles O26: each write that no check refuses, by the state of the port. -/
theorem sensorControlsRun : Obligations.SensorControlsRun := by
  refine ⟨fun s who p hp hr hh h0 => ⟨fun e he => ?_, fun he => ?_⟩, fun s who p hp hr hh => ⟨fun h1 => ?_, fun h2 => ?_⟩,
    fun s who p hp hr hh => exec_snpFlush hp hr hh, fun s who p v hp hr hh => ⟨fun h0 => ?_, fun h0 => ?_⟩,
    fun s who p k v hp hk hr hh => exec_snpOgainWrite hp hr hh hk,
    fun s who p r v hp hn hr hh => ⟨fun h0 => ?_, fun h0 he ho => ?_⟩,
    fun s who p r v hp hn hr hh hf => exec_snpIrouteWrite hp hr hh hn hf⟩
  · rw [exec_snpStart hp hr hh, State.snpStart_refused h0 he]
  · exact (exec_snpStart hp hr hh).trans (congrArg _ (State.snpStart_taken h0 he))
  · rw [exec_snpStop hp hr hh, State.snpStop_preroll h1]
  · rw [exec_snpStop hp hr hh, State.snpStop_running h2]
  · rw [exec_snpCfgWrite hp hr hh, State.snpCfgSet_stopped h0]
  · rw [exec_snpCfgWrite hp hr hh, State.snpCfgSet_refused h0]
  · rw [exec_snpOrouteWrite hp hr hh hn, State.snpOroute_stopped h0]
  · rw [exec_snpOrouteWrite hp hr hh hn, State.snpOroute_refused h0 he ho]

end Sys2Proof.Machine

/-! SUPPORT. The registers of an island: accesses of its user registers with their answers and timeouts, the reset in ISL_CTL and
the flush of its taps (R580, R581, R594, R596). -/

namespace Sys2Proof.Machine

section
variable {s : State} {who : Who} {fn k i v : Nat}

/-- `s` with a write of user register `i` sent to the island; earlier ones still count while they may time out (R581). -/
def State.islWritten (s : State) (who : Who) (fn k i v : Nat) : State :=
  let x := s.island fn k
  let old := x.writes.filter (fun r => decide (s.now ≤ r.time + s.islNs fn 1024))
  (s.setIsl fn k { x with writes := old ++ [{ who := who, off := Reg.ISL_USER fn k i, time := s.now }] }).emit
    (.island fn k 4 [i, 1, v % 2 ^ 32])

/-- `s` with a read of user register `i` sent to the island, which is to answer it (R580). -/
def State.islAsked (s : State) (who : Who) (fn k i : Nat) : State :=
  let x := s.island fn k
  let t := s.setIsl fn k { x with reads := x.reads ++ [{ who := who, off := Reg.ISL_USER fn k i, time := s.now }] }
  State.emit { t with reply := none } (.island fn k 4 [i, 0, 0])

section
variable (hk : k < 4) (hr : s.fieldReason who fn = none) (hp : (s.islCfg fn k).present = true)
  (hh : s.hostOf who fn = true ∨ Who.tellerOf who fn k = true)
include hk hr hp hh

/-- An owner's access to a register that a running island has goes to the island. -/
theorem exec_islUserAccess {w : Bool} (hi : i < 256) (hn : i < (s.islCfg fn k).regs) (hs : s.islRuns fn k = true) :
    exec (.islUserAccess who fn k i w v) s = .next (if w then s.islWritten who fn k i v else s.islAsked who fn k i) := by
  have hMay : (s.hostOf who fn || Who.tellerOf who fn k) = true := (Bool.or_eq_true _ _).mpr hh
  refine congrArg Host.Outcome.next ((State.when_of (decide_eq_true ⟨hk, hi⟩)).trans ?_)
  simp only [State.islUser, hr, hp, hMay, hs, Nat.not_le.mpr hn, Bool.not_true, Bool.false_eq_true, if_false]
  rfl

/-- An owner's write of ISL_CTL for an island that is present is performed (R594). -/
theorem State.islCtlWrite_of {f : State → State} :
    s.when (decide (k < 4)) (fun st => st.islCtlWrite who fn k f) = f s := by
  rw [State.when_of (decide_eq_true hk)]
  simp only [State.islCtlWrite, hr, hp, (Bool.or_eq_true _ _).mpr hh, Bool.not_true, Bool.false_eq_true, if_false, if_true]

theorem exec_islandReset {on : Bool} : exec (.islandReset who fn k on) s = .next (s.islReset fn k on) :=
  congrArg _ (State.islCtlWrite_of hk hr hp hh)

theorem exec_tapFlush : exec (.tapFlush who fn k) s = .next (s.tapFlush fn k) :=
  congrArg _ (State.islCtlWrite_of hk hr hp hh)

end

theorem State.islReset_released (h : (s.field fn).stopped (16 + k) = false) :
    s.islReset fn k false = (s.wf (Reg.ISL_CTL fn k) 0 0 0).islUp fn k := if_neg (ne_true_of_eq_false h)

/-- A flush with no item half taken empties the taps and leaves RESYNC as it is (R596). -/
theorem State.tapFlush_of (hl : (s.island fn k).rstLow = false) (hi : (s.island fn k).inItem = false) :
    s.tapFlush fn k =
      let t := s.pmDiscard fn k
      State.emit (t.setIsl fn k { t.island fn k with
        due := [], inq := [], outq := [], ended := none, inItem := false, resync := (s.island fn k).resync })
        (.island fn k 3 []) := by
  simp only [State.tapFlush, hl, hi, Bool.or_false, Bool.false_and, Bool.false_eq_true, if_false]

/-! ## Answers and timeouts (R581) -/

theorem exec_islRegRsp {r : IslRead} {rest : List IslRead} {w : Nat} (hx : (s.island fn k).reads = r :: rest)
    (hl : r.late = false) : exec (.islRegRsp fn k [w]) s = .next ((s.setIsl fn k { s.island fn k with
      reads := rest, writes := (s.island fn k).writes.filter (fun y => decide (r.time < y.time)) }).answer (w % 2 ^ 32)) := by
  show execIslRegRsp fn k [w] s = _
  simp only [execIslRegRsp, hx, hl, Bool.false_eq_true, if_false, List.headD_cons]

theorem exec_islRegTimeout_read {r : IslRead} (hx : (s.island fn k).reads.find? (fun r => !r.late) = some r) :
    exec (.islRegTimeout fn k false) s =
      let t := s.until (r.time + s.islNs fn 1024)
      let reads := (s.island fn k).reads.map (fun y => if y = r then { y with late := true } else y)
      .next ((t.setIsl fn k { t.island fn k with reads := reads }).accErr r.who 10 false r.off) := by
  show execIslRegTimeout fn k false s = _
  simp only [execIslRegTimeout, hx, Bool.false_eq_true, if_false]

theorem exec_islRegTimeout_write {r : IslRead} {rest : List IslRead} (hx : (s.island fn k).writes = r :: rest) :
    exec (.islRegTimeout fn k true) s =
      let t := s.until (r.time + s.islNs fn 1024)
      .next ((t.setIsl fn k { t.island fn k with writes := rest }).accErr r.who 10 true r.off) := by
  show execIslRegTimeout fn k true s = _
  simp only [execIslRegTimeout, hx, if_true]

end

/-- Settles O28: each access that no check refuses, the oldest request that an answer or a timeout ends, and the taps of an
island out of reset. -/
theorem islandCommandsRun : Obligations.IslandCommandsRun := by
  refine ⟨fun s who fn k i v hk hi hr hp hh hn hs => ⟨?_, ?_⟩, fun _ _ _ _ _ _ hx hl => exec_islRegRsp hx hl,
    fun _ _ _ _ hx => exec_islRegTimeout_read hx, fun _ _ _ _ _ hx => exec_islRegTimeout_write hx,
    fun s who fn k hk hr hp hh => ⟨?_, fun h => ?_⟩, fun s who fn k hk hr hp hh hl hi => ?_⟩
  · exact exec_islUserAccess hk hr hp hh hi hn hs
  · exact exec_islUserAccess hk hr hp hh hi hn hs (v := v)
  · exact exec_islandReset hk hr hp hh
  · rw [exec_islandReset hk hr hp hh, State.islReset_released h]
  · rw [exec_tapFlush hk hr hp hh, State.tapFlush_of hl hi]

end Sys2Proof.Machine

/-! SUPPORT. The ports of an island: words at the pre-feeder tap, requests at the store-side tap, words on transceiver lanes and
pulses of ATTN (R582, R585, R589, R593). -/

namespace Sys2Proof.Machine

section
variable {s : State} {fn k : Nat}

/-! ## The taps (R585, R589) -/

section
variable {w : List Nat} (hs : s.islRuns fn k = true) (ha : nbit (s.islCfg fn k).attach 0 = true)
include hs ha

/-- In RESYNC a word is discarded, up to the end of its item (R586). -/
theorem exec_pfInWord_resync (hr : (s.island fn k).resync = true) : exec (.pfInWord fn k w) s =
    .next (s.setIsl fn k { s.island fn k with resync := !nbit (w.getD 17 0) 22, inItem := false }) := by
  refine congrArg Host.Outcome.next ((State.when_of ((Bool.and_eq_true _ _).mpr ⟨hs, ha⟩)).trans ?_)
  exact if_pos hr

/-- The tap takes a word while it has room. -/
theorem exec_pfInWord_taken (hr : (s.island fn k).resync = false) (hl : (s.island fn k).inq.length < 32) :
    exec (.pfInWord fn k w) s = .next ((s.setIsl fn k { s.island fn k with
      inq := (s.island fn k).inq ++ [w], inItem := !nbit (w.getD 17 0) 22 }).pfMatch fn k 64) := by
  refine congrArg Host.Outcome.next ((State.when_of ((Bool.and_eq_true _ _).mpr ⟨hs, ha⟩)).trans ?_)
  exact (if_neg (ne_true_of_eq_false hr)).trans (if_neg (Nat.not_le.mpr hl))

end

theorem exec_ssReq {op a d t : Nat} (hs : s.islRuns fn k = true) (ha : nbit (s.islCfg fn k).attach 2 = true)
    (hl : (s.island fn k).ss.length < 16) : exec (.ssReq fn k [op, a, d, t]) s =
      let x := s.island fn k
      let e : SsPend := { op := op % 4, addr := a % 2 ^ 48, data := d % 2 ^ 64, tally := t % 1024 }
      .next ((s.setIsl fn k { x with ss := x.ss ++ [e] }).ssPump fn k 16) := by
  refine congrArg Host.Outcome.next ((State.when_of ((Bool.and_eq_true _ _).mpr ⟨hs, ha⟩)).trans ?_)
  exact if_neg (Nat.not_le.mpr hl)

/-! ## Transceiver lanes (R593) -/

/-- Words that the island has taken from the FIFO of lane `j` of its group since the last count. -/
def State.rxGone (s : State) (fn k j : Nat) : Nat :=
  (s.now - tget 0 (s.island fn k).rxAt j) * tget 0 s.brs.islFreq fn / 1000

/-- Words in the FIFO of lane `j` of an island's group. -/
def State.rxHeld (s : State) (fn k j : Nat) : Nat := tget 0 (s.island fn k).rxFill j - s.rxGone fn k j

section
variable {lane w : Nat} (hx : s.laneIsland lane = some (fn, k))
include hx

theorem exec_utxRxWord_full (hf : 64 ≤ s.rxHeld fn k (lane % 4)) :
    exec (.utxRxWord lane w) s = .next (s.addSat (Reg.ISL_UTX_OVF fn k) 63 0 1) := by
  show execUtxRxWord lane w s = _
  simp only [execUtxRxWord, hx]
  exact congrArg _ (if_pos hf)

theorem exec_utxRxWord_taken (hf : s.rxHeld fn k (lane % 4) < 64) : exec (.utxRxWord lane w) s =
    let x := s.island fn k
    let j := lane % 4
    .next (State.emit (s.setIsl fn k { x with
      rxFill := tput 0 x.rxFill j (s.rxHeld fn k j + 1),
      rxAt := tput 0 x.rxAt j (if s.rxGone fn k j = 0 then tget 0 x.rxAt j else s.now) })
      (.island fn k 6 [j, w % 2 ^ 128])) := by
  show execUtxRxWord lane w s = _
  simp only [execUtxRxWord, hx]
  exact congrArg _ (if_neg (Nat.not_le.mpr hf))

theorem exec_utxTxWord : exec (.utxTxWord lane w) s = .next (s.emit (.utx lane (w % 2 ^ 128))) := by
  show execUtxTxWord lane w s = _
  simp only [execUtxTxWord, hx]

end

/-! ## ATTN (R582) -/

/-- `s` with a pulse of ATTN that has crossed counted (R77, R582). -/
def State.attnCounted (s : State) (fn k : Nat) : State :=
  (s.setIsl fn k { s.island fn k with attnX := (s.island fn k).attnCross s.now }).addSat (Reg.ISL_STATUS fn k) 63 32 1

section
variable (hs : s.islRuns fn k = true) (hu : (s.island fn k).upAt + 4 ≤ s.now)
  (hc : ((s.island fn k).attnCross s.now).isSome = true)
include hs hu hc

/-- A pulse that crosses is noticed at once, or waits for the end of the 10 microseconds that a notice keeps. -/
theorem exec_islandAttn : exec (.islandAttn fn k) s =
    let t := s.attnCounted fn k
    .next (if (t.island fn k).attnAt.all (· + 10000 ≤ t.now) then t.attnNotice fn k
      else t.setIsl fn k { t.island fn k with attnWait := true }) :=
  congrArg _ (State.when_of (by simp [hs, hu, hc]))

theorem exec_islandAttn_notice
    (h : ∀ a, ((s.attnCounted fn k).island fn k).attnAt = some a → a + 10000 ≤ (s.attnCounted fn k).now) :
    exec (.islandAttn fn k) s = .next ((s.attnCounted fn k).attnNotice fn k) := by
  refine (exec_islandAttn hs hu hc).trans (congrArg Host.Outcome.next (if_pos ?_))
  exact (Option.all_eq_true _ _).mpr fun a ha => decide_eq_true (h a ha)

theorem exec_islandAttn_waits {a : Nat} (ha : ((s.attnCounted fn k).island fn k).attnAt = some a)
    (h : (s.attnCounted fn k).now < a + 10000) : exec (.islandAttn fn k) s = .next ((s.attnCounted fn k).setIsl fn k
      { (s.attnCounted fn k).island fn k with attnWait := true }) := by
  refine (exec_islandAttn hs hu hc).trans (congrArg Host.Outcome.next (if_neg ?_))
  rw [ha]
  exact fun hAll => Nat.not_le.mpr h (of_decide_eq_true hAll)

end

end

/-- Settles O29: each port of a running island that is attached, by the room in its FIFO and the age of the last notice. -/
theorem islandPortsRun : Obligations.IslandPortsRun := by
  refine ⟨fun s fn k w hs ha => ⟨exec_pfInWord_resync hs ha, exec_pfInWord_taken hs ha⟩,
    fun s fn k op a d t hs ha hl => exec_ssReq hs ha hl,
    fun s lane w fn k hx => ⟨exec_utxRxWord_full hx, exec_utxRxWord_taken hx⟩, fun s lane w x hx => exec_utxTxWord hx, ?_⟩
  intro s fn k hs hu hc
  exact ⟨exec_islandAttn_notice hs hu hc, fun _ => exec_islandAttn_waits hs hu hc⟩

end Sys2Proof.Machine

/-! SUPPORT. The JTAG port with the entry up: the instruction that is selected and the mode of the pins (R611). -/

namespace Sys2Proof.Machine

section
variable {s : State} (he : s.car.entryUp = true)
include he

theorem exec_tapReset : exec .tapReset s = .next (s.jtag 1 0) := congrArg _ (if_pos he)

theorem exec_idcode : exec .idcode s = .next ((s.jtag 1 0).emit (.jtag 1 0x10084B4F)) := congrArg _ (if_pos he)

theorem exec_samplePreload {dr pins : Nat} : exec (.samplePreload dr pins) s =
    .next ((State.jtag { s with car := { s.car with boundary := dr } } 2 0).emit (.jtag 2 pins)) := congrArg _ (if_pos he)

theorem exec_bypass : exec .bypass s = .next (s.jtag 0xFF 0) := congrArg _ (if_pos he)

section
variable {ir mode : Nat} {dr : Option Nat}

/-- In test mode an instruction that drives pins is selected, and the pins go to its mode. -/
theorem State.jtagDrive_test (ht : s.brs.testMode = true) :
    s.jtagDrive ir mode dr = State.jtag { s with car := { s.car with boundary := dr.getD s.car.boundary } } ir mode := by
  simp only [State.jtagDrive, he, ht, Bool.not_true, Bool.false_eq_true, if_false]

/-- Outside test mode it acts as BYPASS. -/
theorem State.jtagDrive_bypass (ht : s.brs.testMode = false) : s.jtagDrive ir mode dr = s.jtag 0xFF 0 := by
  simp only [State.jtagDrive, he, ht, Bool.not_true, Bool.not_false, Bool.false_eq_true, if_false, if_true]

end

end

/-- Each of the three EXTEST instructions drives the pins from the boundary register that it loads. -/
theorem exec_extestRow {s : State} {dr ir : Nat} {row : Nat → Instr}
    (h : (ir, row) ∈ ([(0, .extest), (5, .extestPulse), (6, .extestTrain)] : List (Nat × (Nat → Instr)))) :
    exec (row dr) s = .next (s.jtagDrive ir 1 (some dr)) := by
  simp only [List.mem_cons, Prod.mk.injEq, List.not_mem_nil, or_false] at h
  obtain ⟨rfl, rfl⟩ | ⟨rfl, rfl⟩ | ⟨rfl, rfl⟩ := h <;> rfl

/-- Settles O45: each instruction with the entry up, and test mode decides for those that drive pins. -/
theorem jtagInstructionsRun : Obligations.JtagInstructionsRun := by
  refine ⟨fun s he => exec_tapReset he, fun s he => exec_idcode he, fun s dr pins he => exec_samplePreload he,
    fun s he => exec_bypass he, fun s dr ir row hRow he => ⟨fun ht => ⟨?_, ?_, ?_⟩, fun ht i hi => ?_⟩⟩
  · exact (exec_extestRow hRow).trans (congrArg _ (State.jtagDrive_test he ht))
  · exact congrArg Host.Outcome.next (State.jtagDrive_test he ht)
  · exact congrArg Host.Outcome.next (State.jtagDrive_test he ht)
  · simp only [List.mem_cons, List.not_mem_nil, or_false] at hi
    obtain rfl | rfl | rfl := hi
    · exact (exec_extestRow hRow).trans (congrArg _ (State.jtagDrive_bypass he ht))
    · exact congrArg Host.Outcome.next (State.jtagDrive_bypass he ht)
    · exact congrArg Host.Outcome.next (State.jtagDrive_bypass he ht)

end Sys2Proof.Machine

/-! SUPPORT. The SMBus target with the entry up: what each read answers, the flags of STATUS, and the release of SMB_ALERT_N
(R608, R609). -/

namespace Sys2Proof.Machine

/-- The number whose bits are the five given, the first one lowest. -/
def flagsOf (a b c d e : Bool) : Nat :=
  (if a then 2 ^ 0 else 0) + (if b then 2 ^ 1 else 0) + (if c then 2 ^ 2 else 0) + (if d then 2 ^ 3 else 0) +
    (if e then 2 ^ 4 else 0)

theorem flagsOf_bits (a b c d e : Bool) : (flagsOf a b c d e).testBit 0 = a ∧ (flagsOf a b c d e).testBit 1 = b ∧
    (flagsOf a b c d e).testBit 2 = c ∧ (flagsOf a b c d e).testBit 3 = d ∧ (flagsOf a b c d e).testBit 4 = e ∧
    flagsOf a b c d e < 32 := by
  revert a b c d e
  decide

/-- The flags byte of STATUS (R608). -/
def State.smbFlags (s : State) : Nat :=
  flagsOf (s.rb Reg.HST_READY 0) (s.rb Reg.AXB_STAT_CTL 0) s.car.statTherm s.brs.recovery s.brs.testMode

section
variable {s : State} (he : s.car.entryUp = true)
include he

theorem State.smbAnswer_of {bytes : List Byte} : s.smbAnswer bytes = s.emit (.smbus bytes) := if_pos he

theorem exec_smbIdent : exec .smbIdent s = .next (s.emit (.smbus (leBytes 4 Config.ident ++ leBytes 4 s.smbRevision))) :=
  congrArg _ (State.smbAnswer_of he)

theorem exec_smbEntry : exec .smbEntry s = .next (s.emit (.smbus (leBytes 8 (s.rn Reg.PWR_ENTRY_SENSE)))) :=
  congrArg _ (State.smbAnswer_of he)

theorem exec_smbStatus : exec .smbStatus s =
    .next (s.emit (.smbus (leBytes 1 s.smbFlags ++ leBytes 1 (s.rf Reg.AXB_RESET_STATUS 7 0) ++
      leBytes 1 (s.rf Reg.AXB_CFG_STATUS 3 0) ++ leBytes 1 ((s.hottest.map (·.1)).getD 0xFF)))) :=
  congrArg _ (State.smbAnswer_of he)

theorem exec_smbTemp : exec .smbTemp s = .next (s.emit (.smbus (leBytes 2 (match s.hottest with
    | some x => twos 16 x.2
    | none => 0x8000)))) := by
  show execSmbTemp s = _
  rw [execSmbTemp, State.smbAnswer_of he]
  cases s.hottest <;> rfl

theorem exec_regOffset {off : Nat} :
    exec (.regOffset off) s = .next { s with car := { s.car with regOffset := off % 2 ^ 32 } } := congrArg _ (if_pos he)

/-- A read at a valid offset answers status 0 and the word there, and the offset moves on (R608). -/
theorem exec_regRead (ha : s.car.regOffset % 4 = 0) (hm : s.car.regOffset ≤ 0xFFFFFC) (hr : s.brs.running = true) :
    exec .regRead s = .next { s.emit (.smbus (0 :: leBytes 4 ((s.word32 s.car.regOffset).getD 0xFFFFFFFF))) with
      car := { s.car with regOffset := (s.car.regOffset + 4) % 2 ^ 32 },
      fresh := if drawsAtRead s.car.regOffset then s.fresh + 1 else s.fresh } := by
  have hBytes : s.regReadBytes s.car.regOffset = 0 :: leBytes 4 ((s.word32 s.car.regOffset).getD 0xFFFFFFFF) := by
    simp [State.regReadBytes, ha, hr, Nat.not_lt.mpr hm]
  refine congrArg Host.Outcome.next ((if_pos he).trans ?_)
  rw [State.smbAnswer_of he, hBytes]
  rfl

theorem exec_alertAck : exec .alertAck s = .next s.alertRelease := congrArg _ (if_pos he)

theorem exec_alertResponse (hl : s.car.alertLow = true) : exec .alertResponse s =
    .next (s.emit (.smbus [BitVec.ofNat 8 (0x4C + s.rf Reg.AXB_STRAPS 1 0)])).alertRelease := by
  show execAlertResponse s = _
  rw [execAlertResponse, if_pos ((Bool.and_eq_true _ _).mpr ⟨he, hl⟩), State.smbAnswer_of he]

end

/-- Settles O46: each command with the entry up; the bits of the flags byte are those of `flagsOf`. -/
theorem smbusCommandsRun : Obligations.SmbusCommandsRun :=
  ⟨fun _ he => exec_smbIdent he, fun _ he => exec_smbEntry he, fun s he => ⟨s.smbFlags, exec_smbStatus he, flagsOf_bits ..⟩,
    fun _ he => exec_smbTemp he, fun _ _ he => exec_regOffset he, fun _ he ha hm hr => exec_regRead he ha hm hr,
    fun _ he => exec_alertAck he, fun _ he hl => exec_alertResponse he hl⟩

end Sys2Proof.Machine

/-! SUPPORT. The other pins of the carrier: RST_N, the polls of the regulators, the user GPIO and the strobe of the carrier
watchdog (R466, R601, R602, R610, R615). -/

namespace Sys2Proof.Machine

section
variable {s : State}

theorem exec_rstN (h : s.car.rstLow = false) :
    exec .rstN s = .next (State.moduleReset { s with car := { s.car with rstLow := true } } 2) :=
  congrArg _ (if_neg (ne_true_of_eq_false h))

theorem exec_rstNRelease (h : s.car.rstLow = true) :
    exec .rstNRelease s = .next (State.finishReset { s with car := { s.car with rstLow := false } }) :=
  congrArg _ (if_pos h)

/-! ## PMBus (R610) -/

/-- `s` at its next poll of the regulator of `fn`, after which `n` polls in a row have found no answer; a regulator that has
failed (`bad`) is not counted on. -/
def State.polled (s : State) (fn n : Nat) (bad : Bool) : State :=
  let t := (s.until (tget 0 s.car.pmbusAt fn + 10000000)).emit (.pmbus fn 0x79)
  { t with car := { t.car with
    pmbusAt := tput 0 t.car.pmbusAt fn t.now, pmbusMiss := tput 0 t.car.pmbusMiss fn (if bad then 0 else n) } }

theorem exec_pmbusPoll {fn : Nat} {answered fault : Bool} (hr : s.brs.running = true) (hp : Config.sitePresent fn = true)
    (hu : s.usable fn = true) (hc : s.car.regulator.contains fn = true) :
    exec (.pmbusPoll fn answered fault) s =
      let t := (s.until (tget 0 s.car.pmbusAt fn + 10000000)).emit (.pmbus fn 0x79)
      let n := if answered then 0 else tget 0 t.car.pmbusMiss fn + 1
      let bad := fault || decide (3 ≤ n)
      .next (if bad then (s.polled fn n bad).upFailure fn 2 else s.polled fn n bad) := by
  show execPmbusPoll fn answered fault s = _
  simp only [execPmbusPoll, hr, hp, hu, hc, Bool.not_true, Bool.or_self, Bool.false_eq_true, if_false]
  rfl

/-! ## AXB_GPIO (R615) -/

/-- A write by PF0 or by the bursar that the module admits drives the pins. -/
theorem exec_gpioWrite {who : Who} {v : Nat} (hr : s.moduleReason who = none) (hw : who = .pf0 ∨ who = .bursar) :
    exec (.gpioWrite who v) s = .next (s.gpioSet v) := by
  have hMay : s.moduleWriteReason who = none := by
    obtain rfl | rfl := hw <;> simp only [State.moduleWriteReason, hr] <;> rfl
  show execGpioWrite who v s = _
  simp only [execGpioWrite, hMay]

/-! ## The carrier watchdog (R466, R602) -/

/-- The next whole millisecond after the last strobe. -/
def State.strobeDue (s : State) : Nat :=
  let past := s.now - s.car.strobeAt
  s.car.strobeAt + 1000000 * (if past ≤ 1000000 then 1 else (past + 999999) / 1000000)

theorem exec_bursarStrobe {ok : Bool} (hr : s.brs.running = true) (hc : s.clock = true) :
    exec (.bursarStrobe ok) s =
      let t := s.until s.strobeDue
      .next (if ok then State.emit { t with car := { t.car with strobeAt := t.now } } .strobe
        else t.addSat Reg.AXB_WDOG_STATUS 31 0 1) :=
  congrArg _ (State.when_of ((Bool.and_eq_true _ _).mpr ⟨hr, hc⟩))

end

/-- Settles O47: each pin in the state in which it acts, and a poll by its answer and the misses before it. -/
theorem pinCommandsRun : Obligations.PinCommandsRun := by
  refine ⟨fun s h => exec_rstN h, fun s h => exec_rstNRelease h, fun s fn answered fault hr hp hu hc => ?_,
    fun s who v hr hw => exec_gpioWrite hr hw, fun s hr hc => ⟨exec_bursarStrobe hr hc, exec_bursarStrobe hr hc⟩⟩
  refine (exec_pmbusPoll hr hp hu hc).trans ?_
  simp only [State.polled, Bool.or_eq_true, decide_eq_true_eq]

end Sys2Proof.Machine
